-- ==== Sys2Proof/Word.lean ====
section
/-! DEFINITION. The word types of the module (spec/00_scope.md, Notation and conventions): bytes, 64-bit register
words, the 32-bit lanes that hold FP32 patterns, and the little-endian reading of a list of bytes. -/

namespace Sys2Proof

/-- One byte of memory, flash or a packet. -/
abbrev Byte := BitVec 8

/-- One 64-bit control-space register, or a scalar register of a Palm context. -/
abbrev Word := BitVec 64

/-- One 32-bit lane: the bits of an FP32 value, or a 32-bit integer. -/
abbrev Lane := BitVec 32

/-- The number that a list of bytes spells, least significant byte first (spec/00_scope.md: little-endian for every
multi-byte field). -/
def leNat : List Byte → Nat
  | [] => 0
  | b :: bs => b.toNat + 256 * leNat bs

/-- The `n` bytes of a number, least significant first. -/
def leBytes : Nat → Nat → List Byte
  | 0, _ => []
  | n + 1, v => BitVec.ofNat 8 v :: leBytes n (v / 256)

/-- The `n` bytes of a number, most significant first (R492). -/
def beBytes (n v : Nat) : List Byte := (leBytes n v).reverse

/-- The number that octets spell, most significant first (R492). -/
def beNat (bs : List Byte) : Nat := leNat bs.reverse

/-- `n` bytes of a list from byte `o`; bytes past the end read as zero. -/
def bytesAt (bs : List Byte) (o n : Nat) : List Byte :=
  let cut := (bs.drop o).take n
  cut ++ List.replicate (n - cut.length) 0

/-- The little-endian field of `n` bytes at offset `o`. -/
def leField (bs : List Byte) (o n : Nat) : Nat := leNat (bytesAt bs o n)

/-- Bits [hi:lo] of a number (spec/00_scope.md: bit 0 is the least significant). -/
def bitsOf (v hi lo : Nat) : Nat := (v >>> lo) % 2 ^ (hi + 1 - lo)

/-- Bit `i` of a number. -/
def bitOf (v i : Nat) : Bool := (v >>> i) % 2 == 1

/-- The value of a field of `w` bits read as a two's-complement number. -/
def signedOf (w v : Nat) : Int :=
  if v % 2 ^ w < 2 ^ (w - 1) then ((v % 2 ^ w : Nat) : Int) else ((v % 2 ^ w : Nat) : Int) - ((2 ^ w : Nat) : Int)

/-- The least multiple of `k` that is not below `v`. -/
def roundUp (v k : Nat) : Nat := if k = 0 then v else (v + k - 1) / k * k

/-- The quotient rounded up. -/
def ceilDiv (v k : Nat) : Nat := if k = 0 then 0 else (v + k - 1) / k

end Sys2Proof
end

