-- ==== Sys2Proof/Syntax.lean ====
section
/-! DEFINITION. The commands of the block: one constructor of `Instr` for each row of spec/opcode_table.json, with the
row's operands, and the operand records that the environment supplies (frames, DIMM populations, PMBus answers). -/

namespace Sys2Proof

/-- One DIMM as its SPD describes it (R314): `kind` is 0 RDIMM, 1 MRDIMM, anything else a kind that R11 excludes. -/
structure Dimm where
  kind : Nat
  gib : Nat
  ranks : Nat
  deriving DecidableEq, Repr

/-- What memory training finds at stage B4 (R314, R457): the DIMMs of each channel D0 to D15; the FAIL code and number of an HBM
channel that fails; the DDR channel that fails to train; the kept channels that failed their check and lost their contents, 0 to 383
of HBM and 384 to 399 of DDR. -/
structure Training where
  dimms : List (List Dimm)
  hbmFail : Option (Nat × Nat)
  ddrFail : Option Nat
  lost : List Nat
  deriving DecidableEq, Repr

/-- How a round of live calibration found an HBM lane (R429): whether it is the channel's last lane, after which the first comes again,
and whether its retraining compared equal. -/
structure CalLane where
  last : Bool
  ok : Bool
  deriving DecidableEq, Repr

/-- An I2C transaction on the management bus (R513): the address called, the index byte, and how many bytes are written after it. -/
structure I2cCall where
  addr : Nat
  idx : Nat
  more : Nat
  deriving DecidableEq, Repr

/-- One Quiras frame as the receiver sees it after RS decoding (R374 to R376): `rsOk` says that decoding succeeded and
`corrected` how many bytes it corrected; `hdr` is header bits [47:0] and `crc` header bits [63:48]. -/
structure QFrame where
  hdr : Nat
  crc : Nat
  payload : List Byte
  rsOk : Bool
  corrected : Nat
  deriving DecidableEq, Repr

/-- One regulator's answers to a telemetry poll (R448, R470): VOUT in mV, IOUT in 0.1 A, STATUS_WORD, temperature. -/
structure RailReading where
  vout : BitVec 16
  iout : BitVec 16
  status : BitVec 16
  temp : BitVec 8
  deriving DecidableEq, Repr

/-- The error a controller finds when it reads a line: none, one it corrects, or one it cannot (R320). -/
inductive MemErr where
  | none
  | corrected
  | uncorrectable
  deriving DecidableEq, Repr

/-- How the PMBus controller's commands of a level change end (R448): every regulator answers without a fault, or the
named rail fails with the named PMBus command. -/
inductive PmbusAnswer where
  | good
  | failed (rail : Nat) (cmd : Nat)
  deriving DecidableEq, Repr

/-- The commands. Tiles are logical numbers, `n` is a context, `id` names a descriptor in its slot, and a Palm row
carries the 27 bits of its word below OPCODE (R288). -/
inductive Instr where
  -- control space, resets and bring-up
  | registerWrite (off size : Nat) (v : Word)
  | vddAonRise
  | porN (ns : Nat)
  | warmRstN (ns : Nat)
  | rstWarm
  | stageB0
  | stageB1 (crcOk vddbOk : Bool)
  | stageB2
  | stageB3 (pllOk : Bool) (pmbus : PmbusAnswer)
  | stageB4 (tr : Training)
  | stageB5
  | stageB6 (linksUp : List Nat) (pmbus : PmbusAnswer)
  | stageTimeout
  | epochReq (slot : Nat)
  | epochCheckDone
  | epochCancel
  | marginSummary
  | journalCompaction
  -- contexts and descriptors
  | ctxStart (t n : Nat)
  | ctxStop (t n : Nat)
  | contextWake (t n : Nat)
  | descriptorSubmit (t n off : Nat) (data : List Byte)
  | descriptorAdmit (id : Nat)
  | descriptorComplete (id : Nat)
  | genDomainWrite (d : Nat) (v : Word)
  | descriptorCancel (id : Nat)
  | moduleNoWrite (v : Word)
  -- engine operations
  | mmFwd (id : Nat)
  | mmDgrad (id : Nat)
  | mmWgrad (id : Nat)
  | mmStats (id : Nat)
  | copy (id : Nat)
  | permute (id : Nat)
  | skewCopy (id : Nat)
  | packInput (id : Nat)
  | unpackInput (id : Nat)
  | runChain (id : Nat)
  | touchReset (id : Nat)
  | expertDispatch (id : Nat)
  | expertCombineReturn (id : Nat)
  | expertCombineSum (id : Nat)
  | redLocal (id : Nat)
  | redSend (id : Nat)
  | redSendFillWait (id : Nat)
  | bucketArm (id : Nat)
  | redZero (id : Nat)
  | areaReserve (id : Nat)
  | mittShare (t : Nat)
  | mittPassSwap (t : Nat)
  | mittDrain (t : Nat)
  | combineAdd (t : Nat)
  | multicastFill (id blk : Nat)
  | cuffJob (t : Nat)
  | gloveStart (t : Nat)
  | sortStage (t : Nat)
  | segmentMerge (t : Nat)
  | runAheadRead (t : Nat)
  -- placement, numerics and Band
  | placeEpochReq
  | placeEpochCancel
  | placeEpochWrite (v : Word)
  | numFbBaseWrite (v : Word)
  | numFbNextWrite (v : Word)
  | bandAdvance
  | groupScheduleWrite (g r : Nat) (v : Word)
  | groupRestoreWrite (g r : Nat) (v : Word)
  | bandStepWrite (v : Word)
  -- Palm instructions
  | palmEnd (t n : Nat) (w : BitVec 27)
  | alu (t n : Nat) (w : BitVec 27)
  | alui (t n : Nat) (w : BitVec 27)
  | lis (t n : Nat) (w : BitVec 27)
  | ld (t n : Nat) (w : BitVec 27)
  | st (t n : Nat) (w : BitVec 27)
  | br (t n : Nat) (w : BitVec 27)
  | jal (t n : Nat) (w : BitVec 27)
  | jr (t n : Nat) (w : BitVec 27)
  | waitne (t n : Nat) (w : BitVec 27)
  | fence (t n : Nat) (w : BitVec 27)
  | band (t n : Nat) (w : BitVec 27)
  | dgap (t n : Nat) (w : BitVec 27)
  | tmnext (t n : Nat) (w : BitVec 27)
  | spr (t n : Nat) (w : BitVec 27)
  | vld (t n : Nat) (w : BitVec 27)
  | vst (t n : Nat) (w : BitVec 27)
  | vop (t n : Nat) (w : BitVec 27)
  | vfma (t n : Nat) (w : BitVec 27)
  | vfn (t n : Nat) (w : BitVec 27)
  | vsel (t n : Nat) (w : BitVec 27)
  | vred (t n : Nat) (w : BitVec 27)
  | vmov (t n : Nat) (w : BitVec 27)
  | vacc (t n : Nat) (w : BitVec 27)
  | vstep (t n : Nat) (w : BitVec 27)
  | sfp (t n : Nat) (w : BitVec 27)
  | vint (t n : Nat) (w : BitVec 27)
  | vperm (t n : Nat) (w : BitVec 27)
  | palmEvent (t n : Nat) (w : BitVec 27)
  | vgth (t n : Nat) (w : BitVec 27)
  | vsct (t n : Nat) (w : BitVec 27)
  | trap (t n : Nat) (w : BitVec 27)
  -- memory controllers, adders and windows
  | memRead (addr : Nat) (err : MemErr)
  | memWrite (addr : Nat) (mask : BitVec 64) (data : List Byte) (err : MemErr)
  | cowWriteRelease
  | add (addr rank : Nat) (mask : BitVec 16) (data : List Byte)
  | bitset (addr : Nat) (data : List Byte)
  | zero (addr : Nat) (mask : BitVec 16)
  | addLateApply
  | scrubRead (ch : Nat) (err : MemErr)
  | adderSelfCheck (ch : Nat) (ok : Bool)
  | winOpen (n : Nat)
  | winOpenEffect (n : Nat)
  | winClose (n : Nat)
  | winCloseDone (n : Nat)
  | winAbort (n : Nat)
  | ddrXlateInWrite (v : Word)
  | fillCntWrite (f : Nat) (v : Word)
  -- reduction
  | contributionHeader
  | lineGroup
  | replyAccepted
  | replyRefused
  | replyComplete
  | abandonReply
  | bucketDeadline (b : Nat)
  | bucketDrainLimit (b : Nat)
  | bucketFinalise (b : Nat)
  -- Ethernet
  | ethFrameRx (p : Nat) (fcsOk : Bool) (bytes : List Byte)
  | ptpNext (p : Nat)
  | roceSend (p : Nat)
  | roceWrite (p : Nat)
  | roceReadRequest (p : Nat)
  | cmdEntries (p : Nat)
  | cmdAck (p : Nat)
  | cmdMessages (p : Nat)
  | rtoExpire (c : Nat)
  | epCtrlWrite (p : Nat) (v : Word)
  -- Quiras links
  | quirasDataFrame (l : Nat) (f : QFrame)
  | controlFrame (l : Nat) (f : QFrame)
  | controlFrameTimer (l : Nat)
  | handoverMarker (l : Nat) (f : QFrame)
  | echoFrame (l : Nat) (f : QFrame)
  | echoExchange (l : Nat)
  | qlReplayTimeout (l : Nat)
  | linkRecovery (l : Nat)
  | recoveryTimeout (l : Nat)
  | linkTrainRetry (l : Nat)
  | alignmentMarker (l : Nat)
  | qlRetrain (l : Nat)
  | qlEcho (l : Nat)
  | qlHandoverGo (l pos : Nat)
  | handoverComplete (l : Nat)
  | handoverTimeout (l : Nat)
  -- messages between modules
  | readReq
  | readResp
  | msgWrite
  | writeAck
  | accum
  | accumAck
  | queuePush
  | queueAck
  | queuePushRetry (tag : Nat)
  | remoteTimeoutExpire (tag : Nat)
  -- partner contexts and queues
  | pcCtrlWrite (c : Nat) (v : Word)
  | qCfgWrite (q : Nat) (v : Word)
  | qDirectEntry (q : Nat) (data : List Byte)
  | qDoorbellWrite (q : Nat) (v : Word)
  | qHeadWrite (q : Nat) (v : Word)
  | outboundEntrySend (q : Nat)
  -- management commands
  | regRead
  | regWrite
  | flashRead
  | flashErase (ok : Bool)
  | flashWrite (ok : Bool)
  | calCommit
  | calCapture
  | attest
  | attestSignDone
  | mgmtReset
  | resetCommandFire
  | mgmtClaim
  | mgmtRelease
  | claimTimeout
  -- detectors, Hatbox, calibration and Darn
  | detCheck
  | detCheckEvaluate
  | heldDescriptorStop (id : Nat)
  | detHold
  | detRelease
  | detArmReset
  | hbTake
  | pageCopy
  | hbAbort
  | hbRestore
  | page
  | pageAck
  | commit
  | commitAck
  | journal
  | restoreReq
  | restorePage
  | restoreDone
  | calRoundHbm (ch margin : Nat) (lane : CalLane)
  | calRoundQuiras (l margin : Nat) (abandoned : Bool)
  | darnReqWrite (o : Nat)
  | tileReplace
  | tileReplaceDefer
  -- clocks, power and reset
  | plTargetWrite (v : Word)
  | levelChange (pmbus : PmbusAnswer)
  | railSettled
  | pllRelockDone (pmbus : PmbusAnswer)
  | governorTick (temps : List (BitVec 16))
  | pmbusTelemetryPoll (rails : List (Option RailReading))
  | thermalTrip (sensor : Nat) (temp : BitVec 16)
  | droopDetect (r : Nat)
  | droopStretchEnd (r aclks : Nat)
  | sleepS1
  | sleepS2
  | sleepS3
  | sleepS4
  | sleepWake
  | wakePin
  | padReleaseWrite (v : Word)
  | blockResetPalm (i : Nat)
  | blockResetMitt (i : Nat)
  | blockResetCuff (i : Nat)
  | blockResetGlove (i : Nat)
  | blockResetSizer (i : Nat)
  | blockResetCounters (i : Nat)
  | blockResetEthPort (i : Nat)
  | blockResetQuirasLink (i : Nat)
  -- Doff, dumps, security, I2C
  | doffFire
  | doffPinTrigger (ticks : Nat)
  | doffMsg
  | doffFreeze (late : List Nat)
  | doffOutRelease
  | doffThaw
  | tensorDumpCopy
  | dumpNextWrite (v : Word)
  | keyProgram (slot confirm : Nat)
  | keyRevoke (slot confirm : Nat)
  | keyCmdDone (blown : List Byte)
  | i2cRead (call : I2cCall)
  -- counter clears
  | mittCntClear (t : Nat)
  | cuffCntClear (t : Nat)
  | gloveCntClear (t : Nat)
  | expCntClear (t : Nat)
  | sizerCntClear (t : Nat)
  | numCntClear
  | palmCntClear (t : Nat)
  | bandCntClear
  | addCntClear
  | hbmCntClear
  | ddrCntClear
  | redCntClear
  | epCntClear (p : Nat)
  | qlCntClear (l : Nat)
  | qrCntClear
  | detCntClear
  | jnlCntClear
  | hbCntClear
  | droopCntClear
  | pwrCntClear
  | obsCntClear
  | tcntCntClear (t : Nat)
  -- late rows of the table
  | frameSlot (l : Nat)
  | linkTrainingDone (l : Nat) (credit : Word)
  | vddAonFall
  | epLinkUpChange (p : Nat) (up : Bool)
  | marginMeasure (o margin lane : Nat)
  | idleCalTrim (r : Nat) (trim : Int)
  deriving DecidableEq, Repr

end Sys2Proof
end

