-- ==== Sys2Proof/Config.lean ====
section
/-! DEFINITION. What the spec leaves free: functions with a bounded error that the spec fixes without giving their bits,
values it calls undefined or arbitrary, and the contents of other modules. Each is an opaque constant with no body, so
no statement can rest on a value of it. -/

namespace Sys2Proof.Config

/-- A free bit for each value of the model's own counter (`Core.freeCtr`): a choice the spec leaves open, such as
whether a reset pulse of 2 to 3 us is honoured (R460). -/
opaque freeBit : Nat → Bool

/-- A free byte for each value of the model's counter and each address: a byte the spec calls undefined, or a byte that
another module holds (R95, R390, R523). -/
opaque freeByte : Nat → Nat → Byte

/-- Whether a line that nothing has written since a cold start has arbitrary check bits that the controller cannot
correct (R523), by the counter of its range and its line number. -/
opaque coldUe : Nat → Nat → Bool

/-- A free number for each value of the model's counter, where a measured quantity is not given by an operand. -/
opaque freeNat : Nat → Nat

/-- The eight parity bytes of RS(272,264) over the 264 bytes before them (R375): the spec gives no generator. -/
opaque rsParity : List Byte → List Byte

/-- FUNC of the drain for the codes 2 to 7 at the inputs to which R126 gives no special value: a fixed method within
2 FP32 ulp. The first argument is the code. -/
opaque drainFn : Nat → Lane → Lane

/-- The derivative DFUNC for the codes 2 to 7 (R149, R150), within 2 FP32 ulp. -/
opaque derivFn : Nat → Lane → Lane

/-- The Palm functions rsqrt, rcp, exp2, log2 and exp (R290), by VFN code, within 2 FP32 ulp. -/
opaque palmFn : Nat → Lane → Lane

/-- The cosine of Band's schedule (R297), of the FP32 value of pi times m divided by T. -/
opaque cosFn : Lane → Lane

/-- The FP32 minimum (`false`) or maximum (`true`) of two values of which one is a NaN, or which are zeros of two signs: the
spec names the operation (R290, R297) and not that result. -/
opaque minMaxOpen : Bool → Lane → Lane → Lane

/-- Bits [63:32] of the result of a scalar FP32 operation (R289), by its function code and operands; of the conversion to
BF16 bits the 48 bits above the result. -/
opaque sfpHigh : Nat → Word → Word → Word

/-- The scalar conversion of FP32 to a 64-bit integer (R290) where the value lies outside the integers of 64 bits or is a
NaN. -/
opaque sfpInt : Lane → Word

/-- GAMMA raised to an exponent (R297), within 2 ulp. -/
opaque powFn : Lane → Lane → Lane

/-- The step's decay in units of 2^-40 for an FP32 eta times WD in 0 to 1 (R298). -/
opaque lambdaOf : Lane → Word

/-- The decay factor for an owed sum in units of 2^-40 (R299), within 2 ulp. -/
opaque decayFactor : Nat → Lane

/-- Bank, row and column of a line in the DDR tier (R318): by the number of its 4 KiB page among those of its DIMM, rank and bank
group, and the line within the page. The low 2 bits are the bank, the next 18 the row, the next 11 the column. -/
opaque ddrPlace : Nat → Nat → Nat

/-- The octets of the fuse map "in bank order" (R500), which the spec does not lay out, from the values it holds. -/
opaque fuseOctets : List Nat → List Byte

/-- The calibration octets a capture writes for the live PHY values (R62), which the spec does not lay out. -/
opaque liveSeeds : Nat → Nat → Byte

end Sys2Proof.Config
end

