-- ==== Sys2Proof/Machine/State.lean ====
section
/-! DEFINITION. The state of the module as plain data. Every control-space register is one entry of `Core.ctl` (an
unlisted offset holds the reset value that Machine/Regs.lean tabulates from the spec's register tables); the other
fields hold the state that the spec gives the machine outside its registers: memories, contexts, descriptors, work
shares, staged accumulates, buckets, partner traffic, links, checkpoint and power state. -/

namespace Sys2Proof.Machine

/-- Why a command stops the model: no command does, since the spec gives every row of the table an effect, and so there
is no constructor. -/
inductive Fault where
  deriving DecidableEq, Repr

/-- Why a command has no meaning in the model. -/
inductive Refusal where
  /-- An arm of `exec` that gives its command no meaning yet. Safe: nothing is claimed about such a command. -/
  | notModelled (mnemonic : String)
  deriving DecidableEq, Repr

/-- What a pin shows (R466, R512): high impedance, with a pull or without, a level, the traffic of its function's bus, or the
electrical idle of a transmitter. -/
inductive PinState where
  | hiZ | pullUp | pullDown | low | high | bus | idle
  deriving DecidableEq, Repr

/-- Something the module has put on its outside: a frame, a datagram, a bus transaction or data returned. The list of
them is in the order of sending. -/
inductive Out where
  /-- an Ethernet frame sent on port `p` (R366) -/
  | eth (p : Nat) (bytes : List Byte)
  /-- a Quiras frame sent on link `l`: the bytes on each of its five lanes before scrambling, none on a lane that carries
  the training pattern (R374) -/
  | frame (l : Nat) (lanes : List (List Byte))
  /-- what training tells the partner on link `l`: the division of the receive buffers and the transmit lane map (R378, R381) -/
  | train (l : Nat) (credit txmap : Word)
  /-- an alignment marker on every lane of link `l` (R374) -/
  | marker (l : Nat)
  /-- a PMBus command to a rail: command code and value (R448) -/
  | pmbus (rail cmd value : Nat)
  /-- eight bytes answered by the I2C target (R513) -/
  | i2c (idx : Nat) (v : Word)
  /-- the NACK that the I2C target gives the second byte of a write (R513) -/
  | i2cNack
  /-- what STAT0 to STAT3 show while a pulse on a reset pin holds the module in reset (R467) -/
  | stat (pins : List PinState)
  /-- a line returned by a memory controller (R316), with its local address -/
  | line (addr : Nat) (bytes : List Byte)
  /-- an acknowledgement of an operation at a memory controller or adder, with a status code of R103 -/
  | ack (addr status : Nat)
  deriving DecidableEq, Repr

/-- For whom bytes of another module are fetched (R76, R388): a descriptor past its submission, the blocks that its shares have
in common (R247), run-ahead for a descriptor, or the instruction of a Palm context. -/
inductive Owner where
  | desc (id : Nat)
  | fill (id : Nat)
  | ahead (id : Nat)
  | ctx (t n : Nat)
  deriving DecidableEq, Repr

/-- What a response to an outstanding remote request completes (R388, R391), or who waits for an operation that memory
holds back (R336, R422). -/
inductive Waiter where
  /-- a Palm load of context `n` of tile `t`: the writes its data make, by opcode and word -/
  | load (t n : Nat) (word : Nat)
  /-- a posted write of a Palm context -/
  | store (t n : Nat) (addr : Nat)
  /-- an output of a descriptor, for its record `rec_` -/
  | desc (id rec_ : Nat)
  /-- `n` bytes at a global address that an engine or an instruction reads -/
  | fetch (o : Owner) (ga n : Nat)
  /-- a queue push of an outbound queue -/
  | push (q count : Nat)
  /-- a message of a checkpoint or restore (R426) -/
  | hatbox
  /-- another module, whose WRITE or ACCUM with this tag is answered by an acknowledgement of this KIND -/
  | peer (src tag kind : Nat)
  /-- a contribution of a bucket, by the bucket's entry, its source and rank (R356) -/
  | contrib (idx src rank : Nat)
  /-- a requester at the memory's own port, answered for this line -/
  | port (addr : Nat)
  /-- a request whose response nobody waits for -/
  | nobody
  deriving DecidableEq, Repr

/-- One ADD staged in a ranked window (R334): window, line index within it, rank, lane mask, the 16 payload lanes. -/
structure Staged where
  win : Nat
  line : Nat
  rank : Nat
  mask : BitVec 16
  lanes : List Lane
  deriving DecidableEq, Repr

/-- An ADD waiting at its channel on a line of closing window `win` (R336). -/
structure LateAdd where
  win : Nat
  addr : Nat
  rank : Nat
  mask : BitVec 16
  lanes : List Lane
  who : Waiter
  deriving DecidableEq, Repr

/-- A message on its way to another module or delivered from one (R388): source, destination, class and bytes; `link`
is the link it arrived on, 12 for one that never left the module, 13 and 14 for EP0 and EP1, and `tick` the timebase tick of
its arrival, 0 for one on its way out (R355). -/
structure Msg where
  src : Nat
  dest : Nat
  cls : Nat
  link : Nat
  tick : Nat
  bytes : List Byte
  deriving DecidableEq, Repr

/-- An outstanding remote request: tag, destination module, the tick of issue, the timeout in force, its waiter, and
the message itself (resent by a queue push) and its class. A request that still waits for one of its die's 8,192 tags has
a number of 0x1_0000 or more in place of its tag, and has not been sent. -/
structure Req where
  tag : Nat
  dest : Nat
  cls : Nat
  since : Nat
  limit : Nat
  waiter : Waiter
  full : Bool
  msg : List Byte
  deriving DecidableEq, Repr

/-- Bytes of another module that have come for an owner (R388): their global address and number, the status of the response
and its data. -/
structure Fetch where
  owner : Owner
  ga : Nat
  n : Nat
  status : Nat
  data : List Byte
  deriving DecidableEq, Repr

/-- A range of another module that a stage of an engine's work still lacks: its place in the order of reading, the class of
its READ_REQ, its global address and its number of bytes. -/
structure Want where
  key : Nat
  cls : Nat
  ga : Nat
  n : Nat
  deriving DecidableEq, Repr

/-- The addresses of one memory channel (R317, R318): the tier's first address, the interleave's granule, its number of places, and
the place of the channel in it. -/
structure Stripe where
  base : Nat
  gran : Nat
  n : Nat
  place : Nat
  deriving DecidableEq, Repr

/-- A range [lo, hi) of local addresses whose bytes the spec leaves undefined until they are written, or, with a `stripe`, those of
one channel in the range: memory after a cold start (`cold`, R523), a channel that failed its check (R457), a staging region
(R334), or the output of a descriptor that was cancelled or struck by an error (R95, R103). Byte `a` of it reads as
`Config.freeByte ctr a`. -/
structure Undef where
  lo : Nat
  hi : Nat
  ctr : Nat
  cold : Bool
  stripe : Option Stripe
  deriving DecidableEq, Repr

/-- A write or accumulate that waits because it reached a page still to be copied for a checkpoint while the outgoing
staging is full (R422), with who waits for it; `masked` is a read-modify-write of a controller's port, with what its read half will
meet (R312, R320). -/
inductive CowOp where
  | write (addr : Nat) (bytes : List Byte) (who : Waiter)
  | masked (addr : Nat) (mask : BitVec 64) (data : List Byte) (err : MemErr) (who : Waiter)
  | add (addr rank : Nat) (mask : BitVec 16) (lanes : List Lane) (who : Waiter)
  | bits (addr : Nat) (bytes : List Byte) (who : Waiter)
  | zero (addr : Nat) (mask : BitVec 16) (who : Waiter)
  deriving DecidableEq, Repr

/-- The registers, the clock, the memories and everything that an engine's access to them can change. `ddrRanks` is the number of
ranks of a DIMM, as B4 read it (R314, R318); `due` lists the
objects due for Darn by kind (0 tile, 1 HBM lane, 2 Quiras lane, 3 DDR row, 4 PLL, 5 adder) and object number (R432);
`ceRows` the corrected DDR errors of the margin period and `dueRows` the rows due, as DDR channel and row. `heldBad` gives, for
one who waits for several held operations, the first error status among them; `lateTags` the tags whose requests timed out and
whose responses may still come, with the module and the KIND of the request (R391). `spoilt` lists the windows whose staging region
was written while they were open or closing (R334), `scrubAt` the tick of each channel's last scrub read (R321, R438). `reader` and `want` serve one stage of an
engine's work and are empty between commands: for whom it reads, and what of other modules it lacks. -/
structure Core where
  now : Word
  ctl : List (Nat × Word)
  remd : List (Nat × Nat)
  frozen : Option (List (Nat × Word))
  mem : List Host.Cell
  undef : List Undef
  ue : List Nat
  staged : List Staged
  late : List LateAdd
  spoilt : List Nat
  clean : List Nat
  pend : List Nat
  pageOut : List (Nat × List Byte)
  cow : List CowOp
  scrub : List (Nat × Nat)
  scrubAt : List (Nat × Nat)
  heldBad : List (Waiter × Nat)
  msgOut : List Msg
  reqs : List Req
  lateTags : List (Nat × Nat × Nat)
  fetched : List Fetch
  reader : Option Owner
  want : List Want
  outbox : List Out
  freeCtr : Nat
  nfTotal : Nat
  ddrRanks : Nat
  due : List (Nat × Nat)
  ceRows : List (Nat × Nat)
  dueRows : List (Nat × Nat)
  events : List Nat
  deriving DecidableEq, Repr

/-- The fuse bank (R8, R17, R45, R57, R403, R453, R466, R496, R499, R512, R513). `pins` is the pin image, by the codes of R466: GPIO0
to GPIO15, STAT0 to STAT3, DOFF_IN, DOFF_OUT, the flash, PMBus and I2C pins, TDO, the DDR5 RESET_n pins and the other DDR5 pins. -/
structure Fuses where
  grade : Nat
  serial : Nat
  notGood : List Nat
  maxRoot : Nat
  keyHash : List (List Byte)
  revoked : List Bool
  mac : List Nat
  tripDie : Nat
  tripHbm : Nat
  pins : List Nat
  overlayable : List Nat
  wakeGpio : Nat
  i2cAddr : Nat
  idModulus : Nat
  idPrivate : Nat
  deriving DecidableEq, Repr

/-- What lives outside every reset: the fuse bank, the Pattern flash (unlisted flash bytes read 0xFF), and the flash
sectors in which the device reports a program error (R66). -/
structure Part where
  fuses : Fuses
  flash : List Host.Cell
  badSectors : List Nat
  deriving DecidableEq, Repr

/-- An image whose epoch check passed and that waits for a boundary (R68): slot, sequence, key slot, hash, sections. -/
structure Image where
  slot : Nat
  seq : Nat
  key : Nat
  hash : List Byte
  sections : List (Nat × List Byte)
  deriving DecidableEq, Repr

/-- The structure registers loaded at B2 (R43): the running image, the live tile map (96 codes: logical number, 0xFE
spare, 0xFF not good, 0xFD retired), the voltage offsets of a valid calibration set (level by level, R60), its sensor trims
and droop thresholds as B2 read them (`calTrims`, set bytes 0x1_F000 to 0x2_01FF), an epoch request being checked or waiting, whether the pin overlay is in effect, and the fuse map as B1 loaded it (R500). -/
structure Pat where
  run : Option Image
  map : List Nat
  calOffsets : List Int
  calTrims : List Byte
  checking : Option Nat
  ready : Option Image
  overlayOn : Bool
  atB1 : Fuses
  deriving DecidableEq, Repr

/-- The state of one Palm context (R287) beside its four registers: x0 to x31, v0 to v31 (16 lanes each), PC, RC, TID,
the word a waiting context compares (R294), whether a remote load or a submission store blocks it, and the instruction word
of a load of several remote reads that blocks it, of a TMNEXT with the base and rows of its touch map at issue (R301). -/
structure Ctx where
  t : Nat
  n : Nat
  x : List Word
  v : List (List Lane)
  pc : Nat
  rc : Word
  tid : Nat
  waitAddr : Nat
  waitVal : Word
  blocked : Bool
  instr : Nat
  tmap : Nat × Nat
  deriving DecidableEq, Repr

/-- Who submitted a descriptor (R81): a context's port or a hardware queue. -/
inductive Src where
  | port (n : Nat)
  | queue (q : Nat)
  deriving DecidableEq, Repr

/-- How far a descriptor has come (R97, R98). -/
inductive Phase where
  /-- in its slot, before the end of admission -/
  | waiting
  /-- a RED_SEND past admission, waiting on its fill counter (R350) -/
  | filling
  /-- past admission, waiting for a tensor dump of a read role (R485) -/
  | dumping
  /-- past admission, waiting at the Sizer for its area (R249) -/
  | reserving
  /-- handed to its engine and not started -/
  | ready
  /-- being run by its engine -/
  | running
  /-- run to its end, its outputs issued; it completes once they are acknowledged -/
  | finished
  deriving DecidableEq, Repr

/-- What a descriptor latches at admission (R54, R201, R223, R229, R272). -/
structure Latch where
  chain : List Nat
  gloveWs : Nat
  tmapBase : Nat
  tmapRows : Nat
  numCtrl : Nat
  numThresh : Nat
  expLoad : Nat
  table : Nat
  deriving DecidableEq, Repr

/-- A condition that struck a descriptor: its status code (R103), the global address at fault and the record index, 0xFF
for none. -/
structure Strike where
  code : Nat
  addr : Nat
  rec_ : Nat
  deriving DecidableEq, Repr

/-- One descriptor in its admission slot: its 64 bytes, phase, its place in the order of admission, the tensor records, Band step and extents of its
admission, what it latched, the conditions that have struck it, the lines of uncorrectable errors that it met (global address
over 64, each once), the acknowledgements that its outputs await, and whether memory that another descriptor writes without naming
it lies in its records (R240). `by_` is the Palm context that submitted it (R100), `wrote` whether an output write of it has issued
(R162), `tried` whether a reservation attempt for it has failed (R252), `left` whether its outputs have been left undefined (R103),
`reps` the ROWS, BACK, HEAD and REP_CAP of the replicas that a dispatch has read from its placement table (R205). -/
structure Desc where
  id : Nat
  tile : Nat
  src : Src
  raw : List Byte
  phase : Phase
  adm : Nat
  step : Nat
  recs : List Byte
  ext : List Nat
  latch : Latch
  conds : List Strike
  detail : Nat
  ueSeen : List Nat
  acks : Nat
  mixed : Bool
  by_ : Option (Nat × Nat)
  wrote : Bool
  tried : Bool
  left : Bool
  reps : List (Nat × Nat × Nat × Nat)
  deriving DecidableEq, Repr

/-- One accumulator tile of a share (R22, R243): its row block, column block, the next partial piece to add, whether
its own last add is done, its 4,096 FP32 sums (row-major, empty before the first chunk), and the sum of the aliasing
batch entries done so far (R238). -/
structure AccTile where
  rb : Nat
  cb : Nat
  next : Nat
  full : Bool
  sums : List Lane
  before : List Lane
  deriving DecidableEq, Repr

/-- A value in a weight register or a Cuff slot: its format and pattern, and the scale byte that goes with it (R115, R143). A
fallback block's values are held in BF16 (R268). -/
structure Held where
  fmt : Nat
  pat : Nat
  scale : Nat
  deriving DecidableEq, Repr

/-- The weight registers of one bank, column by column along the contracted index, none where a mask dropped the weight; and
the pass they were loaded for (R109, R110), none since a reset: descriptor, number of the share in its plan, index of the pass. -/
structure Bank where
  pass : Option (Nat × Nat × Nat)
  cols : List (List (Option Held))
  deriving DecidableEq, Repr

/-- A bank that nothing has been loaded into. DESIGN CHOICE (log entry 2): the spec gives the weight registers no reset value; the
model takes +0 of BF16 in every cell. -/
def Bank.zero : Bank := { pass := none, cols := List.replicate 64 (List.replicate 64 (some { fmt := 2, pat := 0, scale := 127 })) }

/-- A tile's array (R109, R116): the bank tag that vectors now take, and the two banks. -/
structure Array64 where
  tile : Nat
  tag : Bool
  bank0 : Bank
  bank1 : Bank
  deriving DecidableEq, Repr

/-- A tile's Cuff buffers (R140): the buffer that the next fill takes, and for each its 64 rows of 64 slots and whether it holds
a block not yet emptied. -/
structure CuffBufs where
  tile : Nat
  turn : Bool
  slots0 : List (Option Held)
  slots1 : List (Option Held)
  full0 : Bool
  full1 : Bool
  deriving DecidableEq, Repr

/-- One work share of a Mitt descriptor (R244): its number in the plan, the record it writes, the member tile, piece, first output
batch entry of its unit, its strip of row and column blocks, whether it runs in order R and how many row blocks spill (R245, R246),
its first slot in its tile's reservation (R248), whether it has started, the index of its next pass, and its accumulator tiles in use. -/
structure Share where
  desc : Nat
  no : Nat
  out : Nat
  tile : Nat
  piece : Nat
  batch : Nat
  rb0 : Nat
  rb1 : Nat
  cb0 : Nat
  cb1 : Nat
  orderR : Bool
  spill : Nat
  slot0 : Nat
  started : Bool
  pass : Nat
  acc : List AccTile
  deriving DecidableEq, Repr

/-- An exported partial block in its combiner's area (R248): its slot's local address, and the sums that were stored there. -/
structure Partial where
  desc : Nat
  slot : Nat
  batch : Nat
  piece : Nat
  rb : Nat
  cb : Nat
  sums : List Lane
  deriving DecidableEq, Repr

/-- One job of a tile's Cuff (R144): a share of a gradient product, or of a Cuff descriptor with its batch entry and its
strip of the destination's row and column blocks (R244); `done` counts the tile pairs of an in-place transpose that have been
exchanged (R161). -/
structure CuffJob where
  desc : Nat
  tile : Nat
  batch : Nat
  rb0 : Nat
  rb1 : Nat
  cb0 : Nat
  cb1 : Nat
  started : Bool
  done : Nat
  deriving DecidableEq, Repr

/-- An operand block that two or more shares of a product need (R247): its record, the stored index of its first element, its
global address, and whether its multicast fill has gone out. -/
structure Fill where
  desc : Nat
  rec_ : Nat
  idx : List Nat
  addr : Nat
  sent : Bool
  deriving DecidableEq, Repr

/-- An element that a narrowing copy has written: its place in the flattened order of the destination, its wide value and what a
reader gets of it (R272, R273). -/
structure Narrow where
  desc : Nat
  place : Nat
  wide : Lane
  read : Lane
  deriving DecidableEq, Repr

/-- One entry inside the Glove (R174, R175): its key, its position and its FP32 row. -/
structure GEntry where
  key : Nat
  pos : Nat
  row : List Lane
  deriving DecidableEq, Repr

/-- What a dispatch still has to write once its rows are out (R214): the headers as pair number, HEAD, COUNT and whether the M fields are
out, the experts to mark, and its load lines as address, lane mask and payload. -/
structure Tail where
  heads : List (Nat × Nat × Nat × Bool)
  marks : List Nat
  loads : List (Nat × BitVec 16 × List Byte)
  deriving DecidableEq, Repr

/-- The descriptor that a tile's Glove runs: STEAL_EN at its start (R201), the number of stages done, the entries that the last one
passed on, the segment offsets that gather read (R181), and what a dispatch still has to write. -/
structure GloveRun where
  tile : Nat
  desc : Nat
  steal : Bool
  stage : Nat
  entries : List GEntry
  offs : List Int
  tail : Tail
  deriving DecidableEq, Repr

/-- A run-ahead buffer (R195): the descriptor and GEN it is tagged with, the bytes it holds, what it read (position,
index entry and FP32 row, empty where no row was fetched), and the lines that it found with an uncorrectable error (R197), each with
the position it was read for, whether it is of the row, and its global address. -/
structure RaBuf where
  tile : Nat
  desc : Nat
  gen : Nat
  bytes : Nat
  rows : List (Nat × Nat × List Lane)
  ue : List (Nat × Bool × Nat)
  deriving DecidableEq, Repr

/-- A reservation of Sizer area on a member (R249): the local addresses of its units of 16 KiB. -/
structure Resv where
  desc : Nat
  tile : Nat
  units : List Nat
  deriving DecidableEq, Repr

/-- A dump copy that waits or runs (R485, R487): its request, role, destination, descriptor and record, whether it has
begun, and what it still has to put in the dump queue. -/
structure DumpJob where
  req : Nat
  role : Nat
  dest : Nat
  desc : Nat
  record : Nat
  begun : Bool
  left : List Byte
  deriving DecidableEq, Repr

/-- A submission store that waits for an admission slot (R81): its port and bytes, and the Palm context it blocks. -/
structure WaitStore where
  tile : Nat
  n : Nat
  data : List Byte
  by_ : Option (Nat × Nat)
  deriving DecidableEq, Repr

/-- A direct entry that waits for room in its ring (R397): its queue and bytes, and the Palm context it blocks. -/
structure WaitEntry where
  queue : Nat
  data : List Byte
  by_ : Option (Nat × Nat)
  deriving DecidableEq, Repr

/-- Descriptors and the engines' work; `dumpNext` is a write of DUMP_NEXT that waits for the end of a copy (R490). -/
structure Work where
  nextId : Nat
  nextAdm : Nat
  descs : List Desc
  stores : List WaitStore
  direct : List WaitEntry
  shares : List Share
  parts : List Partial
  jobs : List CuffJob
  glove : List GloveRun
  ra : List RaBuf
  resv : List Resv
  fills : List Fill
  arrays : List Array64
  bufs : List CuffBufs
  narrows : List Narrow
  dumps : List DumpJob
  dumpNext : Option Nat
  deriving DecidableEq, Repr

/-- One accepted or refused contribution of a bucket (R355): its source, rank and GEN, whether accepted, whether its
header has come, its sample count, the lines named by it and added so far, and whether it is complete. -/
structure Contrib where
  src : Nat
  rank : Nat
  gen : Nat
  accepted : Bool
  header : Bool
  count : Nat
  lines : Nat
  got : Nat
  complete : Bool
  deriving DecidableEq, Repr

/-- One bucket-table entry beside its BKT registers (R354, R358); `drain` is the RED_DRAIN in force when it sealed (R363), `ueLines` the
local addresses of the lines whose adds met an uncorrectable error, in order (R105, R359). -/
structure Bucket where
  idx : Nat
  desc : Nat
  tile : Nat
  gen : Nat
  lines : Nat
  expect : Nat
  deadline : Nat
  sumMode : Bool
  first : Nat
  sealTick : Nat
  byDeadline : Bool
  refused : Nat
  ueLines : List Nat
  refusedAdd : Bool
  abandoned : Bool
  stepAtArm : Nat
  age : Nat
  drain : Nat
  contribs : List Contrib
  deriving DecidableEq, Repr

/-- A RED_SEND under way (R352): whether the owner has accepted it, whether it is empty, when it was sent and the
REMOTE_TIMEOUT in force then (R391). -/
structure Send where
  desc : Nat
  landing : Nat
  rank : Nat
  gen : Nat
  accepted : Bool
  empty : Bool
  since : Nat
  limit : Nat
  deriving DecidableEq, Repr

/-- The reduction engine and the bucket table; `turned` remembers contributions refused without an entry, by landing
address (R352, R355), and `late` the RED_SENDs that timed out, whose replies may still come (R391). -/
structure Red where
  buckets : List Bucket
  turned : List (Nat × Contrib)
  sends : List Send
  late : List Send
  nextAge : Nat
  deriving DecidableEq, Repr

/-- A partner's network address (R366): MAC, IP address, whether it is IPv6, UDP port; `me` is the address and `port` the
UDP port of this module that it used, which a reply swaps back. -/
structure NetAddr where
  mac : Nat
  ip : Nat
  v6 : Bool
  udp : Nat
  me : Nat
  port : Nat
  deriving DecidableEq, Repr

/-- A UDP payload that a port's sorter has handed on (R365): to command framing, or to RoCEv2; `excess` says that it is a READ that
found 16 outstanding (R368). -/
structure UpPkt where
  port : Nat
  roce : Bool
  excess : Bool
  from_ : NetAddr
  bytes : List Byte
  deriving DecidableEq, Repr

/-- The transport state of a partner context beside its registers (R370, R372): unacknowledged datagrams (SEQ and
bytes), consecutive timeouts, the tick of the last progress, and, for a KIND 2 context, the messages completed and the
message being received: whether one has begun, bytes of a SEND so far, the address a WRITE has reached and its rest. -/
structure PcRun where
  ctx : Nat
  unacked : List (Nat × List Byte)
  timeouts : Nat
  progress : Nat
  msn : Nat
  sendBuf : Option (List Byte)
  writeAt : Option (Nat × Nat)
  deriving DecidableEq, Repr

/-- One management request entry taken in (R401): its sender, the SEQ of its datagram, and its 64 bytes. -/
structure MgmtEntry where
  from_ : NetAddr
  seq : Nat
  bytes : List Byte
  deriving DecidableEq, Repr

/-- The claim on the management queue (R400): the claimant, the SEQ it must send next, the tick of its last datagram,
and the replies kept for a repeat of the last accepted datagram. -/
structure Claim where
  who : NetAddr
  next : Nat
  since : Nat
  replies : List (List Byte)
  deriving DecidableEq, Repr

/-- A captured attestation report that is being signed (R501): the entry it answers and its first 448 bytes. -/
structure Attest where
  entry : MgmtEntry
  body : List Byte
  deriving DecidableEq, Repr

/-- One PTP capture (R373): port, tick, sequenceId, messageType. -/
structure Ptp where
  port : Nat
  tick : Nat
  seqId : Nat
  kind : Nat
  deriving DecidableEq, Repr

/-- Everything of the host ports, partner contexts and management queue that is not in a register. -/
structure Net where
  rxUp : List UpPkt
  rxMsgs : List Msg
  pcs : List PcRun
  mgmtIn : List MgmtEntry
  claim : Option Claim
  ptp : List Ptp
  attest : Option Attest
  resetAt : Option Nat
  deriving DecidableEq, Repr

/-- A frame kept for replay (R380): its SEQ, class, source, destination and payload. -/
structure TxFrame where
  seq : Nat
  cls : Nat
  src : Nat
  dest : Nat
  payload : List Byte
  deriving DecidableEq, Repr

/-- A message being reassembled from frames of one stream (R376). -/
structure Stream where
  cls : Nat
  src : Nat
  dest : Nat
  buf : List Byte
  deriving DecidableEq, Repr

/-- A transmit handover under way (R383): position, its old and new lane, and whether its markers have been sent. -/
structure Handover where
  pos : Nat
  old : Nat
  new : Nat
  switched : Bool
  deriving DecidableEq, Repr

/-- One Quiras link beside its registers (R376 to R385): the next SEQ to send and to accept, the retry buffer, frames to
forward and to replay, replays without progress, whether a NAK is owed and whether one has been sent since the last frame
accepted; frames sent per class, frames the partner has reported freed and frames freed here, those since the last control
frame; the partner's credit division and the own one told to it; the schedule in force and its slot; messages being reassembled; the transmit handover;
the position the partner shadows and the one found ready; the switch that markers announced; echo exchanges left and done. -/
structure Link where
  txSeq : Nat
  rxSeq : Nat
  retry : List TxFrame
  forward : List TxFrame
  replay : List TxFrame
  stalls : Nat
  nakOwed : Bool
  nakSent : Bool
  sent : List Nat
  creditIn : List Nat
  freed : List Nat
  freedSince : Nat
  peerCredit : Word
  own : Word
  sched : Word
  slot : Nat
  streams : List Stream
  tx : Option Handover
  rxShadow : Option Nat
  rxReady : Option Nat
  rxSwitch : Option (Nat × Nat × Nat)
  echoLeft : Nat
  echoes : List (Nat × Int)
  deriving DecidableEq, Repr

/-- A checkpoint page that the log holds for the partner that HATBOX_IN names (R425): region, page index within it and checkpoint
sequence; its bytes stand in the log. -/
structure HbPage where
  region : Nat
  page : Nat
  seq : Nat
  deriving DecidableEq, Repr

/-- Detectors, journal, Hatbox, calibration, Darn and Band beside their registers: each group's decay of the open step as
the last boundary computed it (`lam`, R298, R311); the non-finite total of the last check (R410); the outcome of the open
step so far as PREV will record it (R416); the offset and step of the step records that the ring holds whole, the entries staged for the ring
and not yet written to it, and whether a boundary waits for room there (R415, R417); the
partner's journal mirror as (offset, lines, step) and its next offset (R424); the pages of the running checkpoint, those
sent and not acknowledged, its sequence and step, and whether the partner has reported a log capacity that takes them (R421, R422); at a partner,
the sequence and region table of the stream that is open and the pages in its log, oldest first (R423, R425); channels whose adder failed a check
in this margin period (R432), and the tick of each channel's last self-check (R331); links whose spare lane is permanent (R433); HBM channels that a failed compare left on their
spare lane (R429); the latest margin of each lane as object, lane and margin, the lane or position that an object's next round takes
where it is not 0, and the tick of each object's last round (R429 to R431, R438); the tick of the last margin summary (R64); and of a
boundary under way: the tick at which it began to wait for a tile, with the DARN_WAIT in force then (R434), that it waits, the tiles it deferred (R434), whether it applied a change
(R69). -/
structure Integ where
  lam : List (Nat × Word)
  nfPrev : Nat
  prev : Nat
  jnlSteps : List (Nat × Nat)
  jnlStage : List (List Byte)
  stageWait : Bool
  mirror : List (Nat × Nat × Nat)
  mirHead : Nat
  hbPages : List Nat
  hbSent : List Nat
  hbSeq : Nat
  hbAt : Nat
  hbFits : Bool
  hbOpen : Option (Nat × List (Nat × Nat))
  hbIn : List HbPage
  adderFails : List Nat
  checked : List (Nat × Nat)
  quirasSpareLost : List Nat
  onSpare : List Nat
  lanes : List (Nat × Nat × Nat)
  turn : List (Nat × Nat)
  calAt : List (Nat × Nat)
  marginAt : Option Nat
  waitAt : Option (Nat × Nat)
  boundaryWait : Bool
  deferred : List Nat
  applied : Bool
  deriving DecidableEq, Repr

/-- How far a level change has come (R449). -/
inductive ChangePhase where
  /-- a raise, its group command sent, the rails on their way -/
  | ramping
  /-- every divided clock paused, the PLLs relocking -/
  | locking
  /-- as `locking`, for a lowering at the level in force, whose entry an epoch changed: its group command follows -/
  | lockingDown
  deriving DecidableEq, Repr

/-- Power, clocks, reset and Doff beside their registers; `doffOutUntil` is the tick at which DOFF_OUT returns high (R479), `doffIdent` the
Doff taken last (R481), `doffTook` the tick in which an idle module took the Doff in force (R477), `doffThawed` the tick of the last THAW with the
counters that reads still give in it (R476), `lateBlocks` the counter blocks, by control-space offset divided by 4 KiB, that have not yet seen the
announcement of the freeze (R479); `pllPending` lists the dies whose switch to the spare PLL waits for
the end of a level change (R451); `relevel` says that an epoch has changed the entry of the level in force (R69), `pair` is the
ROOT_MULT and VCORE_MV in force and `pairTo` those that the change under way moves to; `heldPins` is the levels that pins 0 to 19
had at entry to S4, driven while PAD_HOLD holds their group (R455, R457). `fromS4` says that VDD_B has been off since S4 (R456), `target`
is the TARGET in force, which the governor's period takes from PL_CTRL (R472), and `govAt` and `pollAt` are the ticks of the last
governor period and of the last telemetry poll (R438). -/
structure Pwr where
  powered : Bool
  starting : Bool
  fromS4 : Bool
  memKept : Bool
  phyCopy : Bool
  tripped : Bool
  change : Option (Nat × ChangePhase)
  relevel : Bool
  pair : Nat × Nat
  pairTo : Nat × Nat
  pllPending : List Nat
  s4At : Word
  coolPeriods : Nat
  stretched : List Nat
  trims : List (Nat × Int)
  sleepPending : Option Nat
  doffFire : Option Nat
  doffOutUntil : Option Nat
  doffIdent : Option (Nat × Nat)
  doffSeq : Nat
  doffHops : Nat
  doffFrom : Nat
  doffTook : Option Nat
  doffThawed : Option (Nat × List (Nat × Word))
  lateBlocks : List Nat
  keyOp : Option (Nat × Nat)
  keyQueued : Option (Nat × Nat)
  epochQueued : Bool
  heldPins : List PinState
  target : Nat
  govAt : Option Nat
  pollAt : Option Nat
  deriving DecidableEq, Repr

/-- The module and its queue of waiting commands. -/
structure State where
  pending : List Instr
  core : Core
  part : Part
  pat : Pat
  palm : List Ctx
  work : Work
  red : Red
  net : Net
  links : List Link
  integ : Integ
  pwr : Pwr
  deriving DecidableEq, Repr

/-- The public half of the identity key pair of the part that State.reset describes (R499, log entry 3): its 4,096-bit modulus. -/
def idModulusOfPart : Nat :=
  0xaeeed90f27c75640c87f274f11ba56c21b945ac44690d9a2d6b452273a9724d05fc78c6a3ef01b25329e64a149311a3559f880983abf73f6f936c707027ac14ae518bd3350b40c9c5316329ebdcb4c3b27e4a5a1d05afb6634ffa2a9e800c9275474822d234882dd60942492507bac13130db8335a1fccfc01f3c9ae31fd4e1240df5728ef50013734681f7397246ae3855677893a96dec424d657f649bf64e075a4812b238c96ca2b2384e07c61865b96189e709733550a3dafd4335cdb46eb1f6dfcd4ea80155dcc1fd5bbd7c8b0ebf4b6ef2af21543e71e07c28ed55e90d7d4e721556043e4ac41fc72adcd0cffb7bb470dfd3dcace7c5bd09a955479085149b1767511a0f8c1e385c8c175259471e1baacf31d1752f078634de158b9ef1ff999c26a52a56c8b70e9666b85f71f6cadb045d5e2fcfe604770df02a092eef01954696b932c87fa65ca9a42b7e6a8de6212d7c2d6e0656e1abbbd300b07872192e5fbf2625a09d774fdc19688b01c4213e84f4092edbd4cfd4debbd2db29eef2a19274a2beb7ff1a2f1f621c2489f78be985f1ea95061b5e9bcd0b9d347c9d71c3ad1c86705dd19c3741e1be2bcdd05da34b75ccc80ee8eee333ceca512e138fd7d98851719c5630c1e7c409897c9f22e1f42f33203ff1f78811227cd7867b7894e3461a2d7f7e2e1465b700d63bd9b085f305dcf71e10143afe80e24ffb089

/-- The private half: the exponent that goes with the public exponent 65,537. -/
def idPrivateOfPart : Nat :=
  0x84cb3fef274d4506ccace9d4362af42d49ee66b0d4b8a4ddde8ae84a6b49cd627932ec3ec3245616f8c410b3f6f1d56966b1243d6b6b66c6b70c842da80e33a97d1c389439d154395f415c8ff097e1788ea21db2268eca851dfa692afdb98af9d63cd38d1c59b12e0860ad1a7d0a44e7fdf0ce41fd4a62bb7367f353cf12f12f1e1becf86022a5a99898ea373f27201533651e3d0842fb3c7e925017e087f0360c5822cdf2a088df53bc14e4acc703cd86b58da0fec6b2e9a1465699df057e62826b6620e31af41d4e156494c20bd1726d44696e7a72f626fe3ef9cc9fe0b7a780312cb6b8eb112e4ab12f050cc1af65743f4e394dad24ee766c76cca1617793abf09e8c5cbaeae1fa60c60d3c90959e9cbcf3b208a714484896cc61f868ae017de23bfb7dfa216383eabf2ed9d07c66d852c629227955de226e47d22c79eac58ec2ddde27bafd727ae5cbf1699bf2cc10ad880bc3f286ac1c67c934ab25739b0fb79902031ffe0308606696a5e57e4188a7f093f731c3951fb12372aef8103fe3c8996c6abe3354196f513535d0c9acf2b6aa9b7d506bc795340124cfd617e81b2b444c080ed56eae345d2dab4d26855dcba62df8a93899b3d6fda465ac3b6396c3edf8bf56f0698e2339c181e4b6bf15b28ff24d17b0e055c907701bfcb2d8b709c73ea5df45bc8df6b5023a8f5050c2cb43ff5bfaa1de7a6a0e0d199591b9

/-- The fuse bank of the part that the model starts with: a CZ96-A with every tile good, the factory pin image and
overlay permissions of R512. DESIGN CHOICE (log entry 3): the spec gives no part's fuse values. -/
def Fuses.initial : Fuses :=
  { grade := 0, serial := 1, notGood := [], maxRoot := 72,
    keyHash := List.replicate 4 (List.replicate 64 0), revoked := List.replicate 4 false,
    mac := [0, 0], tripDie := 0, tripHbm := 0,
    pins := List.replicate 16 1 ++ List.replicate 4 5 ++ [1, 5, 5, 5, 5, 0, 3, 0],
    overlayable := List.range 15 ++ [16, 17, 18, 19],
    wakeGpio := 15, i2cAddr := 0x5A, idModulus := idModulusOfPart, idPrivate := idPrivateOfPart }

/-- A link before training. -/
def Link.initial : Link :=
  { txSeq := 0, rxSeq := 0, retry := [], forward := [], replay := [], stalls := 0, nakOwed := false, nakSent := false,
    sent := List.replicate 5 0, creditIn := List.replicate 5 0, freed := List.replicate 5 0, freedSince := 0,
    peerCredit := 0, own := 0, sched := 0x4210321042103210, slot := 0, streams := [], tx := none, rxShadow := none,
    rxReady := none, rxSwitch := none, echoLeft := 0, echoes := [] }

/-- The engines with no work. -/
def Work.initial : Work :=
  { nextId := 0, nextAdm := 0, descs := [], stores := [], direct := [], shares := [], parts := [], jobs := [], glove := [], ra := [], resv := [],
    fills := [], arrays := [], bufs := [], narrows := [], dumps := [], dumpNext := none }

/-- The ports and partner contexts with no traffic. -/
def Net.initial : Net :=
  { rxUp := [], rxMsgs := [], pcs := [], mgmtIn := [], claim := none, ptp := [], attest := none, resetAt := none }

/-- The integrity units at rest. -/
def Integ.initial : Integ :=
  { lam := [], nfPrev := 0, prev := 0, jnlSteps := [], jnlStage := [], stageWait := false, mirror := [], mirHead := 0, hbPages := [], hbSent := [], hbSeq := 0,
    hbAt := 0, hbFits := false, hbOpen := none, hbIn := [], adderFails := [], checked := [], quirasSpareLost := [],
    onSpare := [], lanes := [], turn := [], calAt := [], marginAt := none, waitAt := none, boundaryWait := false, deferred := [], applied := false }

/-- Power state right after VDD_AON and POR_N have risen: a start is about to run B0. -/
def Pwr.initial : Pwr :=
  { powered := true, starting := true, fromS4 := false, memKept := false, phyCopy := false,
    tripped := false, change := none, relevel := false, pair := (0, 0), pairTo := (0, 0), pllPending := [], s4At := 0, coolPeriods := 0, stretched := [], trims := [], sleepPending := none,
    doffFire := none, doffOutUntil := none, doffIdent := none, doffSeq := 0, doffHops := 0, doffFrom := 12, doffTook := none, doffThawed := none, lateBlocks := [],
    keyOp := none, keyQueued := none, epochQueued := false, heldPins := [], target := 7, govAt := none,
    pollAt := none }

/-- The registers and memories at their reset values: no register listed, no byte listed, nothing sent. HBM and the DDR
tier hold arbitrary bits (R523). -/
def Core.initial : Core :=
  { now := 0, ctl := [], remd := [], frozen := none, mem := [],
    undef := [{ lo := 0, hi := 0x120_0000_0000, ctr := 0, cold := true, stripe := none },
              { lo := 0x800_0000_0000, hi := 0x1000_0000_0000, ctr := 0, cold := true, stripe := none }],
    ue := [], staged := [], late := [], spoilt := [], clean := [],
    pend := [], pageOut := [], cow := [], scrub := [], scrubAt := [], heldBad := [], msgOut := [], reqs := [], lateTags := [], fetched := [], reader := none, want := [], outbox := [], freeCtr := 0,
    nfTotal := 0, ddrRanks := 0, due := [], ceRows := [], dueRows := [], events := [] }

/-- The module right after VDD_AON has risen and POR_N has been released (R459, R462): every register at its reset
value, B0 about to run, the timebase at zero (R439), no byte of memory listed, an erased flash. -/
def State.reset : State :=
  { pending := [], core := Core.initial, part := { fuses := Fuses.initial, flash := [], badSectors := [] },
    pat := { run := none, map := [], calOffsets := [], calTrims := [], checking := none, ready := none, overlayOn := false, atB1 := Fuses.initial },
    palm := [], work := Work.initial, red := { buckets := [], turned := [], sends := [], late := [], nextAge := 0 }, net := Net.initial,
    links := List.replicate 12 Link.initial, integ := Integ.initial, pwr := Pwr.initial }

end Sys2Proof.Machine
end

