-- ==== Sys2Proof/Machine/Fp.lean ====
section
/-! DEFINITION. The formats and the arithmetic of the module (spec/09_numerics.md): a pattern is read as an exact value
(a sign, an integer and a power of two), the operation is done exactly, and the result is rounded once. -/

namespace Sys2Proof.Machine

/-- The exact value that a floating-point pattern stands for: NaN, an infinity, or (-1)^neg * m * 2^e. -/
inductive FVal where
  | nan
  | inf (neg : Bool)
  | fin (neg : Bool) (m : Nat) (e : Int)
  deriving DecidableEq, Repr

/-- One format of R254: exponent bits, mantissa bits P, bias, and whether it has infinities and NaNs. `e4m3` marks the
format whose only NaN is S.1111.111. -/
structure FFmt where
  eb : Nat
  p : Nat
  bias : Nat
  hasInf : Bool
  hasNan : Bool
  deriving DecidableEq, Repr

/-- The formats by their codes (R88, R254). Codes above 5 are not floating point and answer FP32. -/
def ffmt (code : Nat) : FFmt :=
  match code with
  | 1 => { eb := 5, p := 10, bias := 15, hasInf := true, hasNan := true }
  | 2 => { eb := 8, p := 7, bias := 127, hasInf := true, hasNan := true }
  | 3 => { eb := 4, p := 3, bias := 7, hasInf := false, hasNan := true }
  | 4 => { eb := 5, p := 2, bias := 15, hasInf := true, hasNan := true }
  | 5 => { eb := 2, p := 1, bias := 1, hasInf := false, hasNan := false }
  | _ => { eb := 8, p := 23, bias := 127, hasInf := true, hasNan := true }

/-- The exponent of the smallest normal binade (R254). -/
def FFmt.emin (f : FFmt) : Int := 1 - (f.bias : Int)

/-- The largest finite value of a format as an integer and a power of two (R254); INT8 by code 6. -/
def fmax (code : Nat) : Nat × Int :=
  match code with
  | 1 => (2047, 5)
  | 2 => (255, 120)
  | 3 => (7, 6)
  | 4 => (7, 13)
  | 5 => (3, 1)
  | 6 => (127, 0)
  | _ => (16777215, 104)

/-- EMAX of a format, the exponent of its largest finite binade (R254). -/
def femax (code : Nat) : Int :=
  match code with
  | 1 => 15
  | 2 => 127
  | 3 => 8
  | 4 => 15
  | 5 => 2
  | 6 => 6
  | _ => 127

/-- The canonical NaN pattern a format writes (R254). -/
def fnan (code : Nat) : Nat :=
  match code with
  | 1 => 0x7E00
  | 2 => 0x7FC0
  | 3 => 0x7F
  | 4 => 0x7E
  | _ => 0x7FC0_0000

/-- The value of a pattern of a floating-point format (R254). -/
def fdecode (code w : Nat) : FVal :=
  let f := ffmt code
  let neg := bitOf w (f.eb + f.p)
  let ef := bitsOf w (f.eb + f.p - 1) f.p
  let mf := w % 2 ^ f.p
  if ef = 2 ^ f.eb - 1 ∧ f.hasInf = true then (if mf = 0 then .inf neg else .nan)
  else if code = 3 ∧ ef = 15 ∧ mf = 7 then .nan
  else if ef = 0 then .fin neg mf (f.emin - (f.p : Int))
  else .fin neg (2 ^ f.p + mf) ((ef : Int) - (f.bias : Int) - (f.p : Int))

/-- m * 2^e with the integer shifted up to the exponent `lo`, which is not above `e`. -/
def alignTo (m : Nat) (e lo : Int) : Nat := m <<< (e - lo).toNat

/-- Comparison of m * 2^e with m' * 2^e': less than. -/
def magLt (m : Nat) (e : Int) (m' : Nat) (e' : Int) : Bool :=
  decide (alignTo m e (min e e') < alignTo m' e' (min e e'))

/-- How a narrowing rounds (R258, R278, R281): to nearest even, toward zero, or by a 64-bit draw. -/
inductive Rounding where
  | nearest
  | trunc
  | draw (r : Nat)
  deriving DecidableEq, Repr

/-- The integer nearest to m / 2^s under a rounding (R255, R278). -/
def roundShift (rn : Rounding) (m s : Nat) : Nat :=
  let q := m >>> s
  let rem := m % 2 ^ s
  match rn with
  | .trunc => q
  | .nearest =>
    if s = 0 then q
    else if 2 ^ (s - 1) < rem then q + 1
    else if rem = 2 ^ (s - 1) then q + q % 2
    else q
  | .draw r => if r % 2 ^ 32 < rem * 2 ^ 32 / 2 ^ s then q + 1 else q

/-- The exponent of the unit in the last place of m * 2^e in a grid with P mantissa bits from EMIN (R254). -/
def ulpExp (p : Nat) (emin : Int) (m : Nat) (e : Int) : Int := max ((Nat.log2 m : Int) + e) emin - (p : Int)

/-- m * 2^e rounded to a grid whose unit is 2^t: the integer multiple. -/
def roundAt (rn : Rounding) (m : Nat) (e t : Int) : Nat :=
  if t ≤ e then m <<< (e - t).toNat else roundShift rn m (t - e).toNat

/-- The pattern of q * 2^t in a format, where q * 2^t lies on the format's grid and within its range. -/
def fpack (code : Nat) (neg : Bool) (q : Nat) (t : Int) : Nat :=
  let f := ffmt code
  let s := if neg then 2 ^ (f.eb + f.p) else 0
  if q = 0 then s
  else
    let e := (Nat.log2 q : Int) + t
    if e < f.emin then s + q
    else s + (e + (f.bias : Int)).toNat * 2 ^ f.p +
      ((if Nat.log2 q ≤ f.p then q <<< (f.p - Nat.log2 q) else q >>> (Nat.log2 q - f.p)) - 2 ^ f.p)

/-- An exact value rounded into FP32, FP16 or BF16 (R255): to nearest even, beyond the range an infinity, NaN canonical.
A NaN or infinity in another format is handled by `narrowTo`. -/
def fencode (code : Nat) (v : FVal) : Nat :=
  let f := ffmt code
  match v with
  | .nan => fnan code
  | .inf neg => (if neg then 2 ^ (f.eb + f.p) else 0) + (2 ^ f.eb - 1) * 2 ^ f.p
  | .fin neg m e =>
    if m = 0 then fpack code neg 0 0
    else
      let t := ulpExp f.p f.emin m e
      let q := roundAt .nearest m e t
      if magLt (fmax code).1 (fmax code).2 q t then
        (if neg then 2 ^ (f.eb + f.p) else 0) + (2 ^ f.eb - 1) * 2 ^ f.p
      else fpack code neg q t

/-- The value of an FP32 lane. -/
def valOf (a : Lane) : FVal := fdecode 0 a.toNat

/-- An exact value rounded to an FP32 lane (R325: canonical NaN 0x7FC0_0000). -/
def toLane (v : FVal) : Lane := BitVec.ofNat 32 (fencode 0 v)

/-- The canonical NaN. -/
def nanLane : Lane := 0x7FC0_0000

/-- Whether a lane is NaN, infinite, finite. -/
def isNanL (a : Lane) : Bool := valOf a == .nan

/-- See `isNanL`. -/
def isFinL (a : Lane) : Bool :=
  match valOf a with
  | .fin _ _ _ => true
  | _ => false

/-- The exact sum of two finite values; a sum of zero is negative only when both addends are negative zeros. -/
def finAdd (n1 : Bool) (m1 : Nat) (e1 : Int) (n2 : Bool) (m2 : Nat) (e2 : Int) : FVal :=
  let lo := min e1 e2
  let a : Int := (if n1 then -1 else 1) * (alignTo m1 e1 lo : Int)
  let b : Int := (if n2 then -1 else 1) * (alignTo m2 e2 lo : Int)
  let s := a + b
  if s = 0 then .fin (n1 && n2) 0 lo else .fin (decide (s < 0)) s.natAbs lo

/-- Exact addition of values (IEEE 754). -/
def vAdd (x y : FVal) : FVal :=
  match x, y with
  | .nan, _ => .nan
  | _, .nan => .nan
  | .inf a, .inf b => if a = b then .inf a else .nan
  | .inf a, _ => .inf a
  | _, .inf b => .inf b
  | .fin n1 m1 e1, .fin n2 m2 e2 => finAdd n1 m1 e1 n2 m2 e2

/-- Exact multiplication of values. -/
def vMul (x y : FVal) : FVal :=
  match x, y with
  | .nan, _ => .nan
  | _, .nan => .nan
  | .inf a, .inf b => .inf (a != b)
  | .inf a, .fin b m _ => if m = 0 then .nan else .inf (a != b)
  | .fin a m _, .inf b => if m = 0 then .nan else .inf (a != b)
  | .fin a m1 e1, .fin b m2 e2 => .fin (a != b) (m1 * m2) (e1 + e2)

/-- The value with its sign turned. -/
def vNeg (x : FVal) : FVal :=
  match x with
  | .nan => .nan
  | .inf a => .inf (!a)
  | .fin a m e => .fin (!a) m e

/-- Integer square root by bits: the largest s with s * s at most n, found from bit `k` - 1 downward. -/
def isqrtBits (n : Nat) : Nat → Nat → Nat
  | 0, acc => acc
  | k + 1, acc => isqrtBits n k (if (acc + 2 ^ k) * (acc + 2 ^ k) ≤ n then acc + 2 ^ k else acc)

/-- Integer square root. -/
def isqrt (n : Nat) : Nat := isqrtBits n (Nat.log2 n / 2 + 1) 0

/-- The quotient of two values, correct in its first 70 bits with a sticky bit, so that one rounding of it is the
correctly rounded quotient. -/
def vDiv (x y : FVal) : FVal :=
  match x, y with
  | .nan, _ => .nan
  | _, .nan => .nan
  | .inf _, .inf _ => .nan
  | .inf a, .fin b _ _ => .inf (a != b)
  | .fin a _ _, .inf b => .fin (a != b) 0 0
  | .fin a m1 e1, .fin b m2 e2 =>
    if m2 = 0 then (if m1 = 0 then .nan else .inf (a != b))
    else
      let n := m1 <<< 70
      .fin (a != b) (2 * (n / m2) + (if n % m2 = 0 then 0 else 1)) (e1 - e2 - 71)

/-- The square root of a value with a sticky bit; the root of a negative non-zero value is NaN. -/
def vSqrt (x : FVal) : FVal :=
  match x with
  | .nan => .nan
  | .inf a => if a then .nan else .inf false
  | .fin a m e =>
    if m = 0 then .fin a 0 0
    else if a then .nan
    else
      let k : Int := (e - 60) / 2
      let n := m <<< (e - 2 * k).toNat
      let s := isqrt n
      .fin false (2 * s + (if s * s = n then 0 else 1)) (k - 1)

/-- FP32 addition, rounded to nearest even (R325). -/
def fAdd (a b : Lane) : Lane := toLane (vAdd (valOf a) (valOf b))

/-- FP32 subtraction. -/
def fSub (a b : Lane) : Lane := toLane (vAdd (valOf a) (vNeg (valOf b)))

/-- FP32 multiplication. -/
def fMul (a b : Lane) : Lane := toLane (vMul (valOf a) (valOf b))

/-- FP32 fused multiply-add a * b + c, rounded once. -/
def fFma (a b c : Lane) : Lane := toLane (vAdd (vMul (valOf a) (valOf b)) (valOf c))

/-- FP32 division. -/
def fDiv (a b : Lane) : Lane := toLane (vDiv (valOf a) (valOf b))

/-- FP32 square root. -/
def fSqrt (a : Lane) : Lane := toLane (vSqrt (valOf a))

/-- FP32 less-than; false when either is NaN. -/
def fLt (a b : Lane) : Bool :=
  match valOf a, valOf b with
  | .nan, _ => false
  | _, .nan => false
  | .inf x, .inf y => x && !y
  | .inf x, .fin _ _ _ => x
  | .fin _ _ _, .inf y => !y
  | .fin n1 m1 e1, .fin n2 m2 e2 =>
    let lo := min e1 e2
    let x : Int := (if n1 then -1 else 1) * (alignTo m1 e1 lo : Int)
    let y : Int := (if n2 then -1 else 1) * (alignTo m2 e2 lo : Int)
    decide (x < y)

/-- FP32 equality as numbers; false when either is NaN. -/
def fEq (a b : Lane) : Bool := !isNanL a && !isNanL b && !fLt a b && !fLt b a

/-- The absolute value of a lane. -/
def fAbs (a : Lane) : Lane := a &&& 0x7FFF_FFFF

/-- The lane with its sign turned. -/
def fNeg (a : Lane) : Lane := a ^^^ 0x8000_0000

/-- A BF16 pattern widened to FP32 (R255). -/
def ofBf16 (w : Nat) : Lane := toLane (fdecode 2 w)

/-- An FP32 lane narrowed to BF16 (R255). -/
def toBf16 (a : Lane) : Nat := fencode 2 (valOf a)

/-- The FP32 value of a natural number, rounded to nearest even. -/
def ofNatL (n : Nat) : Lane := toLane (.fin false n 0)

/-- The FP32 value of an integer, rounded to nearest even. -/
def ofIntL (n : Int) : Lane := toLane (.fin (decide (n < 0)) n.natAbs 0)

/-- The exact value of one element of a record by its format code: floating point, or INT8, INT32, INT64 and unsigned
codes as integers; `x` is the block's scale byte, 127 where the record has none (R257). -/
def elemVal (code w x : Nat) : FVal :=
  let v : FVal :=
    match code with
    | 6 => .fin (decide (signedOf 8 w < 0)) (signedOf 8 w).natAbs 0
    | 7 => .fin (decide (signedOf 32 w < 0)) (signedOf 32 w).natAbs 0
    | 8 => .fin (decide (signedOf 64 w < 0)) (signedOf 64 w).natAbs 0
    | 9 => .fin false 1 ((w % 256 : Nat) - (127 : Int))
    | 10 => .fin false (w % 16) 0
    | 11 => .fin false (w % 256) 0
    | _ => fdecode code w
  match v with
  | .fin n m e => .fin n m (e + (x : Int) - 127)
  | o => o

/-! ## Narrowing (R259 to R264) -/

/-- floor(log2 |x|) of a non-zero finite lane. -/
def log2L (a : Lane) : Int :=
  match valOf a with
  | .fin _ m e => (Nat.log2 m : Int) + e
  | _ => 0

/-- The starting scale X0 of a block (R259). -/
def scaleX0 (code headroom : Nat) (xs : List Lane) : Nat :=
  let fins := (xs.filter isFinL).map fAbs
  let amax := fins.foldl (fun m a => if m.toNat < a.toNat then a else m) (0 : Lane)
  if amax = 0 then 127
  else (min (max (log2L amax - femax code + (headroom : Int) + 127) 0) 254).toNat

/-- One element narrowed at scale byte `x` (R263, R264): `none` when it overflows. The format is FP8, FP4 or INT8. -/
def narrowTo (code : Nat) (rn : Rounding) (x : Nat) (a : Lane) : Option Nat :=
  let f := ffmt code
  match valOf a with
  | .nan => if code = 3 ∨ code = 4 then some (fnan code) else none
  | .inf neg => if code = 4 then some (fencode 4 (.inf neg)) else none
  | .fin neg m e0 =>
    let e := e0 + 127 - (x : Int)
    if code = 6 then
      let q := if m = 0 then 0 else roundAt rn m e 0
      if 127 < q then none else some (if neg then (256 - q) % 256 else q)
    else if m = 0 then some (fpack code neg 0 0)
    else
      let t := ulpExp f.p f.emin m e
      let q := roundAt rn m e t
      if magLt (fmax code).1 (fmax code).2 q t then none else some (fpack code neg q t)

/-- Whether a narrow pattern is a zero. -/
def isZeroPat (code w : Nat) : Bool :=
  match elemVal code w 127 with
  | .fin _ m _ => m == 0
  | _ => false

/-- What the ladder of R264 made of a block: the patterns and their scale byte, or a fallback; which attempts overflowed
and how many finite non-zero elements became zeros. -/
structure Narrowed where
  pats : Option (List Nat)
  scale : Nat
  x0 : Nat
  retry1 : Bool
  retry2 : Bool
  zeros : Nat
  deriving DecidableEq, Repr

/-- One attempt of the ladder: every element at one scale, by its own rounding. -/
def narrowAll (code x : Nat) (xs : List (Rounding × Lane)) : Option (List Nat) :=
  xs.foldr (fun p acc => match narrowTo code p.1 x p.2, acc with
    | some w, some ws => some (w :: ws)
    | _, _ => none) (some [])

/-- The overflow ladder (R264) from starting scale X0. -/
def ladderFrom (code x0 : Nat) (xs : List (Rounding × Lane)) : Narrowed :=
  let done := fun (x : Nat) (ws : List Nat) (r1 r2 : Bool) =>
    ({ pats := some ws, scale := x, x0 := x0, retry1 := r1, retry2 := r2,
       zeros := ((xs.zip ws).filter fun p => isFinL p.1.2 && fAbs p.1.2 != 0 && isZeroPat code p.2).length } : Narrowed)
  let fall := fun (r1 r2 : Bool) =>
    ({ pats := none, scale := 0xFF, x0 := x0, retry1 := r1, retry2 := r2, zeros := 0 } : Narrowed)
  match narrowAll code x0 xs with
  | some ws => done x0 ws false false
  | none =>
    if 254 < x0 + 1 then fall true false
    else match narrowAll code (x0 + 1) xs with
      | some ws => done (x0 + 1) ws true false
      | none =>
        if 254 < x0 + 2 then fall true true
        else match narrowAll code (x0 + 2) xs with
          | some ws => done (x0 + 2) ws true true
          | none => fall true true

/-- A block narrowed by its recipe (R259, R264). -/
def ladder (code headroom : Nat) (xs : List (Rounding × Lane)) : Narrowed :=
  ladderFrom code (scaleX0 code headroom (xs.map (·.2))) xs

/-! ## Stochastic draws (R276) -/

/-- The draw r = G(S, c) of R276. -/
def drawG (s c : Word) : Word :=
  let z0 := s + (c + 1) * 0x9E37_79B9_7F4A_7C15
  let z1 := (z0 ^^^ (z0 >>> 30)) * 0xBF58_476D_1CE4_E5B9
  let z2 := (z1 ^^^ (z1 >>> 27)) * 0x94D0_49BB_1331_11EB
  z2 ^^^ (z2 >>> 31)

/-! ## The Lining (R279 to R281) -/

/-- The number of mantissa bits and EMIN that ulp(q) takes in a format of the Lining: BF16 or E4M3 (R279, R280). -/
def liningUlp (code : Nat) (m : Nat) (e : Int) : Int := ulpExp (ffmt code).p (ffmt code).emin m e

/-- The FP32 value of an element pattern with Lining `l` of `b` bits at scale byte `x` (R279, R280). -/
def unline (code b x w l : Nat) : Lane :=
  match fdecode code w with
  | .fin neg m e =>
    let u := ulpExp (ffmt code).p (ffmt code).emin m e
    let lo := min e (u - (b : Int))
    toLane (.fin neg (alignTo m e lo + alignTo l (u - (b : Int)) lo) (lo + (x : Int) - 127))
  | v => toLane v

/-- One step of the ulp away from zero: the pattern above in magnitude. -/
def stepAway (w : Nat) : Nat := w + 1

/-- One element in Lining mode at scale byte `x` (R281): its pattern and Lining, `none` when the pattern overflows. BF16
takes x = 127. -/
def lineTo (code b : Nat) (rn : Rounding) (x : Nat) (a : Lane) : Option (Nat × Nat) :=
  match valOf a with
  | .fin neg m e0 =>
    if m = 0 then some (fpack code neg 0 0, 0)
    else
      let f := ffmt code
      let e := e0 + 127 - (x : Int)
      let t := ulpExp f.p f.emin m e
      let q := roundAt .trunc m e t
      let lo := min e t
      let rest := alignTo m e lo - alignTo q t lo
      let l := roundAt rn rest lo (t - (b : Int))
      if magLt (fmax code).1 (fmax code).2 q t then none
      else if l = 2 ^ b then
        (if magLt (fmax code).1 (fmax code).2 (q + 1) t then none else some (fpack code neg (q + 1) t, 0))
      else some (fpack code neg q t, l)
  | .nan => if code = 5 ∨ code = 6 then none else some (fnan code, 0)
  | .inf neg => if code = 3 then none else some (fencode code (.inf neg), 0)

/-! ## Sampled checks (R273) -/

/-- One element of the sampled check: the wide value and the widened narrow value. The sums stay as they are for a
value that is not finite in BF16. -/
def checkStep (acc : Option (Lane × Lane)) (p : Lane × Lane) : Option (Lane × Lane) :=
  match acc with
  | none => none
  | some (num, den) =>
    let b := ofBf16 (toBf16 p.1)
    if !isFinL b then some (num, den)
    else if !isFinL p.2 then none
    else some (fAdd num (fAbs (fSub p.2 b)), fAdd den (fAbs b))

/-- The error e of a unit (R273). -/
def checkError (xs : List (Lane × Lane)) : Lane :=
  match xs.foldl checkStep (some (0, 0)) with
  | none => 0x7F80_0000
  | some (num, den) => if fAbs den = 0 then 0 else fDiv num den

end Sys2Proof.Machine
end

