-- ==== Sys2Proof/Machine/Approx.lean ====
section
/-! DEFINITION. The functions that the spec fixes to within 2 FP32 ulp without giving their bits (R126, R149, R150, R290, R297 to R299):
each is computed here in fixed point far beyond FP32, and its result is a free value held to 2 ulp of that. -/

namespace Sys2Proof.Machine

/-! ## Fixed point -/

/-- 1 in fixed point: a number is an integer in units of 2^-200, where the finest FP32 unit is 2^-149. -/
def fxOne : Int := 2 ^ 200

/-- The fixed-point value of a finite FP32 lane, which is exact; zero for any other. -/
def fxOf (a : Lane) : Int :=
  match valOf a with
  | .fin neg m e => let v : Int := ((m <<< (e + 200).toNat : Nat) : Int)
                    if neg then -v else v
  | _ => 0

/-- A product, rounded down. -/
def fxMul (a b : Int) : Int := a * b / fxOne

/-- A quotient, rounded down. -/
def fxDiv (a b : Int) : Int := a * fxOne / b

/-- The FP32 lane nearest to a fixed-point value. -/
def fxLane (y : Int) : Lane := toLane (.fin (decide (y < 0)) y.natAbs (-200))

/-- Constants: ln 2, log2 e, sqrt(2/pi), 2/sqrt(pi), 1/sqrt(2) and 1/sqrt(2 pi). -/
def fxLn2 : Int := 0xb17217f7d1cf79abc9e3b39803f2f6af40f343267298b62d8a

/-- See `fxLn2`. -/
def fxLog2e : Int := 0x171547652b82fe1777d0ffda0d23a7d11d6aef551bad2b4b116

/-- See `fxLn2`. -/
def fxSqrt2Pi : Int := 0xcc42299ea1b284687e59e2805d5c717fa7053e60a24e0db181

/-- See `fxLn2`. -/
def fxTwoSqrtPi : Int := 0x120dd750429b6d11ae3a914fed7fd8688281341d7587cea2e73

/-- See `fxLn2`. -/
def fxInvSqrt2 : Int := 0xb504f333f9de6484597d89b3754abe9f1d6f60ba893ba84ced

/-- See `fxLn2`. -/
def fxInvSqrt2Pi : Int := 0x662114cf50d942343f2cf1402eae38bfd3829f30512706d8c0

/-! ## The bound -/

/-- One FP32 unit in the last place at a fixed-point value. -/
def fxUlp (y : Int) : Int := if 2 ^ 74 ≤ y.natAbs then ((2 ^ (Nat.log2 y.natAbs - 23) : Nat) : Int) else 2 ^ 51

/-- Whether a lane is within 2 FP32 ulp of a value; 2^-20 ulp more allow for the fixed point's own error. An infinity counts as
2^128. -/
def within2 (v : Lane) (y : Int) : Bool :=
  let far := fun (x : Int) => decide ((2 ^ 21 + 1) * fxUlp y < 2 ^ 20 * ((x - y).natAbs : Int))
  match valOf v with
  | .nan => false
  | .inf neg => !far (if neg then -(2 ^ 328) else 2 ^ 328) || decide (if neg then y < -(2 ^ 328) else 2 ^ 328 < y)
  | .fin _ _ _ => !far (fxOf v)

/-- A free value held to 2 ulp of `y`: the value itself where it keeps the bound, else `y` rounded to nearest. -/
def bounded (v : Lane) (y : Int) : Lane := if within2 v y then v else fxLane y

/-! ## Elementary functions -/

/-- The exponential series by Horner's rule, from its `k`-th term inwards. -/
def expSeries (r : Int) : Nat → Int → Int
  | 0, acc => acc
  | k + 1, acc => expSeries r k (fxOne + fxMul r acc / ((k + 1 : Nat) : Int))

/-- 2^x, for x beyond 400 in magnitude zero or 2^400. -/
def fxExp2 (x : Int) : Int :=
  if x < -(400 * fxOne) then 0
  else if 400 * fxOne < x then 2 ^ 600
  else
    let n := x / fxOne
    let y := expSeries (fxMul (x - n * fxOne) fxLn2) 50 fxOne
    if 0 ≤ n then y * 2 ^ n.toNat else y / 2 ^ (-n).toNat

/-- e^x. -/
def fxExp (x : Int) : Int := fxExp2 (fxMul x fxLog2e)

/-- The series of artanh over its odd powers, from its `k`-th term inwards. -/
def atanhSeries (z2 : Int) : Nat → Int → Int
  | 0, acc => acc
  | k + 1, acc => atanhSeries z2 k (fxOne / ((2 * k + 1 : Nat) : Int) + fxMul z2 acc)

/-- The natural logarithm of a positive value: that of its fraction in [1, 2), by 2 artanh((m - 1)/(m + 1)), and its exponent. -/
def lnParts (x : Int) : Int × Int :=
  let b := Nat.log2 x.natAbs
  let m : Int := if 200 ≤ b then x / 2 ^ (b - 200) else x * 2 ^ (200 - b)
  let z := fxDiv (m - fxOne) (m + fxOne)
  (2 * fxMul z (atanhSeries (fxMul z z) 70 0), (b : Int) - 200)

/-- ln x, for x > 0. -/
def fxLn (x : Int) : Int := let p := lnParts x; p.1 + p.2 * fxLn2

/-- log2 x, for x > 0. -/
def fxLog2 (x : Int) : Int := let p := lnParts x; fxMul p.1 fxLog2e + p.2 * fxOne

/-- The logistic function 1/(1 + e^-x). -/
def fxSigma (x : Int) : Int :=
  if x < -(250 * fxOne) then 0 else if 250 * fxOne < x then fxOne else fxDiv fxOne (fxOne + fxExp (-x))

/-- tanh x. -/
def fxTanh (x : Int) : Int := 2 * fxSigma (2 * x) - fxOne

/-- The series of erf over positive terms: t, then t * 2 z^2 / 3, and so on; `k` counts the terms done. -/
def erfSeries (z2 : Int) : Nat → Nat → Int → Int → Int
  | 0, _, _, sum => sum
  | f + 1, k, t, sum => erfSeries z2 f (k + 1) (fxMul t z2 / ((2 * k + 3 : Nat) : Int)) (sum + t)

/-- erf z for z at least zero; from 11 on its complement is below 2^-170 and counts as none. -/
def fxErf (z : Int) : Int :=
  if 11 * fxOne ≤ z then fxOne
  else
    let z2 := fxMul z z
    fxDiv (fxMul fxTwoSqrtPi (erfSeries (2 * z2) (60 + 4 * (z2 / fxOne).toNat) 0 z 0)) (fxExp z2)

/-- The normal distribution's Φ(x) = (1 + erf(x / sqrt 2)) / 2. -/
def fxPhi (x : Int) : Int :=
  let e := fxErf (fxMul (x.natAbs : Int) fxInvSqrt2)
  if x < 0 then (fxOne - e) / 2 else (fxOne + e) / 2

/-- The cosine's series in x^2 by Horner's rule. -/
def cosSeries (x2 : Int) : Nat → Int → Int
  | 0, acc => acc
  | k + 1, acc => cosSeries x2 k (fxOne - fxMul x2 acc / (((2 * k + 1) * (2 * k + 2) : Nat) : Int))

/-- cos x, for x of at most 8 in magnitude. -/
def fxCos (x : Int) : Int := cosSeries (fxMul x x) 60 fxOne

/-! ## The drain's functions (R126) and the derivatives (R150) -/

/-- The argument of the tanh form's tanh: sqrt(2/pi) (y + 0.044715 y^3). -/
def geluArg (y : Int) : Int := fxMul fxSqrt2Pi (y + fxMul (fxMul y y) y * 44715 / 1000000)

/-- FUNC 2 to 7 of the drain (R126). -/
def drainExact (f : Nat) (y : Int) : Int :=
  match f with
  | 2 => fxMul y (fxSigma (2 * geluArg y))
  | 3 => fxMul y (fxPhi y)
  | 4 => fxMul y (fxSigma y)
  | 5 => fxSigma y
  | 6 => fxTanh y
  | _ => fxLn (fxOne + fxExp y)

/-- DFUNC 2 to 7 of the fused derivative (R150). The second term of DFUNC 2 is 2 σ(2a) σ(-2a) x c (1 + 0.134145 x^2). -/
def derivExact (f : Nat) (x : Int) : Int :=
  match f with
  | 2 =>
    let a := 2 * geluArg x
    fxSigma a + fxMul (fxMul (fxMul (2 * fxSigma a) (fxSigma (-a))) (fxMul x fxSqrt2Pi)) (fxOne + fxMul x x * 134145 / 1000000)
  | 3 => fxPhi x + fxMul (fxMul x fxInvSqrt2Pi) (fxExp (-(fxMul x x) / 2))
  | 4 => fxMul (fxSigma x) (fxOne + fxMul x (fxSigma (-x)))
  | 5 => fxMul (fxSigma x) (fxSigma (-x))
  | 6 => fxMul (4 * fxSigma (2 * x)) (fxSigma (-(2 * x)))
  | _ => fxSigma x

/-- FUNC 2 to 7 of a finite value. -/
def drainFree (f : Nat) (y : Lane) : Lane := bounded (Config.drainFn f y) (drainExact f (fxOf y))

/-- DFUNC 2 to 7 of a finite value. -/
def derivFree (f : Nat) (x : Lane) : Lane := bounded (Config.derivFn f x) (derivExact f (fxOf x))

/-! ## Palm's and Band's functions (R290, R297 to R299) -/

/-- The exact value of VFN 1 rsqrt, 2 rcp, 3 exp2, 4 log2 and 9 exp, where it is a finite number. -/
def palmExact (f : Nat) (x : Int) : Option Int :=
  match f with
  | 1 => if 0 < x then some ((isqrt (2 ^ 600 / x.natAbs) : Nat) : Int) else none
  | 2 => if x = 0 then none else some (fxDiv fxOne x)
  | 3 => some (fxExp2 x)
  | 4 => if 0 < x then some (fxLog2 x) else none
  | _ => some (fxExp x)

/-- VFN 1, 2, 3, 4 and 9 (R290): within 2 ulp where the operand is finite and the function's value a finite number; a NaN gives a NaN,
as in every FP32 operation. DESIGN CHOICE (log entry 8): at an infinity and where the function has no finite value the spec states
no result, and it is free. -/
def palmFree (f : Nat) (a : Lane) : Lane :=
  match valOf a with
  | .nan => nanLane
  | .inf _ => Config.palmFn f a
  | .fin _ _ _ =>
    match palmExact f (fxOf a) with
    | some y => bounded (Config.palmFn f a) y
    | none => Config.palmFn f a

/-- The cosine of the schedule (R297), whose operand lies in 0 to pi. -/
def cosFree (a : Lane) : Lane :=
  if isFinL a = true ∧ (fxOf a).natAbs ≤ 8 * 2 ^ 200 then bounded (Config.cosFn a) (fxCos (fxOf a)) else Config.cosFn a

/-- GAMMA raised to an exponent of at least zero (R297), within 2 ulp. A power of 0 is 1, that of GAMMA = 0 too (log entry 8); GAMMA below
zero has powers of whole numbers. Free where that gives no number: GAMMA negative with an exponent not whole, or either not finite. -/
def powFree (g q : Lane) : Lane :=
  let x := fxOf g
  let y := fxOf q
  if isFinL g = false ∨ isFinL q = false ∨ y < 0 ∨ (x < 0 ∧ y % fxOne ≠ 0) then Config.powFn g q
  else if y = 0 then bounded (Config.powFn g q) fxOne
  else if x = 0 then bounded (Config.powFn g q) 0
  else
    let p := fxExp (fxMul y (fxLn (x.natAbs : Int)))
    bounded (Config.powFn g q) (if x < 0 ∧ y / fxOne % 2 = 1 then -p else p)

/-- λ of a step for 0 < ηWD < 1 (R298): -log2(1 - ηWD) within 2 ulp, in units of 2^-40 and rounded to an integer; from 0.5 on without
the bound. -/
def lambdaFree (a : Lane) : Word :=
  let v := Config.lambdaOf a
  let y := -(fxLog2 (fxOne - fxOf a))
  if fxOne ≤ 2 * fxOf a then v
  else
    let off := ((v.toNat : Int) * fxOne - y * 2 ^ 40).natAbs
    if (off : Int) * 2 ^ 20 ≤ (2 ^ 21 + 1) * fxUlp y * 2 ^ 40 + 2 ^ 219 then v
    else BitVec.ofInt 64 ((y * 2 ^ 40 + 2 ^ 199) / fxOne)

/-- The decay factor of an owed sum (R299): exp2(-v 2^-40) within 2 ulp. -/
def factorFree (v : Nat) : Lane := bounded (Config.decayFactor v) (fxExp2 (-((v : Int) * 2 ^ 160)))

end Sys2Proof.Machine
end

