-- ==== Sys2Proof/Machine/Hash.lean ====
section
/-! DEFINITION. The codes and hashes that the spec names: CRC-32 (IEEE 802.3), CRC-16 (polynomial 0x1021, R375),
SHA-512 (FIPS 180-4) and RSASSA-PSS with SHA-512 and MGF1 (PKCS #1 v2.2, R491). -/

namespace Sys2Proof.Machine

/-! ## CRC -/

/-- One bit of the CRC-32 of IEEE 802.3, least significant bit first. -/
def crc32Bit (c : BitVec 32) : BitVec 32 := if c.getLsbD 0 then (c >>> 1) ^^^ 0xEDB8_8320 else c >>> 1

/-- One byte of the CRC-32. -/
def crc32Byte (c : BitVec 32) (b : Byte) : BitVec 32 :=
  crc32Bit (crc32Bit (crc32Bit (crc32Bit (crc32Bit (crc32Bit (crc32Bit (crc32Bit (c ^^^ b.setWidth 32))))))))

/-- CRC-32 of bytes (IEEE 802.3 polynomial, with its initial value and final inversion). -/
def crc32 (bs : List Byte) : Nat := ((bs.foldl crc32Byte 0xFFFF_FFFF) ^^^ 0xFFFF_FFFF).toNat

/-- One bit of the CRC-16 of R375, most significant bit first. -/
def crc16Bit (c : BitVec 16) : BitVec 16 := if c.getLsbD 15 then (c <<< 1) ^^^ 0x1021 else c <<< 1

/-- One byte of the CRC-16. -/
def crc16Byte (c : BitVec 16) (b : Byte) : BitVec 16 :=
  crc16Bit (crc16Bit (crc16Bit (crc16Bit (crc16Bit (crc16Bit (crc16Bit (crc16Bit (c ^^^ (b.setWidth 16 <<< 8)))))))))

/-- CRC-16, polynomial 0x1021, initial value 0xFFFF (R375). -/
def crc16 (bs : List Byte) : Nat := (bs.foldl crc16Byte 0xFFFF).toNat

/-! ## SHA-512 -/

/-- The initial hash value (FIPS 180-4, 5.3.5). -/
def shaInit : List (BitVec 64) := [0x6A09E667F3BCC908, 0xBB67AE8584CAA73B, 0x3C6EF372FE94F82B, 0xA54FF53A5F1D36F1, 0x510E527FADE682D1, 0x9B05688C2B3E6C1F, 0x1F83D9ABFB41BD6B, 0x5BE0CD19137E2179]

/-- The round constants (FIPS 180-4, 4.2.3), in two halves. -/
def shaK0 : List (BitVec 64) :=
  [
    0x428A2F98D728AE22, 0x7137449123EF65CD, 0xB5C0FBCFEC4D3B2F, 0xE9B5DBA58189DBBC,
    0x3956C25BF348B538, 0x59F111F1B605D019, 0x923F82A4AF194F9B, 0xAB1C5ED5DA6D8118,
    0xD807AA98A3030242, 0x12835B0145706FBE, 0x243185BE4EE4B28C, 0x550C7DC3D5FFB4E2,
    0x72BE5D74F27B896F, 0x80DEB1FE3B1696B1, 0x9BDC06A725C71235, 0xC19BF174CF692694,
    0xE49B69C19EF14AD2, 0xEFBE4786384F25E3, 0x0FC19DC68B8CD5B5, 0x240CA1CC77AC9C65,
    0x2DE92C6F592B0275, 0x4A7484AA6EA6E483, 0x5CB0A9DCBD41FBD4, 0x76F988DA831153B5,
    0x983E5152EE66DFAB, 0xA831C66D2DB43210, 0xB00327C898FB213F, 0xBF597FC7BEEF0EE4,
    0xC6E00BF33DA88FC2, 0xD5A79147930AA725, 0x06CA6351E003826F, 0x142929670A0E6E70,
    0x27B70A8546D22FFC, 0x2E1B21385C26C926, 0x4D2C6DFC5AC42AED, 0x53380D139D95B3DF,
    0x650A73548BAF63DE, 0x766A0ABB3C77B2A8, 0x81C2C92E47EDAEE6, 0x92722C851482353B]

/-- See `shaK0`. -/
def shaK1 : List (BitVec 64) :=
  [
    0xA2BFE8A14CF10364, 0xA81A664BBC423001, 0xC24B8B70D0F89791, 0xC76C51A30654BE30,
    0xD192E819D6EF5218, 0xD69906245565A910, 0xF40E35855771202A, 0x106AA07032BBD1B8,
    0x19A4C116B8D2D0C8, 0x1E376C085141AB53, 0x2748774CDF8EEB99, 0x34B0BCB5E19B48A8,
    0x391C0CB3C5C95A63, 0x4ED8AA4AE3418ACB, 0x5B9CCA4F7763E373, 0x682E6FF3D6B2B8A3,
    0x748F82EE5DEFB2FC, 0x78A5636F43172F60, 0x84C87814A1F0AB72, 0x8CC702081A6439EC,
    0x90BEFFFA23631E28, 0xA4506CEBDE82BDE9, 0xBEF9A3F7B2C67915, 0xC67178F2E372532B,
    0xCA273ECEEA26619C, 0xD186B8C721C0C207, 0xEADA7DD6CDE0EB1E, 0xF57D4F7FEE6ED178,
    0x06F067AA72176FBA, 0x0A637DC5A2C898A6, 0x113F9804BEF90DAE, 0x1B710B35131C471B,
    0x28DB77F523047D84, 0x32CAAB7B40C72493, 0x3C9EBE0A15C9BEBC, 0x431D67C49C100D4C,
    0x4CC5D4BECB3E42B6, 0x597F299CFC657E2A, 0x5FCB6FAB3AD6FAEC, 0x6C44198C4A475817]

/-- Rotation to the right. -/
def ror (x : BitVec 64) (n : Nat) : BitVec 64 := x.rotateRight n

/-- The message schedule's next word, given the last sixteen with the oldest first. -/
def shaNext (w : List (BitVec 64)) : BitVec 64 :=
  let a := w.getD 1 0
  let b := w.getD 14 0
  (ror b 19 ^^^ ror b 61 ^^^ (b >>> 6)) + w.getD 9 0 + (ror a 1 ^^^ ror a 8 ^^^ (a >>> 7)) + w.getD 0 0

/-- The eight working variables. -/
structure ShaVars where
  a : BitVec 64
  b : BitVec 64
  c : BitVec 64
  d : BitVec 64
  e : BitVec 64
  f : BitVec 64
  g : BitVec 64
  h : BitVec 64

/-- One round with its constant and schedule word. -/
def shaRound (v : ShaVars) (k w : BitVec 64) : ShaVars :=
  let t1 := v.h + (ror v.e 14 ^^^ ror v.e 18 ^^^ ror v.e 41) + ((v.e &&& v.f) ^^^ (~~~v.e &&& v.g)) + k + w
  let t2 := (ror v.a 28 ^^^ ror v.a 34 ^^^ ror v.a 39) + ((v.a &&& v.b) ^^^ (v.a &&& v.c) ^^^ (v.b &&& v.c))
  { a := t1 + t2, b := v.a, c := v.b, d := v.c, e := v.d + t1, f := v.e, g := v.f, h := v.g }

/-- The rounds over a list of constants, with the sixteen schedule words that come next. -/
def shaRounds : List (BitVec 64) → List (BitVec 64) → ShaVars → ShaVars
  | [], _, v => v
  | k :: ks, w, v => shaRounds ks (w.drop 1 ++ [shaNext w]) (shaRound v k (w.getD 0 0))

/-- A block of 128 bytes as sixteen words, most significant byte first. -/
def shaWords (bs : List Byte) : List (BitVec 64) :=
  (List.range 16).map fun i => BitVec.ofNat 64 (beNat (bytesAt bs (8 * i) 8))

/-- One 128-byte block. -/
def shaBlock (h : List (BitVec 64)) (bs : List Byte) : List (BitVec 64) :=
  let x := fun i => h.getD i 0
  let v := shaRounds (shaK0 ++ shaK1) (shaWords bs)
    { a := x 0, b := x 1, c := x 2, d := x 3, e := x 4, f := x 5, g := x 6, h := x 7 }
  [x 0 + v.a, x 1 + v.b, x 2 + v.c, x 3 + v.d, x 4 + v.e, x 5 + v.f, x 6 + v.g, x 7 + v.h]

/-- The blocks of a padded message in turn. -/
def shaBlocks (fuel : Nat) (h : List (BitVec 64)) (bs : List Byte) : List (BitVec 64) :=
  match fuel with
  | 0 => h
  | n + 1 => if bs.isEmpty then h else shaBlocks n (shaBlock h (bs.take 128)) (bs.drop 128)

/-- SHA-512 of bytes, as 64 octets. -/
def sha512 (bs : List Byte) : List Byte :=
  let n := bs.length
  let m := bs ++ (0x80 : Byte) :: List.replicate (roundUp (n + 17) 128 - (n + 17)) 0 ++ beBytes 16 (8 * n)
  (shaBlocks (m.length / 128 + 1) shaInit m).flatMap fun w => beBytes 8 w.toNat

/-! ## RSASSA-PSS (R491) -/

/-- b ^ e mod n for an exponent of at most `fuel` bits. -/
def powMod (fuel b e n : Nat) : Nat :=
  match fuel with
  | 0 => 1 % n
  | f + 1 =>
    if e = 0 then 1 % n
    else
      let h := powMod f (b * b % n) (e / 2) n
      if e % 2 = 1 then b * h % n else h

/-- MGF1 with SHA-512: the first `len` octets of the hashes of seed and counter. -/
def mgf1 (seed : List Byte) (len : Nat) : List Byte :=
  ((List.range (ceilDiv len 64)).flatMap fun i => sha512 (seed ++ beBytes 4 i)).take len

/-- Two octet strings combined by exclusive or. -/
def xorBytes (a b : List Byte) : List Byte := List.zipWith (· ^^^ ·) a b

/-- Octets of the encoded message for a modulus: the modulus bits less one, in octets. -/
def emLen (n : Nat) : Nat := ceilDiv (Nat.log2 n) 8

/-- The octet string with the leftmost bits beyond the modulus cleared. -/
def clearTop (n : Nat) (db : List Byte) : List Byte :=
  match db with
  | [] => []
  | b :: r => (b &&& BitVec.ofNat 8 (0xFF >>> (8 * emLen n - Nat.log2 n))) :: r

/-- RSASSA-PSS verification of a 512-octet signature with a 64-octet salt, public exponent 65,537 (R491). -/
def pssVerify (n : Nat) (mHash sig : List Byte) : Bool :=
  let s := beNat sig
  if n < 2 ^ 4095 ∨ n ≤ s ∨ sig.length ≠ 512 then false
  else
    let len := emLen n
    let em := beBytes len (powMod 20 s 65537 n)
    let maskedDb := em.take (len - 65)
    let h := (em.drop (len - 65)).take 64
    let db := clearTop n (xorBytes maskedDb (mgf1 h (len - 65)))
    let salt := db.drop (len - 129)
    (em.getLast?.getD 0 == 0xBC) && (clearTop n maskedDb == maskedDb) &&
      (db.take (len - 129) == List.replicate (len - 130) 0 ++ [1]) &&
      (sha512 (List.replicate 8 0 ++ mHash ++ salt) == h)

/-- RSASSA-PSS signing with a given salt and private exponent. -/
def pssSign (n d : Nat) (mHash salt : List Byte) : List Byte :=
  let len := emLen n
  let h := sha512 (List.replicate 8 0 ++ mHash ++ salt)
  let db := List.replicate (len - 130) (0 : Byte) ++ [1] ++ salt
  let em := clearTop n (xorBytes db (mgf1 h (len - 65))) ++ h ++ [0xBC]
  beBytes 512 (powMod 4100 (beNat em) d n)

end Sys2Proof.Machine
end

