-- ==== Sys2Proof/Machine/Regs.lean ====
section
/-! DEFINITION. The control space (R78, R79, R16): where every register lies, what it holds after reset, which of its
bits software can write, and which of its registers are counters. An offset is a byte offset from local address
0x7F0_0000_0000; the register tables of the chapters give each offset, reset value and access code. -/

namespace Sys2Proof.Machine

/-- The control window of logical tile `t` (R21). -/
def tileCtl (t : Nat) : Nat := 0x800_0000 + t * 0x1_0000

namespace Reg

/-- PAT_STATUS (R71). -/
def patStatus : Nat := 0x1_0000 + 0x0000
/-- PAT_SEQUENCE (R71). -/
def patSequence : Nat := 0x1_0000 + 0x0008
/-- SLOT_FAIL_A (R71). -/
def slotFailA : Nat := 0x1_0000 + 0x0010
/-- SLOT_FAIL_B (R71). -/
def slotFailB : Nat := 0x1_0000 + 0x0018
/-- EPOCH_CTRL (R71). -/
def epochCtrl : Nat := 0x1_0000 + 0x0020
/-- EPOCH_STATUS (R71). -/
def epochStatus : Nat := 0x1_0000 + 0x0028
/-- EPOCH_COUNT (R71). -/
def epochCount : Nat := 0x1_0000 + 0x0030
/-- CHAIN_VALID (R71). -/
def chainValid : Nat := 0x1_0000 + 0x0038
/-- PAT_HASH (R71). -/
def patHash (i : Nat) : Nat := 0x1_0000 + (0x0040 + i * 8)
/-- JOURNAL_STATUS (R71). -/
def journalStatus : Nat := 0x1_0000 + 0x0080
/-- JOURNAL_BAD (R71). -/
def journalBad : Nat := 0x1_0000 + 0x0088
/-- CAL_HASH (R71). -/
def calHash (i : Nat) : Nat := 0x1_0000 + (0x0090 + i * 8)
/-- CTX_CTRL_n (R75). -/
def ctxCtrl (t n : Nat) : Nat := tileCtl t + (0x0000 + n * 0x20)
/-- CTX_PC_n (R75). -/
def ctxPc (t n : Nat) : Nat := tileCtl t + (0x0008 + n * 0x20)
/-- CTX_ARG_n (R75). -/
def ctxArg (t n : Nat) : Nat := tileCtl t + (0x0010 + n * 0x20)
/-- CTX_STATUS_n (R75). -/
def ctxStatus (t n : Nat) : Nat := tileCtl t + (0x0018 + n * 0x20)
/-- SUBMIT_n (R75). -/
def submit (t n : Nat) : Nat := tileCtl t + (0x1000 + n * 0x40)
/-- MODULE_INFO (R108). -/
def moduleInfo : Nat := 0x0000
/-- MODULE_NO (R108). -/
def moduleNo : Nat := 0x0008
/-- ERRQ_LOST (R108). -/
def errqLost : Nat := 0x0010
/-- CANCELLED_COUNT (R108). -/
def cancelledCount : Nat := 0x0018
/-- STALE_GEN_COUNT (R108). -/
def staleGenCount : Nat := 0x0020
/-- GEN_DOMAIN_d (R108). -/
def genDomain (d : Nat) : Nat := 0x0100 + d * 8
/-- MITT_STATUS (R138). -/
def mittStatus (t : Nat) : Nat := tileCtl t + (0x2000 + (0x000))
/-- MITT_CTRL (R138). -/
def mittCtrl (t : Nat) : Nat := tileCtl t + (0x2000 + (0x008))
/-- MITT_ISSUE (R138). -/
def mittIssue (t : Nat) : Nat := tileCtl t + (0x2000 + (0x010))
/-- MITT_OPWAIT (R138). -/
def mittOpwait (t : Nat) : Nat := tileCtl t + (0x2000 + (0x018))
/-- MITT_SHWAIT (R138). -/
def mittShwait (t : Nat) : Nat := tileCtl t + (0x2000 + (0x020))
/-- MITT_MAC (R138). -/
def mittMac (t : Nat) : Nat := tileCtl t + (0x2000 + (0x028))
/-- MITT_ZSKIP (R138). -/
def mittZskip (t : Nat) : Nat := tileCtl t + (0x2000 + (0x030))
/-- MITT_PASSES (R138). -/
def mittPasses (t : Nat) : Nat := tileCtl t + (0x2000 + (0x038))
/-- MITT_MASK_PASSES (R138). -/
def mittMaskPasses (t : Nat) : Nat := tileCtl t + (0x2000 + (0x040))
/-- MITT_MASK_BAD (R138). -/
def mittMaskBad (t : Nat) : Nat := tileCtl t + (0x2000 + (0x048))
/-- MITT_MASK_FALLBACK (R138). -/
def mittMaskFallback (t : Nat) : Nat := tileCtl t + (0x2000 + (0x050))
/-- MITT_HALF_RATE (R138). -/
def mittHalfRate (t : Nat) : Nat := tileCtl t + (0x2000 + (0x058))
/-- MITT_NONFINITE (R138). -/
def mittNonfinite (t : Nat) : Nat := tileCtl t + (0x2000 + (0x060))
/-- MITT_SHARES (R138). -/
def mittShares (t : Nat) : Nat := tileCtl t + (0x2000 + (0x068))
/-- MITT_CANCELLED (R138). -/
def mittCancelled (t : Nat) : Nat := tileCtl t + (0x2000 + (0x070))
/-- CUFF_STATUS (R172). -/
def cuffStatus (t : Nat) : Nat := tileCtl t + (0x3000 + (0x000))
/-- CUFF_CTRL (R172). -/
def cuffCtrl (t : Nat) : Nat := tileCtl t + (0x3000 + (0x008))
/-- CUFF_FILLS (R172). -/
def cuffFills (t : Nat) : Nat := tileCtl t + (0x3000 + (0x010))
/-- CUFF_TRANSPOSED (R172). -/
def cuffTransposed (t : Nat) : Nat := tileCtl t + (0x3000 + (0x018))
/-- CUFF_WIDENED (R172). -/
def cuffWidened (t : Nat) : Nat := tileCtl t + (0x3000 + (0x020))
/-- CUFF_BYTES_IN (R172). -/
def cuffBytesIn (t : Nat) : Nat := tileCtl t + (0x3000 + (0x028))
/-- CUFF_BYTES_OUT (R172). -/
def cuffBytesOut (t : Nat) : Nat := tileCtl t + (0x3000 + (0x030))
/-- CUFF_HALF_RATE (R172). -/
def cuffHalfRate (t : Nat) : Nat := tileCtl t + (0x3000 + (0x038))
/-- CUFF_INPLACE_UNITS (R172). -/
def cuffInplaceUnits (t : Nat) : Nat := tileCtl t + (0x3000 + (0x040))
/-- CUFF_PACK_WORDS (R172). -/
def cuffPackWords (t : Nat) : Nat := tileCtl t + (0x3000 + (0x048))
/-- CUFF_PACK_STREAM (R172). -/
def cuffPackStream (t : Nat) : Nat := tileCtl t + (0x3000 + (0x050))
/-- CUFF_PACK_BAD (R172). -/
def cuffPackBad (t : Nat) : Nat := tileCtl t + (0x3000 + (0x058))
/-- CUFF_DERIV (R172). -/
def cuffDeriv (t : Nat) : Nat := tileCtl t + (0x3000 + (0x060))
/-- CUFF_OPS (R172). -/
def cuffOps (t : Nat) : Nat := tileCtl t + (0x3000 + (0x068))
/-- CUFF_CANCELLED (R172). -/
def cuffCancelled (t : Nat) : Nat := tileCtl t + (0x3000 + (0x070))
/-- GLOVE_STATUS (R200). -/
def gloveStatus (t : Nat) : Nat := tileCtl t + (0x4000 + (0x000))
/-- GLOVE_CTRL (R200). -/
def gloveCtrl (t : Nat) : Nat := tileCtl t + (0x4000 + (0x008))
/-- GLOVE_WS (R200). -/
def gloveWs (t : Nat) : Nat := tileCtl t + (0x4000 + (0x010))
/-- TMAP_BASE_j (R200). -/
def tmapBase (t j : Nat) : Nat := tileCtl t + (0x4000 + (0x020 + j * 0x10))
/-- TMAP_ROWS_j (R200). -/
def tmapRows (t j : Nat) : Nat := tileCtl t + (0x4000 + (0x028 + j * 0x10))
/-- GLOVE_ENTRIES (R200). -/
def gloveEntries (t : Nat) : Nat := tileCtl t + (0x4000 + (0x060))
/-- GLOVE_GATHER_BYTES (R200). -/
def gloveGatherBytes (t : Nat) : Nat := tileCtl t + (0x4000 + (0x068))
/-- GLOVE_WRITE_BYTES (R200). -/
def gloveWriteBytes (t : Nat) : Nat := tileCtl t + (0x4000 + (0x070))
/-- GLOVE_SCATTER_BYTES (R200). -/
def gloveScatterBytes (t : Nat) : Nat := tileCtl t + (0x4000 + (0x078))
/-- GLOVE_RA_BYTES (R200). -/
def gloveRaBytes (t : Nat) : Nat := tileCtl t + (0x4000 + (0x080))
/-- GLOVE_RA_DISCARD (R200). -/
def gloveRaDiscard (t : Nat) : Nat := tileCtl t + (0x4000 + (0x088))
/-- GLOVE_SEGMENTS (R200). -/
def gloveSegments (t : Nat) : Nat := tileCtl t + (0x4000 + (0x090))
/-- GLOVE_STEALS (R200). -/
def gloveSteals (t : Nat) : Nat := tileCtl t + (0x4000 + (0x098))
/-- GLOVE_LONG_RUN (R200). -/
def gloveLongRun (t : Nat) : Nat := tileCtl t + (0x4000 + (0x0A0))
/-- GLOVE_PAD (R200). -/
def glovePad (t : Nat) : Nat := tileCtl t + (0x4000 + (0x0A8))
/-- GLOVE_IDX_RANGE (R200). -/
def gloveIdxRange (t : Nat) : Nat := tileCtl t + (0x4000 + (0x0B0))
/-- GLOVE_TOUCH_MARKS (R200). -/
def gloveTouchMarks (t : Nat) : Nat := tileCtl t + (0x4000 + (0x0B8))
/-- GLOVE_PRED_MISS (R200). -/
def glovePredMiss (t : Nat) : Nat := tileCtl t + (0x4000 + (0x0C0))
/-- GLOVE_PRED_WASTE (R200). -/
def glovePredWaste (t : Nat) : Nat := tileCtl t + (0x4000 + (0x0C8))
/-- GLOVE_OPS (R200). -/
def gloveOps (t : Nat) : Nat := tileCtl t + (0x4000 + (0x0D0))
/-- GLOVE_CANCELLED (R200). -/
def gloveCancelled (t : Nat) : Nat := tileCtl t + (0x4000 + (0x0D8))
/-- EXP_LOAD_BASE (R229). -/
def expLoadBase (t : Nat) : Nat := tileCtl t + (0x4000 + (0x100))
/-- EXP_CTRL (R229). -/
def expCtrl (t : Nat) : Nat := tileCtl t + (0x4000 + (0x108))
/-- EXP_TOKENS (R229). -/
def expTokens (t : Nat) : Nat := tileCtl t + (0x4000 + (0x110))
/-- EXP_ROUTES (R229). -/
def expRoutes (t : Nat) : Nat := tileCtl t + (0x4000 + (0x118))
/-- EXP_FULL (R229). -/
def expFull (t : Nat) : Nat := tileCtl t + (0x4000 + (0x120))
/-- EXP_PASS (R229). -/
def expPass (t : Nat) : Nat := tileCtl t + (0x4000 + (0x128))
/-- EXP_BAD_CHOICE (R229). -/
def expBadChoice (t : Nat) : Nat := tileCtl t + (0x4000 + (0x130))
/-- EXP_BAD_PLACE (R229). -/
def expBadPlace (t : Nat) : Nat := tileCtl t + (0x4000 + (0x138))
/-- EXP_EMPTY (R229). -/
def expEmpty (t : Nat) : Nat := tileCtl t + (0x4000 + (0x140))
/-- EXP_RETURN_ROWS (R229). -/
def expReturnRows (t : Nat) : Nat := tileCtl t + (0x4000 + (0x148))
/-- EXP_ANS_DROPPED (R229). -/
def expAnsDropped (t : Nat) : Nat := tileCtl t + (0x4000 + (0x150))
/-- EXP_SUM_TOKENS (R229). -/
def expSumTokens (t : Nat) : Nat := tileCtl t + (0x4000 + (0x158))
/-- PLACE_EPOCH (R230). -/
def placeEpoch : Nat := 0x0200
/-- PLACE_CTRL (R230). -/
def placeCtrl : Nat := 0x0208
/-- PLACE_STEP (R230). -/
def placeStep : Nat := 0x0210
/-- SIZER_STATUS (R252). -/
def sizerStatus (t : Nat) : Nat := tileCtl t + (0x5000 + (0x000))
/-- SIZER_CTRL (R252). -/
def sizerCtrl (t : Nat) : Nat := tileCtl t + (0x5000 + (0x008))
/-- SIZER_GROUP (R252). -/
def sizerGroup (t : Nat) : Nat := tileCtl t + (0x5000 + (0x010))
/-- SIZER_AREA (R252). -/
def sizerArea (t : Nat) : Nat := tileCtl t + (0x5000 + (0x018))
/-- SIZER_LAST (R252). -/
def sizerLast (t : Nat) : Nat := tileCtl t + (0x5000 + (0x020))
/-- SIZER_PLANS (R252). -/
def sizerPlans (t : Nat) : Nat := tileCtl t + (0x5000 + (0x028))
/-- SIZER_SHARES (R252). -/
def sizerShares (t : Nat) : Nat := tileCtl t + (0x5000 + (0x030))
/-- SIZER_KSPLIT (R252). -/
def sizerKsplit (t : Nat) : Nat := tileCtl t + (0x5000 + (0x038))
/-- SIZER_COMBINES (R252). -/
def sizerCombines (t : Nat) : Nat := tileCtl t + (0x5000 + (0x040))
/-- SIZER_SPILL_TILES (R252). -/
def sizerSpillTiles (t : Nat) : Nat := tileCtl t + (0x5000 + (0x048))
/-- SIZER_ROWGROUPS (R252). -/
def sizerRowgroups (t : Nat) : Nat := tileCtl t + (0x5000 + (0x050))
/-- SIZER_MCAST_FILLS (R252). -/
def sizerMcastFills (t : Nat) : Nat := tileCtl t + (0x5000 + (0x058))
/-- SIZER_AREA_WAIT (R252). -/
def sizerAreaWait (t : Nat) : Nat := tileCtl t + (0x5000 + (0x060))
/-- NUM_CTRL (R282). -/
def numCtrl : Nat := 0x0300
/-- NUM_THRESH (R282). -/
def numThresh : Nat := 0x0308
/-- NUM_FB_BASE (R282). -/
def numFbBase : Nat := 0x0310
/-- NUM_FB_SLOTS (R282). -/
def numFbSlots : Nat := 0x0318
/-- NUM_FB_NEXT (R282). -/
def numFbNext : Nat := 0x0320
/-- NUM_SR_JOB_SEED (R282). -/
def numSrJobSeed : Nat := 0x0328
/-- NUM_SR_STEP_SEED (R282). -/
def numSrStepSeed : Nat := 0x0330
/-- NUM_NARROW_BLOCKS (R282). -/
def numNarrowBlocks : Nat := 0x0338
/-- NUM_OVF_RETRY1 (R282). -/
def numOvfRetry1 : Nat := 0x0340
/-- NUM_OVF_RETRY2 (R282). -/
def numOvfRetry2 : Nat := 0x0348
/-- NUM_FALLBACK (R282). -/
def numFallback : Nat := 0x0350
/-- NUM_FB_LOST (R282). -/
def numFbLost : Nat := 0x0358
/-- NUM_FB_READS (R282). -/
def numFbReads : Nat := 0x0360
/-- NUM_UNDERFLOW (R282). -/
def numUnderflow : Nat := 0x0368
/-- NUM_CHECKS (R282). -/
def numChecks : Nat := 0x0370
/-- NUM_CHECK_EXCESS (R282). -/
def numCheckExcess : Nat := 0x0378
/-- NUM_CHECK_WORST (R282). -/
def numCheckWorst : Nat := 0x0380
/-- NUM_SR_DRAWS (R282). -/
def numSrDraws : Nat := 0x0388
/-- PALM_CTRL (R308). -/
def palmCtrl (t : Nat) : Nat := tileCtl t + (0x800 + (0x000))
/-- PALM_INSTR (R308). -/
def palmInstr (t : Nat) : Nat := tileCtl t + (0x800 + (0x008))
/-- PALM_VECTOR (R308). -/
def palmVector (t : Nat) : Nat := tileCtl t + (0x800 + (0x010))
/-- PALM_NARROW (R308). -/
def palmNarrow (t : Nat) : Nat := tileCtl t + (0x800 + (0x018))
/-- PALM_LINING (R308). -/
def palmLining (t : Nat) : Nat := tileCtl t + (0x800 + (0x020))
/-- PALM_SIGN_ELEMS (R308). -/
def palmSignElems (t : Nat) : Nat := tileCtl t + (0x800 + (0x028))
/-- PALM_TMNEXT_LINES (R308). -/
def palmTmnextLines (t : Nat) : Nat := tileCtl t + (0x800 + (0x030))
/-- PALM_WAIT_TCLK (R308). -/
def palmWaitTclk (t : Nat) : Nat := tileCtl t + (0x800 + (0x038))
/-- PALM_HALTS (R308). -/
def palmHalts (t : Nat) : Nat := tileCtl t + (0x800 + (0x040))
/-- BAND_CTRL (R309). -/
def bandCtrl : Nat := 0x6_0000 + 0x0000
/-- BAND_STATUS (R309). -/
def bandStatus : Nat := 0x6_0000 + 0x0008
/-- BAND_STEP (R309). -/
def bandStep : Nat := 0x6_0000 + 0x0010
/-- BAND_HIST_BASE (R309). -/
def bandHistBase : Nat := 0x6_0000 + 0x0018
/-- BAND_HIST_CTRL (R309). -/
def bandHistCtrl : Nat := 0x6_0000 + 0x0020
/-- BAND_BOUNDARIES (R309). -/
def bandBoundaries : Nat := 0x6_0000 + 0x0028
/-- BAND_GAP_LONG (R309). -/
def bandGapLong : Nat := 0x6_0000 + 0x0030
/-- BAND_GAP_BAD (R309). -/
def bandGapBad : Nat := 0x6_0000 + 0x0038
/-- BAND_SIGN_STEPS (R309). -/
def bandSignSteps : Nat := 0x6_0000 + 0x0040
/-- GRP_CTRL_g (R309). -/
def grpCtrl (g : Nat) : Nat := 0x6_0000 + (0x1000 + g * 0x80)
/-- GRP_LR_g (R309). -/
def grpLr (g : Nat) : Nat := 0x6_0000 + (0x1008 + g * 0x80)
/-- GRP_SPAN_g (R309). -/
def grpSpan (g : Nat) : Nat := 0x6_0000 + (0x1010 + g * 0x80)
/-- GRP_RESTART_g (R309). -/
def grpRestart (g : Nat) : Nat := 0x6_0000 + (0x1018 + g * 0x80)
/-- GRP_WD_g (R309). -/
def grpWd (g : Nat) : Nat := 0x6_0000 + (0x1020 + g * 0x80)
/-- GRP_COUNT_g (R309). -/
def grpCount (g : Nat) : Nat := 0x6_0000 + (0x1028 + g * 0x80)
/-- GRP_LAMBDA_g (R309). -/
def grpLambda (g : Nat) : Nat := 0x6_0000 + (0x1030 + g * 0x80)
/-- GRP_ETA_g (R309). -/
def grpEta (g : Nat) : Nat := 0x6_0000 + (0x1038 + g * 0x80)
/-- GRP_STATE_g (R309). -/
def grpState (g : Nat) : Nat := 0x6_0000 + (0x1040 + g * 0x80)
/-- GRP_ROOT_g (R309). -/
def grpRoot (g : Nat) : Nat := 0x6_0000 + (0x1048 + g * 0x80)
/-- ADD_CTRL (R341). -/
def addCtrl : Nat := 0x18_0000 + 0x000
/-- ADD_LINES (R341). -/
def addLines : Nat := 0x18_0000 + 0x008
/-- ADD_STAGED (R341). -/
def addStaged : Nat := 0x18_0000 + 0x010
/-- ADD_OVERFLOW (R341). -/
def addOverflow : Nat := 0x18_0000 + 0x018
/-- ADD_LATE (R341). -/
def addLate : Nat := 0x18_0000 + 0x020
/-- ADD_REFUSED (R341). -/
def addRefused : Nat := 0x18_0000 + 0x028
/-- ADD_NONFINITE (R341). -/
def addNonfinite : Nat := 0x18_0000 + 0x030
/-- ADD_BITSETS (R341). -/
def addBitsets : Nat := 0x18_0000 + 0x038
/-- ADD_UE (R341). -/
def addUe : Nat := 0x18_0000 + 0x040
/-- ADD_CHECK_FAIL (R341). -/
def addCheckFail : Nat := 0x18_0000 + 0x048
/-- WIN_BASE_n (R341). -/
def winBase (n : Nat) : Nat := 0x18_0000 + (0x100 + n * 0x40)
/-- WIN_SIZE_n (R341). -/
def winSize (n : Nat) : Nat := 0x18_0000 + (0x108 + n * 0x40)
/-- WIN_STAGE_BASE_n (R341). -/
def winStageBase (n : Nat) : Nat := 0x18_0000 + (0x110 + n * 0x40)
/-- WIN_STAGE_SIZE_n (R341). -/
def winStageSize (n : Nat) : Nat := 0x18_0000 + (0x118 + n * 0x40)
/-- WIN_CTRL_n (R341). -/
def winCtrl (n : Nat) : Nat := 0x18_0000 + (0x120 + n * 0x40)
/-- WIN_STATUS_n (R341). -/
def winStatus (n : Nat) : Nat := 0x18_0000 + (0x128 + n * 0x40)
/-- ADD_CH_STATUS (R342). -/
def addChStatus (ch : Nat) : Nat := 0x10_0000 + ch * 0x100 + 0x00
/-- ADD_CH_LINES (R342). -/
def addChLines (ch : Nat) : Nat := 0x10_0000 + ch * 0x100 + 0x08
/-- ADD_CH_NONFINITE (R342). -/
def addChNonfinite (ch : Nat) : Nat := 0x10_0000 + ch * 0x100 + 0x10
/-- ADD_CH_CHECK_FAIL (R342). -/
def addChCheckFail (ch : Nat) : Nat := 0x10_0000 + ch * 0x100 + 0x18
/-- RED_CTRL (R362). -/
def redCtrl : Nat := 0x19_0000 + 0x000
/-- RED_DRAIN (R362). -/
def redDrain : Nat := 0x19_0000 + 0x008
/-- RED_STATUS (R362). -/
def redStatus : Nat := 0x19_0000 + 0x010
/-- RED_SENT_GROUPS (R362). -/
def redSentGroups : Nat := 0x19_0000 + 0x018
/-- RED_RECV_GROUPS (R362). -/
def redRecvGroups : Nat := 0x19_0000 + 0x020
/-- RED_ACCEPTED (R362). -/
def redAccepted : Nat := 0x19_0000 + 0x028
/-- RED_REFUSED (R362). -/
def redRefused : Nat := 0x19_0000 + 0x030
/-- RED_DUP (R362). -/
def redDup : Nat := 0x19_0000 + 0x038
/-- RED_UNARMED (R362). -/
def redUnarmed : Nat := 0x19_0000 + 0x040
/-- RED_EMPTY (R362). -/
def redEmpty : Nat := 0x19_0000 + 0x048
/-- RED_SHORT (R362). -/
def redShort : Nat := 0x19_0000 + 0x050
/-- RED_DRAIN_FAIL (R362). -/
def redDrainFail : Nat := 0x19_0000 + 0x058
/-- RED_FINALISED (R362). -/
def redFinalised : Nat := 0x19_0000 + 0x060
/-- FILL_CNT_f (R362). -/
def fillCnt (f : Nat) : Nat := 0x19_0000 + (0x400 + f * 8)
/-- BKT_LANDING_b (R362). -/
def bktLanding (b : Nat) : Nat := 0x19_0000 + (0x1000 + b * 0x20)
/-- BKT_STATE_b (R362). -/
def bktState (b : Nat) : Nat := 0x19_0000 + (0x1008 + b * 0x20)
/-- BKT_DIVISOR_b (R362). -/
def bktDivisor (b : Nat) : Nat := 0x19_0000 + (0x1010 + b * 0x20)
/-- BKT_DEADLINE_b (R362). -/
def bktDeadline (b : Nat) : Nat := 0x19_0000 + (0x1018 + b * 0x20)
/-- EP_CTRL (R403). -/
def epCtrl (p : Nat) : Nat := 0x20_0000 + p * 0x1000 + 0x000
/-- EP_STATUS (R403). -/
def epStatus (p : Nat) : Nat := 0x20_0000 + p * 0x1000 + 0x008
/-- EP_MAC (R403). -/
def epMac (p : Nat) : Nat := 0x20_0000 + p * 0x1000 + 0x010
/-- EP_IPV4 (R403). -/
def epIpv4 (p : Nat) : Nat := 0x20_0000 + p * 0x1000 + 0x018
/-- EP_IPV6_LO (R403). -/
def epIpv6Lo (p : Nat) : Nat := 0x20_0000 + p * 0x1000 + 0x020
/-- EP_IPV6_HI (R403). -/
def epIpv6Hi (p : Nat) : Nat := 0x20_0000 + p * 0x1000 + 0x028
/-- EP_CMD_PORT (R403). -/
def epCmdPort (p : Nat) : Nat := 0x20_0000 + p * 0x1000 + 0x030
/-- EP_PTP_TIME (R403). -/
def epPtpTime (p : Nat) : Nat := 0x20_0000 + p * 0x1000 + 0x038
/-- EP_PTP_INFO (R403). -/
def epPtpInfo (p : Nat) : Nat := 0x20_0000 + p * 0x1000 + 0x040
/-- EP_PTP_NEXT (R403). -/
def epPtpNext (p : Nat) : Nat := 0x20_0000 + p * 0x1000 + 0x048
/-- EP_RX_BYTES (R403). -/
def epRxBytes (p : Nat) : Nat := 0x20_0000 + p * 0x1000 + 0x050
/-- EP_TX_BYTES (R403). -/
def epTxBytes (p : Nat) : Nat := 0x20_0000 + p * 0x1000 + 0x058
/-- EP_RX_DROP (R403). -/
def epRxDrop (p : Nat) : Nat := 0x20_0000 + p * 0x1000 + 0x060
/-- EP_FEC_CORR (R403). -/
def epFecCorr (p : Nat) : Nat := 0x20_0000 + p * 0x1000 + 0x068
/-- EP_FEC_UNCORR (R403). -/
def epFecUncorr (p : Nat) : Nat := 0x20_0000 + p * 0x1000 + 0x070
/-- EP_CMD_DUP (R403). -/
def epCmdDup (p : Nat) : Nat := 0x20_0000 + p * 0x1000 + 0x078
/-- EP_CMD_BAD (R403). -/
def epCmdBad (p : Nat) : Nat := 0x20_0000 + p * 0x1000 + 0x080
/-- EP_ROCE_NAK (R403). -/
def epRoceNak (p : Nat) : Nat := 0x20_0000 + p * 0x1000 + 0x088
/-- EP_RETRANSMIT (R403). -/
def epRetransmit (p : Nat) : Nat := 0x20_0000 + p * 0x1000 + 0x090
/-- PC_CTRL (R404). -/
def pcCtrl (c : Nat) : Nat := 0x21_0000 + c * 0x40 + 0x00
/-- PC_MAC (R404). -/
def pcMac (c : Nat) : Nat := 0x21_0000 + c * 0x40 + 0x08
/-- PC_ADDR_LO (R404). -/
def pcAddrLo (c : Nat) : Nat := 0x21_0000 + c * 0x40 + 0x10
/-- PC_ADDR_HI (R404). -/
def pcAddrHi (c : Nat) : Nat := 0x21_0000 + c * 0x40 + 0x18
/-- PC_PORT (R404). -/
def pcPort (c : Nat) : Nat := 0x21_0000 + c * 0x40 + 0x20
/-- PC_KEY (R404). -/
def pcKey (c : Nat) : Nat := 0x21_0000 + c * 0x40 + 0x28
/-- PC_SEQ (R404). -/
def pcSeq (c : Nat) : Nat := 0x21_0000 + c * 0x40 + 0x30
/-- PC_STATUS (R404). -/
def pcStatus (c : Nat) : Nat := 0x21_0000 + c * 0x40 + 0x38
/-- QL_CTRL (R405). -/
def qlCtrl (l : Nat) : Nat := 0x30_0000 + l * 0x100 + 0x00
/-- QL_STATUS (R405). -/
def qlStatus (l : Nat) : Nat := 0x30_0000 + l * 0x100 + 0x08
/-- QL_TXMAP (R405). -/
def qlTxmap (l : Nat) : Nat := 0x30_0000 + l * 0x100 + 0x10
/-- QL_RXMAP (R405). -/
def qlRxmap (l : Nat) : Nat := 0x30_0000 + l * 0x100 + 0x18
/-- QL_HANDOVER (R405). -/
def qlHandover (l : Nat) : Nat := 0x30_0000 + l * 0x100 + 0x20
/-- QL_SCHED (R405). -/
def qlSched (l : Nat) : Nat := 0x30_0000 + l * 0x100 + 0x28
/-- QL_CREDIT (R405). -/
def qlCredit (l : Nat) : Nat := 0x30_0000 + l * 0x100 + 0x30
/-- QL_ECHO_RTT (R405). -/
def qlEchoRtt (l : Nat) : Nat := 0x30_0000 + l * 0x100 + 0x38
/-- QL_ECHO_OFFSET (R405). -/
def qlEchoOffset (l : Nat) : Nat := 0x30_0000 + l * 0x100 + 0x40
/-- QL_REPLAY_TIMEOUT (R405). -/
def qlReplayTimeout (l : Nat) : Nat := 0x30_0000 + l * 0x100 + 0x48
/-- QL_TX_BYTES (R405). -/
def qlTxBytes (l : Nat) : Nat := 0x30_0000 + l * 0x100 + 0x50
/-- QL_RX_BYTES (R405). -/
def qlRxBytes (l : Nat) : Nat := 0x30_0000 + l * 0x100 + 0x58
/-- QL_FEC_CORR (R405). -/
def qlFecCorr (l : Nat) : Nat := 0x30_0000 + l * 0x100 + 0x60
/-- QL_BAD_FRAMES (R405). -/
def qlBadFrames (l : Nat) : Nat := 0x30_0000 + l * 0x100 + 0x68
/-- QL_REPLAYS (R405). -/
def qlReplays (l : Nat) : Nat := 0x30_0000 + l * 0x100 + 0x70
/-- QL_RECOVERIES (R405). -/
def qlRecoveries (l : Nat) : Nat := 0x30_0000 + l * 0x100 + 0x78
/-- QL_HANDOVERS (R405). -/
def qlHandovers (l : Nat) : Nat := 0x30_0000 + l * 0x100 + 0x80
/-- QL_HANDOVER_FAIL (R405). -/
def qlHandoverFail (l : Nat) : Nat := 0x30_0000 + l * 0x100 + 0x88
/-- QL_ROUTE_DROP (R405). -/
def qlRouteDrop (l : Nat) : Nat := 0x30_0000 + l * 0x100 + 0x90
/-- QR_CTRL (R406). -/
def qrCtrl : Nat := 0x30_1000 + 0x000
/-- REMOTE_TIMEOUT (R406). -/
def remoteTimeout : Nat := 0x30_1000 + 0x008
/-- QR_TIMEOUTS (R406). -/
def qrTimeouts : Nat := 0x30_1000 + 0x010
/-- QR_LATE (R406). -/
def qrLate : Nat := 0x30_1000 + 0x018
/-- MOD_ROUTE_m (R406). -/
def modRoute (m : Nat) : Nat := 0x30_1000 + (0x7000 + m * 8)
/-- Q_CFG (R407). -/
def qCfg (q : Nat) : Nat := 0x100_0000 + q * 0x40 + 0x00
/-- Q_RING (R407). -/
def qRing (q : Nat) : Nat := 0x100_0000 + q * 0x40 + 0x08
/-- Q_HEAD (R407). -/
def qHead (q : Nat) : Nat := 0x100_0000 + q * 0x40 + 0x10
/-- Q_TAIL (R407). -/
def qTail (q : Nat) : Nat := 0x100_0000 + q * 0x40 + 0x18
/-- Q_DOORBELL (R407). -/
def qDoorbell (q : Nat) : Nat := 0x100_0000 + q * 0x40 + 0x20
/-- Q_STATUS (R407). -/
def qStatus (q : Nat) : Nat := 0x100_0000 + q * 0x40 + 0x28
/-- Q_COUNT (R407). -/
def qCount (q : Nat) : Nat := 0x100_0000 + q * 0x40 + 0x30
/-- DET_CTRL (R435). -/
def detCtrl : Nat := 0x1A_0000 + 0x000
/-- DET_STATUS (R435). -/
def detStatus : Nat := 0x1A_0000 + 0x008
/-- DET_LOSS (R435). -/
def detLoss : Nat := 0x1A_0000 + 0x010
/-- DET_AVG (R435). -/
def detAvg : Nat := 0x1A_0000 + 0x018
/-- DET_PARAM (R435). -/
def detParam : Nat := 0x1A_0000 + 0x020
/-- DET_NF_LIMIT (R435). -/
def detNfLimit : Nat := 0x1A_0000 + 0x028
/-- DET_GUARD (R435). -/
def detGuard : Nat := 0x1A_0000 + 0x030
/-- DET_RECOVER (R435). -/
def detRecover : Nat := 0x1A_0000 + 0x038
/-- DET_CHECKS (R435). -/
def detChecks : Nat := 0x1A_0000 + 0x040
/-- DET_HOLDS (R435). -/
def detHolds : Nat := 0x1A_0000 + 0x048
/-- DET_STOPPED (R435). -/
def detStopped : Nat := 0x1A_0000 + 0x050
/-- JNL_CTRL (R435). -/
def jnlCtrl : Nat := 0x1A_0000 + 0x100
/-- JNL_STATUS (R435). -/
def jnlStatus : Nat := 0x1A_0000 + 0x108
/-- JNL_HEAD (R435). -/
def jnlHead : Nat := 0x1A_0000 + 0x110
/-- JNL_OLDEST (R435). -/
def jnlOldest : Nat := 0x1A_0000 + 0x118
/-- JNL_BATCH_i (R435). -/
def jnlBatch (i : Nat) : Nat := 0x1A_0000 + (0x120 + i * 8)
/-- JNL_REPLAY_PTR (R435). -/
def jnlReplayPtr : Nat := 0x1A_0000 + 0x140
/-- JNL_REPLAY_END (R435). -/
def jnlReplayEnd : Nat := 0x1A_0000 + 0x148
/-- JNL_ENTRIES (R435). -/
def jnlEntries : Nat := 0x1A_0000 + 0x150
/-- HB_CTRL (R435). -/
def hbCtrl : Nat := 0x1A_0000 + 0x200
/-- HB_STATUS (R435). -/
def hbStatus : Nat := 0x1A_0000 + 0x208
/-- HB_STEP (R435). -/
def hbStep : Nat := 0x1A_0000 + 0x210
/-- HB_PENDING (R435). -/
def hbPending : Nat := 0x1A_0000 + 0x218
/-- HB_REG_BASE_r (R435). -/
def hbRegBase (r : Nat) : Nat := 0x1A_0000 + (0x220 + r * 0x10)
/-- HB_REG_SIZE_r (R435). -/
def hbRegSize (r : Nat) : Nat := 0x1A_0000 + (0x228 + r * 0x10)
/-- HB_BYTES_OUT (R435). -/
def hbBytesOut : Nat := 0x1A_0000 + 0x320
/-- HB_COW_WAIT (R435). -/
def hbCowWait : Nat := 0x1A_0000 + 0x328
/-- DARN_CTRL (R435). -/
def darnCtrl : Nat := 0x1A_0000 + 0x400
/-- DARN_WAIT (R435). -/
def darnWait : Nat := 0x1A_0000 + 0x408
/-- DARN_REQ (R435). -/
def darnReq : Nat := 0x1A_0000 + 0x410
/-- DARN_STATUS (R435). -/
def darnStatus : Nat := 0x1A_0000 + 0x418
/-- CAL_ROUNDS (R435). -/
def calRounds : Nat := 0x1A_0000 + 0x420
/-- CAL_SKIPPED (R435). -/
def calSkipped : Nat := 0x1A_0000 + 0x428
/-- DARN_DONE (R435). -/
def darnDone : Nat := 0x1A_0000 + 0x430
/-- DARN_DEFERRED (R435). -/
def darnDeferred : Nat := 0x1A_0000 + 0x438
/-- MARGIN_o (R435). -/
def margin (o : Nat) : Nat := 0x1A_0000 + (0x1000 + o * 8)
/-- CLK_STATUS (R470). -/
def clkStatus : Nat := 0x2_0000 + 0x000
/-- PL_CTRL (R470). -/
def plCtrl : Nat := 0x2_0000 + 0x008
/-- PL_STATUS (R470). -/
def plStatus : Nat := 0x2_0000 + 0x010
/-- THERM_CTRL (R470). -/
def thermCtrl : Nat := 0x2_0000 + 0x018
/-- THERM_STATUS (R470). -/
def thermStatus : Nat := 0x2_0000 + 0x020
/-- TEMP_s (R470). -/
def temp (s : Nat) : Nat := 0x2_0000 + (0x040 + s * 8)
/-- DROOP_CTRL (R470). -/
def droopCtrl : Nat := 0x2_0000 + 0x1F8
/-- DROOP_EVENTS_r (R470). -/
def droopEvents (r : Nat) : Nat := 0x2_0000 + (0x200 + r * 0x10)
/-- DROOP_ACLK_r (R470). -/
def droopAclk (r : Nat) : Nat := 0x2_0000 + (0x208 + r * 0x10)
/-- SLEEP_CTRL (R470). -/
def sleepCtrl : Nat := 0x2_0000 + 0x300
/-- SLEEP_STATUS (R470). -/
def sleepStatus : Nat := 0x2_0000 + 0x308
/-- PAD_HOLD (R470). -/
def padHold : Nat := 0x2_0000 + 0x310
/-- PAD_RELEASE (R470). -/
def padRelease : Nat := 0x2_0000 + 0x318
/-- RESID_S_k (R470). -/
def residS (k : Nat) : Nat := 0x2_0000 + (0x400 + k * 8)
/-- RESID_PL_l (R470). -/
def residPl (l : Nat) : Nat := 0x2_0000 + (0x440 + l * 8)
/-- PMB_RAIL_n (R470). -/
def pmbRail (n : Nat) : Nat := 0x2_0000 + (0x500 + n * 8)
/-- PMB_STATUS (R470). -/
def pmbStatus : Nat := 0x2_0000 + 0x540
/-- PWR_CTRL (R470). -/
def pwrCtrl : Nat := 0x2_0000 + 0x548
/-- START_STATUS (R471). -/
def startStatus : Nat := 0x3_0000 + 0x000
/-- RST_CAUSE (R471). -/
def rstCause : Nat := 0x3_0000 + 0x008
/-- RST_CTRL (R471). -/
def rstCtrl : Nat := 0x3_0000 + 0x010
/-- RST_BLOCK (R471). -/
def rstBlock : Nat := 0x3_0000 + 0x020
/-- BLK_IDLE (R471). -/
def blkIdle : Nat := 0x3_0000 + 0x028
/-- START_STAGE_AT_k (R471). -/
def startStageAt (k : Nat) : Nat := 0x3_0000 + (0x040 + k * 8)
/-- DOFF_CTRL (R488). -/
def doffCtrl : Nat := 0x5_0000 + 0x000
/-- DOFF_STATUS (R488). -/
def doffStatus : Nat := 0x5_0000 + 0x008
/-- DOFF_LEAD (R488). -/
def doffLead : Nat := 0x5_0000 + 0x010
/-- DOFF_EVENTS (R488). -/
def doffEvents : Nat := 0x5_0000 + 0x018
/-- DOFF_FWD (R488). -/
def doffFwd : Nat := 0x5_0000 + 0x020
/-- DOFF_TIME (R488). -/
def doffTime : Nat := 0x5_0000 + 0x028
/-- DOFF_ID (R488). -/
def doffId : Nat := 0x5_0000 + 0x030
/-- DOFF_LATE (R488). -/
def doffLate : Nat := 0x5_0000 + 0x038
/-- DOFF_IGNORED (R488). -/
def doffIgnored : Nat := 0x5_0000 + 0x040
/-- DOFF_FIRED (R488). -/
def doffFired : Nat := 0x5_0000 + 0x048
/-- TB_NOW (R488). -/
def tbNow : Nat := 0x5_0000 + 0x050
/-- OBS_CTRL (R488). -/
def obsCtrl : Nat := 0x5_0000 + 0x058
/-- OBS_HBM_RD (R488). -/
def obsHbmRd : Nat := 0x5_0000 + 0x060
/-- OBS_HBM_WR (R488). -/
def obsHbmWr : Nat := 0x5_0000 + 0x068
/-- OBS_HBM_ACC (R488). -/
def obsHbmAcc : Nat := 0x5_0000 + 0x070
/-- OBS_HBM_RSV (R488). -/
def obsHbmRsv : Nat := 0x5_0000 + 0x078
/-- OBS_DDR_RD (R488). -/
def obsDdrRd : Nat := 0x5_0000 + 0x080
/-- OBS_DDR_WR (R488). -/
def obsDdrWr : Nat := 0x5_0000 + 0x088
/-- OBS_REMOTE_IN (R488). -/
def obsRemoteIn : Nat := 0x5_0000 + 0x090
/-- OBS_DOFF_SKEWED (R488). -/
def obsDoffSkewed : Nat := 0x5_0000 + 0x098
/-- DUMP_SEL_i (R488). -/
def dumpSel (i : Nat) : Nat := 0x5_0000 + (0x100 + i * 0x10)
/-- DUMP_STEP_i (R488). -/
def dumpStep (i : Nat) : Nat := 0x5_0000 + (0x108 + i * 0x10)
/-- DUMP_QUEUE (R488). -/
def dumpQueue : Nat := 0x5_0000 + 0x180
/-- DUMP_NEXT (R488). -/
def dumpNext : Nat := 0x5_0000 + 0x188
/-- DUMP_STATUS (R488). -/
def dumpStatus : Nat := 0x5_0000 + 0x190
/-- DUMP_DONE (R488). -/
def dumpDone : Nat := 0x5_0000 + 0x198
/-- DUMP_SKIPPED (R488). -/
def dumpSkipped : Nat := 0x5_0000 + 0x1A0
/-- DUMP_BYTES (R488). -/
def dumpBytes : Nat := 0x5_0000 + 0x1A8
/-- TCNT_CTRL (R489). -/
def tcntCtrl (t : Nat) : Nat := tileCtl t + (0x6000 + (0x000))
/-- TCNT_SRAM_RD (R489). -/
def tcntSramRd (t : Nat) : Nat := tileCtl t + (0x6000 + (0x008))
/-- TCNT_SRAM_WR (R489). -/
def tcntSramWr (t : Nat) : Nat := tileCtl t + (0x6000 + (0x010))
/-- TCNT_HBM_RD (R489). -/
def tcntHbmRd (t : Nat) : Nat := tileCtl t + (0x6000 + (0x018))
/-- TCNT_HBM_WR (R489). -/
def tcntHbmWr (t : Nat) : Nat := tileCtl t + (0x6000 + (0x020))
/-- TCNT_HBM_ACC (R489). -/
def tcntHbmAcc (t : Nat) : Nat := tileCtl t + (0x6000 + (0x028))
/-- TCNT_DDR_RD (R489). -/
def tcntDdrRd (t : Nat) : Nat := tileCtl t + (0x6000 + (0x030))
/-- TCNT_DDR_WR (R489). -/
def tcntDdrWr (t : Nat) : Nat := tileCtl t + (0x6000 + (0x038))
/-- TCNT_REMOTE_RD (R489). -/
def tcntRemoteRd (t : Nat) : Nat := tileCtl t + (0x6000 + (0x040))
/-- TCNT_REMOTE_WR (R489). -/
def tcntRemoteWr (t : Nat) : Nat := tileCtl t + (0x6000 + (0x048))
/-- TCNT_RA_HBM (R489). -/
def tcntRaHbm (t : Nat) : Nat := tileCtl t + (0x6000 + (0x050))
/-- TCNT_RA_DDR (R489). -/
def tcntRaDdr (t : Nat) : Nat := tileCtl t + (0x6000 + (0x058))
/-- TCNT_RA_REMOTE (R489). -/
def tcntRaRemote (t : Nat) : Nat := tileCtl t + (0x6000 + (0x060))
/-- TCNT_PLANE_p (R489). -/
def tcntPlane (t p : Nat) : Nat := tileCtl t + (0x6000 + (0x068 + p * 8))
/-- SEC_STATUS (R502). -/
def secStatus : Nat := 0x4_0000 + 0x000
/-- SEC_SERIAL (R502). -/
def secSerial : Nat := 0x4_0000 + 0x008
/-- KEY_CMD (R502). -/
def keyCmd : Nat := 0x4_0000 + 0x010
/-- KEY_RESULT (R502). -/
def keyResult : Nat := 0x4_0000 + 0x018
/-- KEY_STAGE_i (R502). -/
def keyStage (i : Nat) : Nat := 0x4_0000 + (0x040 + i * 8)
/-- KEY_HASH_k_i (R502). -/
def keyHash (k i : Nat) : Nat := 0x4_0000 + (0x100 + k * 0x40 + i * 8)
/-- ID_PUB_i (R502). -/
def idPub (i : Nat) : Nat := 0x4_0000 + (0x200 + i * 8)
/-- ID_HASH_i (R502). -/
def idHash (i : Nat) : Nat := 0x4_0000 + (0x400 + i * 8)
/-- ATTEST_COUNT (R502). -/
def attestCount : Nat := 0x4_0000 + 0x440
/-- SIG_FAILS (R502). -/
def sigFails : Nat := 0x4_0000 + 0x448
/-- HBM_STATUS (R343). -/
def hbmStatus : Nat := 0x40_0000 + 0x0000
/-- HBM_CTRL (R343). -/
def hbmCtrl : Nat := 0x40_0000 + 0x0008
/-- HBM_CE (R343). -/
def hbmCe : Nat := 0x40_0000 + 0x0010
/-- HBM_UE (R343). -/
def hbmUe : Nat := 0x40_0000 + 0x0018
/-- HBM_SCRUB_PASSES (R343). -/
def hbmScrubPasses : Nat := 0x40_0000 + 0x0020
/-- HBM_LANES_REPAIRED (R343). -/
def hbmLanesRepaired : Nat := 0x40_0000 + 0x0028
/-- HBM_CH_STATUS_ch (R343). -/
def hbmChStatus (ch : Nat) : Nat := 0x40_0000 + (0x1000 + ch * 0x10)
/-- DDR_STATUS (R343). -/
def ddrStatus : Nat := 0x50_0000 + 0x0000
/-- DDR_CTRL (R343). -/
def ddrCtrl : Nat := 0x50_0000 + 0x0008
/-- DDR_CAPACITY (R343). -/
def ddrCapacity : Nat := 0x50_0000 + 0x0010
/-- DDR_CE (R343). -/
def ddrCe : Nat := 0x50_0000 + 0x0018
/-- DDR_UE (R343). -/
def ddrUe : Nat := 0x50_0000 + 0x0020
/-- DDR_PPR_DONE (R343). -/
def ddrPprDone : Nat := 0x50_0000 + 0x0028
/-- DDR_PPR_FAIL (R343). -/
def ddrPprFail : Nat := 0x50_0000 + 0x0030
/-- DDR_XLATE_IN (R343). -/
def ddrXlateIn : Nat := 0x50_0000 + 0x0040
/-- DDR_XLATE_OUT (R343). -/
def ddrXlateOut : Nat := 0x50_0000 + 0x0048
/-- DDR_CH_STATUS_d (R343). -/
def ddrChStatus (d : Nat) : Nat := 0x50_0000 + (0x1000 + d * 0x10)

end Reg

/-- The blocks of control space, with the tile, channel, port, context, link or queue that an offset falls in. -/
inductive Blk where
  | glob | pat | clk | rst | sec | obs | band | add | red | integ | qr | hbm | ddr
  | tile (t : Nat)
  | addCh (ch : Nat)
  | ep (p : Nat)
  | pc (c : Nat)
  | ql (l : Nat)
  | queue (q : Nat)
  | none
  deriving DecidableEq, Repr

/-- The block that holds a control-space offset and the offset in it; `active` is MODULE_INFO.ACTIVE, since only the
windows of active tiles exist (R21, R78). -/
def locate (active off : Nat) : Blk × Nat :=
  if off < 0x1_0000 then (.glob, off)
  else if off < 0x2_0000 then (.pat, off - 0x1_0000)
  else if off < 0x3_0000 then (.clk, off - 0x2_0000)
  else if off < 0x4_0000 then (.rst, off - 0x3_0000)
  else if off < 0x5_0000 then (.sec, off - 0x4_0000)
  else if off < 0x6_0000 then (.obs, off - 0x5_0000)
  else if off < 0x10_0000 then (.band, off - 0x6_0000)
  else if off < 0x18_0000 then
    if (off - 0x10_0000) / 0x100 < 384 then (.addCh ((off - 0x10_0000) / 0x100), (off - 0x10_0000) % 0x100)
    else (.none, off)
  else if off < 0x19_0000 then (.add, off - 0x18_0000)
  else if off < 0x1A_0000 then (.red, off - 0x19_0000)
  else if off < 0x20_0000 then (.integ, off - 0x1A_0000)
  else if off < 0x20_2000 then (.ep ((off - 0x20_0000) / 0x1000), (off - 0x20_0000) % 0x1000)
  else if off < 0x21_0000 then (.none, off)
  else if off < 0x25_0000 then (.pc ((off - 0x21_0000) / 0x40), (off - 0x21_0000) % 0x40)
  else if off < 0x30_0000 then (.none, off)
  else if off < 0x30_0C00 then (.ql ((off - 0x30_0000) / 0x100), (off - 0x30_0000) % 0x100)
  else if off < 0x30_1000 then (.none, off)
  else if off < 0x40_0000 then (.qr, off - 0x30_1000)
  else if off < 0x50_0000 then (.hbm, off - 0x40_0000)
  else if off < 0x60_0000 then (.ddr, off - 0x50_0000)
  else if off < 0x100_0000 then (.none, off)
  else if off < 0x110_0000 then (.queue ((off - 0x100_0000) / 0x40), (off - 0x100_0000) % 0x40)
  else if off < 0x800_0000 then (.none, off)
  else if (off - 0x800_0000) / 0x1_0000 < active then
    (.tile ((off - 0x800_0000) / 0x1_0000), (off - 0x800_0000) % 0x1_0000)
  else (.none, off)

/-- Reset value of a register of a tile's control window (R75, R138, R172, R200, R229, R252, R308, R489). -/
def tileReset (o : Nat) : Nat :=
  match o with
  | 0x2008 => 0x1
  | 0x4008 => 0x6
  | 0x5018 => 0x878
  | _ => 0

/-- Reset value of a register of the integrity block (R435). -/
def integReset (o : Nat) : Nat :=
  match o with
  | 0x000 => 0x8
  | 0x020 => 0xC85_4040_0000
  | 0x038 => 0x10
  | 0x100 => 0x1
  | 0x400 => 0x3_0863
  | 0x408 => 0xD_BBA0
  | _ => 0

/-- Reset value of a register of a Quiras link (R405). -/
def qlReset (o : Nat) : Nat :=
  match o with
  | 0x00 => 0x1
  | 0x10 => 0x4688
  | 0x18 => 0x4688
  | 0x28 => 0x4210_3210_4210_3210
  | 0x30 => 0x10_1020_2020
  | 0x48 => 0x800
  | _ => 0

/-- The value after POR_N of the register at an offset (the Reset columns of the register tables). Fuse and Pattern
registers hold zero until stage B1 or B2 loads them. PL_STATUS.CEILING resets to 7, as its field table says (R470). -/
def resetWord (off : Nat) : Word :=
  BitVec.ofNat 64
    (match locate 88 off with
    | (.tile _, o) => tileReset o
    | (.glob, 0x300) => 0x7A
    | (.glob, 0x308) => 0x3D80_3D80_3D80_3D80
    | (.band, o) => if 0x1000 ≤ o ∧ o < 0x9000 ∧ (o - 0x1000) % 0x80 = 0 then 0x64_0000 else 0
    | (.hbm, 0x8) => 0xC02
    | (.ddr, 0x8) => 0xC02
    | (.red, 0x8) => 0x10_0000
    | (.ep _, 0x0) => 0x1
    | (.ep _, 0x30) => 0x5A96
    | (.pc c, 0x38) => if c = 4095 then 1 else 0
    | (.ql _, o) => qlReset o
    | (.qr, 0x8) => 0x10_0000
    | (.queue 16382, 0x0) => 0xF_FF01
    | (.queue 16383, 0x0) => 0xA
    | (.integ, o) => integReset o
    | (.clk, 0x8) => 0x7
    | (.clk, 0x10) => 0x38
    | (.clk, 0x18) => 0x15_5A5F
    | (.clk, 0x1F8) => 0x2
    | (.obs, 0x0) => 0x8_0006
    | (.obs, 0x10) => 0x1000
    | _ => 0)

/-- Which bits of a register software stores (RW) and which it clears by writing 1 (W1C), as masks (R12). A register
absent from the lists is RO, WO or undefined: a store changes none of its bits. -/
def tileMasks (o : Nat) : Nat × Nat :=
  if o < 0x800 then
    match o % 0x20 with
    | 0x08 => (2 ^ 64 - 1, 0)
    | 0x10 => (2 ^ 64 - 1, 0)
    | 0x18 => (0, 0xC)
    | _ => (0, 0)
  else
    match o with
    | 0x2008 => (0x1, 0)
    | 0x4008 => (0x6, 0)
    | 0x4010 => (0xFF7F, 0)
    | 0x4020 => (2 ^ 56 - 1, 0)
    | 0x4028 => (2 ^ 40 - 1, 0)
    | 0x4030 => (2 ^ 56 - 1, 0)
    | 0x4038 => (2 ^ 40 - 1, 0)
    | 0x4040 => (2 ^ 56 - 1, 0)
    | 0x4048 => (2 ^ 40 - 1, 0)
    | 0x4050 => (2 ^ 56 - 1, 0)
    | 0x4058 => (2 ^ 40 - 1, 0)
    | 0x4100 => (2 ^ 56 - 1, 0)
    | 0x5010 => (0xBF, 0)
    | 0x5018 => (0xFF7F, 0)
    | _ => (0, 0)

/-- The masks of the global block (R108, R230, R282). -/
def globMasks (o : Nat) : Nat × Nat :=
  if 0x100 ≤ o ∧ o < 0x180 then (0x0FFF_0FFF, 0)
  else
    match o with
    | 0x008 => (0x8000_0FFF, 0)
    | 0x200 => (0xFFFF_FFFF, 0)
    | 0x300 => (0x7F, 0)
    | 0x308 => (2 ^ 64 - 1, 0)
    | 0x310 => (2 ^ 56 - 1, 0)
    | 0x318 => (0xFFFF_FFFF, 0)
    | 0x320 => (0xFFFF_FFFF, 0)
    | 0x328 => (2 ^ 64 - 1, 0)
    | _ => (0, 0)

/-- The masks of the Band block (R309). -/
def bandMasks (o : Nat) : Nat × Nat :=
  if 0x1000 ≤ o ∧ o < 0x9000 then
    match (o - 0x1000) % 0x80 with
    | 0x00 => (0x0000_FFFF_FFFF_007F, 0)
    | 0x08 => (2 ^ 64 - 1, 0)
    | 0x10 => (2 ^ 64 - 1, 0)
    | 0x18 => (2 ^ 36 - 1, 0)
    | 0x20 => (2 ^ 64 - 1, 0)
    | 0x28 => (2 ^ 48 - 1, 0)
    | 0x30 => (2 ^ 64 - 1, 0)
    | 0x48 => (2 ^ 33 - 1, 0)
    | _ => (0, 0)
  else
    match o with
    | 0x10 => (2 ^ 48 - 1, 0)
    | 0x18 => (2 ^ 56 - 1, 0)
    | 0x20 => (0x1F, 0)
    | _ => (0, 0)

/-- The masks of the adder block (R341). -/
def addMasks (o : Nat) : Nat × Nat :=
  if 0x100 ≤ o ∧ o < 0x500 then
    match (o - 0x100) % 0x40 with
    | 0x00 => (2 ^ 44 - 1, 0)
    | 0x08 => (2 ^ 39 - 1, 0)
    | 0x10 => (2 ^ 44 - 1, 0)
    | 0x18 => (2 ^ 39 - 1, 0)
    | 0x28 => (0, 0x14)
    | _ => (0, 0)
  else (0, 0)

/-- The masks of the integrity block (R435). -/
def integMasks (o : Nat) : Nat × Nat :=
  if 0x120 ≤ o ∧ o < 0x140 then (2 ^ 64 - 1, 0)
  else if 0x220 ≤ o ∧ o < 0x320 then
    if o % 0x10 = 0 then (2 ^ 44 - 1, 0) else (2 ^ 39 - 1, 0)
  else
    match o with
    | 0x000 => (0x8, 0)
    | 0x010 => (2 ^ 32 - 1, 0)
    | 0x018 => (2 ^ 48 - 1, 0)
    | 0x020 => (2 ^ 52 - 1, 0)
    | 0x028 => (2 ^ 32 - 1, 0)
    | 0x030 => (0xFFFF, 0)
    | 0x038 => (0xFFFF, 0)
    | 0x100 => (0x3, 0)
    | 0x108 => (0, 0xE)
    | 0x140 => (2 ^ 64 - 1, 0)
    | 0x148 => (2 ^ 48 - 1, 0)
    | 0x200 => (0x8, 0)
    | 0x208 => (0, 0x1_0000)
    | 0x400 => (0xF_FF7F, 0)
    | 0x408 => (2 ^ 32 - 1, 0)
    | _ => (0, 0)

/-- The masks of a port block, a partner context, a link and a queue (R403, R404, R405, R407). -/
def epMasks (o : Nat) : Nat × Nat :=
  match o with
  | 0x00 => (0x3, 0)
  | 0x18 => (2 ^ 32 - 1, 0)
  | 0x20 => (2 ^ 64 - 1, 0)
  | 0x28 => (2 ^ 64 - 1, 0)
  | 0x30 => (0xFFFF, 0)
  | 0x40 => (0, 0x200_0000)
  | _ => (0, 0)

/-- See `epMasks`. -/
def pcMasks (o : Nat) : Nat × Nat :=
  match o with
  | 0x00 => (0x3_FFFF_FF7F, 0)
  | 0x08 => (2 ^ 48 - 1, 0)
  | 0x10 => (2 ^ 64 - 1, 0)
  | 0x18 => (2 ^ 64 - 1, 0)
  | 0x20 => (0xFFFF_1FFF_FFFF_FFFF, 0)
  | 0x28 => (2 ^ 64 - 1, 0)
  | 0x38 => (0, 0x8)
  | _ => (0, 0)

/-- See `epMasks`. -/
def qlMasks (o : Nat) : Nat × Nat :=
  match o with
  | 0x00 => (0x1, 0)
  | 0x20 => (0x3, 0x18)
  | 0x28 => (2 ^ 64 - 1, 0)
  | 0x30 => (0x7F_7F7F_7F7F, 0)
  | 0x48 => (0xFFFF, 0)
  | _ => (0, 0)

/-- See `epMasks`. -/
def queueMasks (o : Nat) : Nat × Nat :=
  match o with
  | 0x00 => (0xF7FF_FF1F, 0)
  | 0x08 => (2 ^ 56 - 1, 0)
  | 0x10 => (2 ^ 32 - 1, 0)
  | 0x28 => (0, 0x3)
  | _ => (0, 0)

/-- The masks of the clocks and power block (R470). -/
def clkMasks (o : Nat) : Nat × Nat :=
  match o with
  | 0x008 => (0x7, 0)
  | 0x010 => (0, 0x100)
  | 0x018 => (0x1F_FFFF, 0)
  | 0x1F8 => (0x2, 0)
  | 0x300 => (0x7, 0)
  | 0x308 => (0, 0x8)
  | 0x540 => (0, 0x1)
  | _ => (0, 0)

/-- The masks of the observability block (R488). -/
def obsMasks (o : Nat) : Nat × Nat :=
  if 0x100 ≤ o ∧ o < 0x180 then
    if o % 0x10 = 0 then (2 ^ 27 - 1, 0) else (2 ^ 48 - 1, 0)
  else
    match o with
    | 0x000 => (0xF_0006, 0)
    | 0x008 => (0, 0x60)
    | 0x010 => (2 ^ 20 - 1, 0)
    | 0x018 => (0xFF, 0)
    | 0x020 => (0xFFF, 0)
    | 0x180 => (2 ^ 14 - 1, 0)
    | 0x188 => (2 ^ 40 - 1, 0)
    | 0x190 => (0, 0xFF0)
    | _ => (0, 0)

/-- The masks of every register: (bits that store, bits that a written 1 clears). -/
def masks (b : Blk) (o : Nat) : Nat × Nat :=
  match b with
  | .tile _ => tileMasks o
  | .glob => globMasks o
  | .band => bandMasks o
  | .add => addMasks o
  | .integ => integMasks o
  | .ep _ => epMasks o
  | .pc c => if c = 4095 then (0, 0) else pcMasks o
  | .ql _ => qlMasks o
  | .queue q => if q = 16382 then (0, 0) else queueMasks o
  | .clk => clkMasks o
  | .obs => obsMasks o
  | .pat =>
    (match o with
    | 0x20 => (0x2, 0)
    | 0x28 => (0, 0x1_0000)
    | 0x80 => (0, 0x10_0000)
    | _ => (0, 0))
  | .rst =>
    (match o with
    | 0x00 => (0, 0x100_0000)
    | 0x08 => (0, 0x10)
    | 0x20 => (0xFFFF, 0)
    | _ => (0, 0))
  | .sec =>
    if 0x40 ≤ o ∧ o < 0x80 then (2 ^ 64 - 1, 0)
    else if o = 0x10 then (0xFFFF_000F, 0)
    else if o = 0x18 then (0, 0x100)
    else (0, 0)
  | .red =>
    if 0x400 ≤ o ∧ o < 0x600 then (0xFFFF, 0)
    else if o = 0x8 then (2 ^ 32 - 1, 0)
    else (0, 0)
  | .hbm => if o = 0x8 then (0xF02, 0) else (0, 0)
  | .ddr =>
    (match o with
    | 0x08 => (0xF02, 0)
    | 0x40 => (2 ^ 44 - 1, 0)
    | _ => (0, 0))
  | .qr =>
    if o = 0x8 then (2 ^ 32 - 1, 0)
    else if 0x7000 ≤ o ∧ o < 0xF000 then (0x0FFF_000F, 0)
    else (0, 0)
  | .addCh _ => (0, 0)
  | .none => (0, 0)

end Sys2Proof.Machine
end

