-- ==== Sys2Proof/Machine/Ops.lean ====
section
/-! DEFINITION. The named operations over registers and memory: fields of a word, sparse lists in canonical form, reading
and writing a register by its offset, counters, the address map, reading and writing local memory, free values, error
entries and messages to other modules. -/

namespace Sys2Proof.Machine

/-! ## Fields of a word -/

/-- Bits [hi:lo] of a register. -/
def getF (w : Word) (hi lo : Nat) : Nat := bitsOf w.toNat hi lo

/-- The register with bits [hi:lo] holding `v`, the other bits kept. -/
def setF (w : Word) (hi lo v : Nat) : Word :=
  let m := (2 ^ (hi + 1 - lo) - 1) <<< lo
  (w &&& ~~~ BitVec.ofNat 64 m) ||| BitVec.ofNat 64 ((v % 2 ^ (hi + 1 - lo)) <<< lo)

/-! ## Sparse lists in canonical form: keys strictly rising, no entry equal to the default -/

/-- The value a sparse list holds at a key, `d` where it lists none. -/
def sGet {α : Type} (l : List (Nat × α)) (k : Nat) (d : α) : α :=
  match l with
  | [] => d
  | p :: r => if p.1 = k then p.2 else sGet r k d

/-- A sparse list with the entry of key `k` taken out. -/
def sDrop {α : Type} (l : List (Nat × α)) (k : Nat) : List (Nat × α) := l.filter fun p => p.1 != k

/-- An entry put before the first of a higher key. -/
def sInsert {α : Type} (l : List (Nat × α)) (k : Nat) (v : α) : List (Nat × α) :=
  match l with
  | [] => [(k, v)]
  | p :: r => if k < p.1 then (k, v) :: p :: r else p :: sInsert r k v

/-- The list with `v` at key `k`; a value equal to the default removes the entry. -/
def sPut {α : Type} [DecidableEq α] (l : List (Nat × α)) (k : Nat) (v d : α) : List (Nat × α) :=
  if v = d then sDrop l k else sInsert (sDrop l k) k v

/-- The canonical form: keys strictly rising, no entry equal to its default. -/
def sWf {α : Type} [DecidableEq α] (dflt : Nat → α) : List (Nat × α) → Bool
  | [] => true
  | [(k, v)] => decide (v ≠ dflt k)
  | (k, v) :: (j, w) :: r => decide (v ≠ dflt k) && decide (k < j) && sWf dflt ((j, w) :: r)

/-- The canonical form of byte memory: addresses strictly rising, no byte listed that an unlisted address reads as. -/
def Memory.wf (m : List Host.Cell) : Bool := sWf (fun _ => (0 : Byte)) m

/-- The canonical form of flash, whose unlisted bytes read as 0xFF. -/
def Memory.flashWf (m : List Host.Cell) : Bool := sWf (fun _ => (0xFF : Byte)) m

/-! ## Registers -/

/-- The value stored in the register at a control-space offset. -/
def Core.rd (c : Core) (off : Nat) : Word := sGet c.ctl off (resetWord off)

/-- Store a value in the register at an offset. -/
def Core.wr (c : Core) (off : Nat) (v : Word) : Core := { c with ctl := sPut c.ctl off v (resetWord off) }

/-- Bits [hi:lo] of the register at an offset. -/
def Core.fld (c : Core) (off hi lo : Nat) : Nat := getF (c.rd off) hi lo

/-- Bit `i` of the register at an offset. -/
def Core.bit (c : Core) (off i : Nat) : Bool := getF (c.rd off) i i == 1

/-- The core with bits [hi:lo] of a register set to a number. -/
def Core.setFld (c : Core) (off hi lo v : Nat) : Core := c.wr off (setF (c.rd off) hi lo v)

/-- The core with bit `i` of a register set to a truth value. -/
def Core.setBit (c : Core) (off i : Nat) (b : Bool) : Core := c.setFld off i i b.toNat

/-- A 64-bit counter raised by `n`, modulo 2^64 (R474). -/
def Core.bump (c : Core) (off n : Nat) : Core :=
  { c with ctl := if n = 0 then c.ctl else sPut c.ctl off (c.rd off + BitVec.ofNat 64 n) (resetWord off) }

/-- A counter in units of `unit` events, with its hidden remainder (R525). -/
def Core.bumpUnits (c : Core) (off n unit : Nat) : Core :=
  let r := sGet c.remd off 0 + n
  { (c.bump off (r / unit)) with remd := sPut c.remd off (r % unit) 0 }

/-- A 64-bit counter that saturates at all ones (ERRQ_LOST, R474). -/
def Core.bumpSat (c : Core) (off n : Nat) : Core :=
  c.wr off (BitVec.ofNat 64 (min ((c.rd off).toNat + n) (2 ^ 64 - 1)))

/-- A 16-bit saturating field of a register raised by one (R343, R474). -/
def Core.bumpFld16 (c : Core) (off lo : Nat) : Core :=
  c.setFld off (lo + 15) lo (min (c.fld off (lo + 15) lo + 1) 0xFFFF)

/-- The registers at the `n` offsets from `off`, 8 bytes apart, set to zero, with their remainders: what CNT_CLEAR does
to a block's counters (R139, R525). -/
def Core.clearRange (c : Core) (off : Nat) : Nat → Core
  | 0 => c
  | n + 1 =>
    let c1 := c.wr off 0
    Core.clearRange { c1 with remd := sPut c1.remd off 0 0 } (off + 8) n

/-- A CNT_CLEAR written to a block: ignored while a Doff freeze holds (R139, R476). -/
def Core.cntClear (c : Core) (off n : Nat) : Core :=
  if c.frozen.isSome then c else c.clearRange off n

/-! ## Periods -/

/-- Whether a period of `n` timebase ticks has passed since a timer last fired (R438). The first one after a reset is due at once, since
the spec fixes no phase (log entry 97). -/
def due (last : Option Nat) (n now : Nat) : Bool := last.all fun t => decide (t + n ≤ now)

/-- The tick at which a listed timer last fired. -/
def lastOf (l : List (Nat × Nat)) (k : Nat) : Option Nat := (l.find? fun p => p.1 == k).map (·.2)

/-- A listed timer fired. -/
def fired (l : List (Nat × Nat)) (k now : Nat) : List (Nat × Nat) := (l.filter fun p => p.1 != k) ++ [(k, now)]

/-! ## Free values -/

/-- The next value of the model's counter of free values, and the core with it used. -/
def Core.fresh (c : Core) : Nat × Core := (c.freeCtr, { c with freeCtr := c.freeCtr + 1 })

/-! ## The module's configuration as registers hold it -/

/-- Active tiles (MODULE_INFO.ACTIVE): 88 or 76 once stage B1 has read the fuses. -/
def Core.active (c : Core) : Nat := c.fld Reg.moduleInfo 15 8

/-- MODULE_NO.NUMBER (R76). -/
def Core.moduleNo (c : Core) : Nat := c.fld Reg.moduleNo 11 0

/-- MODULE_NO.SET (R77). -/
def Core.isSet (c : Core) : Bool := c.bit Reg.moduleNo 31

/-- Whether the Hatbox and journal reservation is in force (R323). -/
def Core.reserve (c : Core) : Bool := c.bit Reg.hbmStatus 1

/-- The HBM interleave granule in bytes (R55). -/
def Core.hbmGranule (c : Core) : Nat :=
  match c.fld Reg.hbmStatus 3 2 with
  | 0 => 256
  | 1 => 512
  | 2 => 1024
  | _ => 4096

/-- The DDR interleave granule in bytes (R55). -/
def Core.ddrGranule (c : Core) : Nat :=
  match c.fld Reg.ddrStatus 4 3 with
  | 0 => 256
  | 1 => 4096
  | _ => 65536

/-- The step number (BAND_STEP, R309). -/
def Core.step (c : Core) : Nat := c.fld Reg.bandStep 47 0

/-- The step is held by a detector (DET_STATUS.HELD). -/
def Core.held (c : Core) : Bool := c.bit Reg.detStatus 0

/-! ## The address map (R76 to R79) -/

/-- The region of a local address. -/
inductive Place where
  | hbm
  | sram (t : Nat)
  | ctl
  | ddr
  | unmapped
  deriving DecidableEq, Repr

/-- HBM job space (R78), which shrinks under the reservation. -/
def Core.hbmJob (c : Core) (a : Nat) : Bool := decide (a < 0x120_0000_0000) && !(c.reserve && decide (0x10E_0000_0000 ≤ a))

/-- The region that holds a local address (R78). HBM shrinks under the reservation, SRAM follows the active tiles and the
DDR tier its installed capacity. While PAD_HOLD holds a memory's pads, its addresses are refused (R455). -/
def Core.place (c : Core) (a : Nat) : Place :=
  if a < 0x120_0000_0000 then
    (if c.bit Reg.padHold 0 || (c.reserve && decide (0x10E_0000_0000 ≤ a)) then .unmapped else .hbm)
  else if a < 0x400_0000_0000 then .unmapped
  else if a < 0x7F0_0000_0000 then
    if (a - 0x400_0000_0000) / 0x80_0000 < c.active then .sram ((a - 0x400_0000_0000) / 0x80_0000) else .unmapped
  else if a < 0x7F0_1000_0000 then .ctl
  else if a < 0x800_0000_0000 then .unmapped
  else if c.bit Reg.padHold 1 then .unmapped
  else if a - 0x800_0000_0000 < c.fld Reg.ddrCapacity 43 0 then .ddr
  else .unmapped

/-- A local address that memory holds: HBM job space, tile SRAM or DDR. -/
def Core.isMem (c : Core) (a : Nat) : Bool :=
  match c.place a with
  | .hbm => true
  | .sram _ => true
  | .ddr => true
  | _ => false

/-- The module field and the local part of a global address. -/
def gaModule (a : Nat) : Nat := a / 2 ^ 44 % 4096

/-- See `gaModule`. -/
def gaLocal (a : Nat) : Nat := a % 2 ^ 44

/-- The global address of a local one. -/
def Core.global (c : Core) (a : Nat) : Nat := c.moduleNo * 2 ^ 44 + a % 2 ^ 44

/-- Whether a global address is local: MODULE_NO is set and its module field equals NUMBER (R76, R77). -/
def Core.isLocal (c : Core) (ga : Nat) : Bool := c.isSet && gaModule ga == c.moduleNo

/-- Whether a remote address can be reached at all: MODULE_NO is set (R77). -/
def Core.isRemote (c : Core) (ga : Nat) : Bool := c.isSet && gaModule ga != c.moduleNo

/-- Every byte of a local range lies in mapped memory outside control space. Regions are long and aligned, so a range
is checked at its ends and in the middle at every 8 MiB. -/
def Core.memRange (c : Core) (a n : Nat) : Bool :=
  n == 0 ||
  ((List.range ((a + n - 1) / 0x80_0000 - a / 0x80_0000 + 1)).all fun i =>
    let w := a / 0x80_0000 + i
    c.isMem (max a (w * 0x80_0000)) && c.isMem (min (a + n - 1) (w * 0x80_0000 + 0x7F_FFFF))) && decide (a + n ≤ 2 ^ 44)

/-- Whether a range of another module's local space lies in one region that R78 maps on some module, outside control space (R79). -/
def remoteMapped (a n : Nat) : Bool :=
  n == 0 || decide (a + n ≤ 0x120_0000_0000) || (decide (0x400_0000_0000 ≤ a) && decide (a + n ≤ 0x400_2C00_0000)) ||
  (decide (0x800_0000_0000 ≤ a) && decide (a + n ≤ 0x1000_0000_0000))

/-- A global range that a descriptor may name: on another module, or in mapped local memory outside control space
(R78, R79); before MODULE_NO is set every address is refused (R77). A range that would cross into another module's
field is refused. -/
def Core.okRange (c : Core) (ga n : Nat) : Bool :=
  decide (ga < 2 ^ 56) && (if c.isLocal ga then c.memRange (gaLocal ga) n
    else c.isRemote ga && remoteMapped (gaLocal ga) n)

/-- The HBM channel of a local HBM address (R317). -/
def Core.hbmChannel (c : Core) (a : Nat) : Nat :=
  let g := a / c.hbmGranule
  let n := if c.reserve then 360 else 384
  let j := (g + g / n) % n
  32 * (j % 12) + j / 12

/-- The DDR channel of a local DDR address (R318). -/
def Core.ddrChannel (c : Core) (a : Nat) : Nat :=
  let g := (a - 0x800_0000_0000) / c.ddrGranule
  (g + g / 16) % 16

/-- The offset of a local DDR address within its channel (R318). -/
def Core.ddrOffset (c : Core) (a : Nat) : Nat :=
  (a - 0x800_0000_0000) / c.ddrGranule / 16 * c.ddrGranule + (a - 0x800_0000_0000) % c.ddrGranule

/-- Where a local DDR address lies within its channel (R318, R343): DIMM in bit 0, rank in [2:1], bank group in [5:3], bank in [7:6],
row in [25:8], column in [36:26]. Consecutive 4 KiB pages of offset rotate across the DIMMs, then the ranks, then the bank groups, of
which DDR5 has eight. The order, and eight, are the model's (log entry 77). -/
def Core.ddrPlace (c : Core) (a : Nat) : Nat :=
  let p := c.ddrOffset a / 4096
  let nd := if c.bit Reg.ddrStatus 2 then 2 else 1
  let nr := max c.ddrRanks 1
  let q := p / nd / nr
  p % nd + p / nd % nr % 4 * 2 + q % 8 * 8 + Config.ddrPlace (q / 8) (c.ddrOffset a % 4096 / 64) % 2 ^ 31 * 64

/-! ## Reading memory -/

/-- Whether an address lies in a channel's stripe: the granules rotate over the places, one place further each round (R317, R318). -/
def Stripe.has (t : Stripe) (a : Nat) : Bool :=
  let g := (a - t.base) / t.gran
  decide (t.base ≤ a) && (g + g / t.n) % t.n == t.place

/-- Whether an undefined range covers an address. -/
def Undef.covers (u : Undef) (a : Nat) : Bool := decide (u.lo ≤ a) && decide (a < u.hi) && u.stripe.all fun t => t.has a

/-- The undefined range that covers an address. -/
def undefAt (l : List Undef) (a : Nat) : Option Undef := l.find? fun u => u.covers a

/-- One byte of local memory: what is listed, a free byte where the spec leaves the byte undefined, else zero. -/
def Core.rdByte (c : Core) (a : Nat) : Byte :=
  match undefAt c.undef a with
  | some u => Config.freeByte u.ctr a
  | none => sGet c.mem a 0

/-- `n` bytes of local memory from an address. -/
def Core.rdBytes (c : Core) (a n : Nat) : List Byte := (List.range n).map fun i => c.rdByte (a + i)

/-- The little-endian number in `n` bytes of local memory. -/
def Core.rdNat (c : Core) (a n : Nat) : Nat := leNat (c.rdBytes a n)

/-- Whether a line of local memory, by its number, meets an uncorrectable error when it is read (R320, R523). -/
def Core.isUe (c : Core) (line : Nat) : Bool :=
  c.ue.contains line ||
    (match undefAt c.undef (line * 64) with
    | some u => u.cold && Config.coldUe u.ctr line
    | none => false)

/-- The numbers of the 64-byte lines that a range touches. -/
def linesOf (a n : Nat) : List Nat := if n = 0 then [] else (List.range ((a + n - 1) / 64 - a / 64 + 1)).map (a / 64 + ·)

/-! ## Writing memory -/

/-- A list of undefined ranges without the bytes [lo, hi). -/
def undefCut (l : List Undef) (lo hi : Nat) : List Undef :=
  l.flatMap fun u =>
    if u.hi ≤ lo ∨ hi ≤ u.lo then [u]
    else (if u.lo < lo then [{ u with hi := lo }] else []) ++ (if hi < u.hi then [{ u with lo := hi }] else [])

/-- Consecutive bytes put into a byte list. -/
def putBytes (m : List Host.Cell) (a : Nat) : List Byte → List Host.Cell
  | [] => m
  | b :: bs => putBytes (sPut m a b 0) (a + 1) bs

/-- Bytes stored in local memory, whatever the state of their lines. -/
def Core.poke (c : Core) (a : Nat) (bs : List Byte) : Core :=
  { c with mem := putBytes c.mem a bs, undef := undefCut c.undef a (a + bs.length) }

/-- The bytes of a range of local memory become undefined, with no page touched. -/
def Core.makeUndef (c : Core) (a n : Nat) : Core :=
  if n = 0 then c
  else { c with undef := { lo := a, hi := a + n, ctr := c.freeCtr, cold := false, stripe := none } :: undefCut c.undef a (a + n),
                freeCtr := c.freeCtr + 1 }

/-- Pages that the outgoing staging of channel 30 holds (R323): 36 GiB of 16 KiB pages. -/
def stagingPages : Nat := 36 * 2 ^ 30 / 2 ^ 14

/-- Whether an HBM page is pending for the running checkpoint and not yet copied (R421). -/
def Core.pagePending (c : Core) (a : Nat) : Bool := decide (a < 0x120_0000_0000) && c.pend.contains (a / 0x4000)

/-- Bytes of the Hatbox and journal streams on the reserved channels (R29, R323, R473); without the reservation there are none. -/
def Core.onReserved (c : Core) (n : Nat) : Core := if c.reserve then c.bump Reg.obsHbmRsv n else c

/-- An uncorrectable error met in HBM line number `l`, counted in HBM_UE and in its channel's field (R320, R343). -/
def Core.countHbmUe (c : Core) (l : Nat) : Core :=
  (c.bump Reg.hbmUe 1).bumpFld16 (Reg.hbmChStatus (c.hbmChannel (l * 64))) 32

/-- The copy of one pending page into the outgoing staging (R422), its uncorrectable lines counted (R320). From then on the page counts
as copied. -/
def Core.copyPage (c : Core) (pg : Nat) : Core :=
  let c1 := { c with pend := c.pend.filter (· != pg), clean := pg :: c.clean.filter (· != pg),
                     pageOut := c.pageOut ++ [(pg, c.rdBytes (pg * 0x4000) 0x4000)] }
  ((((List.range 256).map fun i => pg * 256 + i).filter c.isUe).foldl Core.countHbmUe (c1.bump Reg.obsHbmRd 0x4000)).onReserved 0x4000

/-- A page that a change reaches is first copied if a checkpoint awaits it (R422), and counts as changed (R420). The K-ticks
that the change waits for the copy, a time the model does not hold, count in HB_COW_WAIT. -/
def Core.touchPage (c : Core) (a : Nat) : Core :=
  if a < 0x120_0000_0000 then
    let c1 := if c.pagePending a then (c.copyPage (a / 0x4000)).fresh.2.bump Reg.hbCowWait (Config.freeNat c.freeCtr) else c
    { c1 with clean := c1.clean.filter (· != a / 0x4000) }
  else c

/-- Every page of a range changes (R420, R422). A change that is no single write waits for no room in the staging (log entry 88). -/
def Core.touchRange (c : Core) (a n : Nat) : Core :=
  let meets := fun p => decide (a / 0x4000 ≤ p) && decide (p * 0x4000 < a + n)
  let c1 := (c.pend.filter meets).foldl (fun c p => c.touchPage (p * 0x4000)) c
  { c1 with clean := c1.clean.filter fun p => !(meets p) }

/-- A range of local memory whose bytes are from now on undefined (R95, R103), and whose pages have changed (R420). -/
def Core.scramble (c : Core) (a n : Nat) : Core := if n = 0 then c else (c.touchRange a n).makeUndef a n

/-- WIN_STATUS_n.STATE: 0 idle, 1 open, 2 closing. -/
def Core.winState (c : Core) (n : Nat) : Nat := c.fld (Reg.winStatus n) 1 0

/-- Base and size of a window, and of its staging region. -/
def Core.winRange (c : Core) (n : Nat) : Nat × Nat := (c.fld (Reg.winBase n) 43 0, c.fld (Reg.winSize n) 38 0)

/-- See `Core.winRange`. -/
def Core.winStage (c : Core) (n : Nat) : Nat × Nat := (c.fld (Reg.winStageBase n) 43 0, c.fld (Reg.winStageSize n) 38 0)

/-- Whether an address lies in a range given as base and size. -/
def inRange (r : Nat × Nat) (a : Nat) : Bool := decide (r.1 ≤ a) && decide (a < r.1 + r.2)

/-- The open or closing window whose staging region holds a local address. -/
def Core.stageAt (c : Core) (a : Nat) : Option Nat :=
  (List.range 16).find? fun n => decide (c.winState n ≠ 0) && inRange (c.winStage n) a

/-- What a write into the staging region of an open or closing window spoils (R334): its own bytes, and the window's sums. -/
def Core.spoil (c : Core) (a n : Nat) : Core :=
  match c.stageAt a with
  | none => c
  | some w => { c.makeUndef a n with spoilt := if c.spoilt.contains w then c.spoilt else w :: c.spoilt }

/-- Bytes of one line changed now: its page touched, the bytes stored. -/
def Core.change (c : Core) (a : Nat) (bs : List Byte) : Core := ((c.touchPage a).poke a bs).spoil a bs.length

/-- Whether a change to a page must wait because its copy finds the staging full (R422). -/
def Core.mustWait (c : Core) (a : Nat) : Bool := c.pagePending a && decide (stagingPages ≤ c.pageOut.length)

/-- A whole-line or partial write of at most one line (R312, R320): a whole line clears an uncorrectable condition; a
partial write of a line that holds one stores nothing. A write that must wait for its page's copy is held for `who` (R422). The
truth value says that the write was not lost. -/
def Core.storeLine (c : Core) (a : Nat) (bs : List Byte) (who : Waiter := .nobody) : Core × Bool :=
  if c.mustWait a then ({ c with cow := c.cow ++ [.write a bs who] }, true)
  else if bs.length ≠ 64 ∧ c.isUe (a / 64) = true then (c, false)
  else
    let c1 := c.change a bs
    (if bs.length = 64 then { c1 with ue := c1.ue.filter (· != a / 64) } else c1, true)

/-- Bytes cut at the boundaries of 64-byte lines, with the address of each part. -/
def cutLines (fuel a : Nat) (bs : List Byte) : List (Nat × List Byte) :=
  match fuel with
  | 0 => []
  | f + 1 =>
    if bs.isEmpty then []
    else
      let n := 64 - a % 64
      (a, bs.take n) :: cutLines f (a + n) (bs.drop n)

/-- Bytes written to local memory for `who`, line by line; the list gives the lines whose write was lost (R320). -/
def Core.store (c : Core) (a : Nat) (bs : List Byte) (who : Waiter := .nobody) : Core × List Nat :=
  (cutLines (bs.length + 1) a bs).foldl
    (fun (acc : Core × List Nat) (p : Nat × List Byte) =>
      let r := acc.1.storeLine p.1 p.2 who
      (r.1, if r.2 then acc.2 else acc.2 ++ [p.1 / 64]))
    (c, [])

/-- The operations that memory holds back: writes and accumulates that wait for a page's copy (R422) and ADDs that wait for the
close of their window (R336). -/
def Core.heldOps (c : Core) : Nat := c.cow.length + c.late.length

/-- Bytes written to local memory by the module itself, where nothing waits and no line holds an error. -/
def Core.write (c : Core) (a : Nat) (bs : List Byte) : Core := (c.store a bs).1

/-- All tile SRAM set to zero (R523). -/
def Core.zeroSram (c : Core) : Core :=
  { c with mem := c.mem.filter fun p => decide (p.1 < 0x400_0000_0000) || decide (0x7F0_0000_0000 ≤ p.1),
           undef := undefCut c.undef 0x400_0000_0000 0x7F0_0000_0000,
           ue := c.ue.filter fun l => decide (l * 64 < 0x400_0000_0000) || decide (0x7F0_0000_0000 ≤ l * 64) }

/-- HBM and DDR after a start that does not keep them: arbitrary in every byte (R523). -/
def Core.loseMemory (c : Core) : Core :=
  let c1 := c.makeUndef 0 0x120_0000_0000
  let c2 := c1.makeUndef 0x800_0000_0000 0x800_0000_0000
  { c2 with mem := c.mem.filter fun p => decide (0x400_0000_0000 ≤ p.1) && decide (p.1 < 0x7F0_0000_0000), ue := [],
            undef := c2.undef.map fun u => { u with cold := true }, staged := [], late := [], spoilt := [] }

/-- The stripe of a memory channel: 0 to 383 of HBM, 384 to 399 of DDR (R317, R318). -/
def Core.stripe (c : Core) (ch : Nat) : Stripe :=
  if ch < 384 then { base := 0, gran := c.hbmGranule, n := if c.reserve then 360 else 384, place := ch % 32 * 12 + ch / 32 }
  else { base := 0x800_0000_0000, gran := c.ddrGranule, n := 16, place := ch - 384 }

/-- A memory channel that failed its check and was trained in full: what it held is lost (R457). -/
def Core.loseChannel (c : Core) (ch : Nat) : Core :=
  let t := c.stripe ch
  { c with undef := { lo := t.base, hi := t.base + (if ch < 384 then 0x120_0000_0000 else 0x800_0000_0000), ctr := c.freeCtr, cold := true,
                      stripe := some t } :: c.undef,
           freeCtr := c.freeCtr + 1, ue := c.ue.filter fun l => !(t.has (l * 64)) }

/-! ## Byte counters (R473) -/

/-- Whether an access reads, writes or accumulates. -/
inductive AccessKind where
  | rd | wr | acc
  deriving DecidableEq, Repr

/-- The counters of `n` bytes served at a local memory, whatever their source (R473). -/
def Core.countServed (c : Core) (k : AccessKind) (a n : Nat) : Core :=
  match c.place a, k with
  | .hbm, .rd => c.bump Reg.obsHbmRd n
  | .hbm, .wr => c.bump Reg.obsHbmWr n
  | .hbm, .acc => c.bump Reg.obsHbmAcc n
  | .ddr, .rd => c.bump Reg.obsDdrRd n
  | .ddr, .wr => c.bump Reg.obsDdrWr n
  | _, _ => c

/-- The byte counters of tile `t` for an access of `n` bytes at a global address over plane `p` (0 D, 1 G, 2 A, 3 C).
An access to the tile's own SRAM never leaves the tile and is not counted. Bytes sent onto the plane are the data of
writes and accumulates. -/
def Core.countAccess (c : Core) (t p : Nat) (k : AccessKind) (ga n : Nat) : Core :=
  let out := fun (c : Core) => match k with
    | .rd => c
    | _ => c.bump (Reg.tcntPlane t p) n
  if c.isLocal ga then
    match c.place (gaLocal ga), k with
    | .sram u, .rd => if u = t then c else c.bump (Reg.tcntSramRd t) n
    | .sram u, .wr => if u = t then c else out (c.bump (Reg.tcntSramWr t) n)
    | .hbm, .rd => c.countServed .rd (gaLocal ga) n |>.bump (Reg.tcntHbmRd t) n
    | .hbm, .wr => out ((c.countServed .wr (gaLocal ga) n).bump (Reg.tcntHbmWr t) n)
    | .hbm, .acc => out (c.bump (Reg.tcntHbmAcc t) n)
    | .ddr, .rd => c.countServed .rd (gaLocal ga) n |>.bump (Reg.tcntDdrRd t) n
    | .ddr, .wr => out ((c.countServed .wr (gaLocal ga) n).bump (Reg.tcntDdrWr t) n)
    | _, _ => c
  else
    match k with
    | .rd => c.bump (Reg.tcntRemoteRd t) n
    | _ => out (c.bump (Reg.tcntRemoteWr t) n)

/-! ## Queues inside the module (R395 to R398) -/

/-- The ring's number of entries (R395). -/
def Core.qSize (c : Core) (q : Nat) : Nat := 2 ^ (c.fld (Reg.qCfg q) 31 28 + 6)

/-- Entries between HEAD and TAIL, both 32-bit counts. -/
def Core.qUsed (c : Core) (q : Nat) : Nat :=
  (c.fld (Reg.qTail q) 31 0 + 2 ^ 32 - c.fld (Reg.qHead q) 31 0) % 2 ^ 32

/-- Room left in a ring. -/
def Core.qRoom (c : Core) (q : Nat) : Nat := c.qSize q - c.qUsed q

/-- The local address of ring entry `i`. -/
def Core.qSlot (c : Core) (q i : Nat) : Nat := gaLocal (c.fld (Reg.qRing q) 55 0) + 64 * (i % c.qSize q)

/-- One 64-byte entry written at TAIL, and TAIL advanced. -/
def Core.qPush (c : Core) (q : Nat) (e : List Byte) : Core :=
  let tail := c.fld (Reg.qTail q) 31 0
  ((c.write (c.qSlot q tail) (bytesAt e 0 64)).countServed .wr (c.qSlot q tail) 64).setFld (Reg.qTail q) 31 0 (tail + 1)

/-- Whether partner context `x` is live (R393); the management context always is. -/
def Core.pcLive (c : Core) (x : Nat) : Bool := c.bit (Reg.pcStatus x) 0

/-- Whether a queue is enabled. -/
def Core.qEn (c : Core) (q : Nat) : Bool := c.bit (Reg.qCfg q) 0

/-- An error entry delivered to queue 16,383, or dropped and counted in ERRQ_LOST when the queue is disabled, full, or
bound to a context that is not live (R107, R398). A loss is the Doff event 7 of R478. -/
def Core.errPush (c : Core) (e : List Byte) : Core :=
  let q := 16383
  if c.qEn q && decide (0 < c.qRoom q) && c.pcLive (c.fld (Reg.qCfg q) 19 8) then c.qPush q e
  else
    let c1 := if c.qEn q && decide (c.qRoom q = 0) then c.setBit (Reg.qStatus q) 0 true else c
    { (c1.bumpSat Reg.errqLost 1) with events := c1.events ++ [7] }

/-- The fields of an error entry that its source gives (R106). -/
structure ErrInfo where
  type : Nat
  status : Nat := 0
  engine : Nat := 0
  context : Nat := 0xFF
  tile : Nat := 0
  gen : Nat := 0
  cookie : Nat := 0
  other : Nat := 0
  ueCount : Nat := 0
  addr : Nat := 0
  tensor : Nat := 0
  record : Nat := 0xFF
  queue : Nat := 0xFFFF
  event : Nat := 0
  head : List Byte := []
  deriving DecidableEq, Repr

/-- The 64 bytes of an error entry (R106); STEP and TIME are taken when it is made. -/
def Core.errBytes (c : Core) (e : ErrInfo) : List Byte :=
  leBytes 1 e.type ++ leBytes 1 e.status ++ leBytes 1 e.engine ++ leBytes 1 e.context ++ leBytes 2 e.tile ++
  leBytes 2 e.gen ++ leBytes 4 e.cookie ++ leBytes 2 e.other ++ leBytes 2 e.ueCount ++ leBytes 8 c.step ++
  leBytes 8 c.now.toNat ++ leBytes 8 e.addr ++ leBytes 4 e.tensor ++ leBytes 1 e.record ++ leBytes 1 e.event ++
  leBytes 2 e.queue ++ bytesAt e.head 0 16

/-- An error entry made and delivered (R106, R107). -/
def Core.err (c : Core) (e : ErrInfo) : Core := c.errPush (c.errBytes e)

/-- A block event, TYPE 0x03, with EVENT at 0x2D and UNIT at 0x38. DEDUCED: R283 alone lays such an entry out, and every
other block's event takes the same places. -/
def Core.blockEvent (c : Core) (event unit addr : Nat) : Core :=
  c.err { type := 3, event := event, addr := addr, head := leBytes 8 0 ++ leBytes 4 unit }

/-- The error entry of a plain thread access (R75, R320, R391): TYPE 0x02 with the context, tile and address. -/
def Core.threadErr (c : Core) (t n status addr : Nat) : Core :=
  c.err { type := 2, status := status, context := n, tile := t, addr := addr }

/-! ## Messages to other modules (R76, R387 to R391) -/

/-- The next hop towards a module: MOD_ROUTE_m.HOP. The entry for the module's own number is ignored (R387). -/
def Core.hop (c : Core) (m : Nat) : Nat := if c.isSet && m == c.moduleNo then 0 else c.fld (Reg.modRoute m) 3 0

/-- The KIND 4 context that leads to a module behind a port (R387, R392). -/
def Core.ctxTo (c : Core) (m : Nat) : Option Nat :=
  if 13 ≤ c.hop m ∧ c.hop m ≤ 14 then some (c.fld (Reg.modRoute m) 27 16) else none

/-- Whether a module can be reached now: its HOP names a link that is UP or RECOVERY, or a port whose KIND 4 context is
live (R387, R391). -/
def Core.reachable (c : Core) (m : Nat) : Bool :=
  let h := c.hop m
  if h = 0 then false
  else if h ≤ 12 then decide (2 ≤ c.fld (Reg.qlStatus (h - 1)) 1 0)
  else if h ≤ 14 then
    c.pcLive (c.fld (Reg.modRoute m) 27 16) && c.fld (Reg.pcCtrl (c.fld (Reg.modRoute m) 27 16)) 2 0 == 4
  else false

/-- A message queued for its route, with its class (0 D, 1 G, 2 A, 3 C, 4 H). -/
def Core.send (c : Core) (dest cls : Nat) (bytes : List Byte) : Core :=
  { c with msgOut := c.msgOut ++ [{ src := c.moduleNo, dest := dest, cls := cls, link := 12, tick := 0, bytes := bytes }] }

/-- A message of this module begins to leave: a line group counts in RED_SENT_GROUPS (R362). -/
def Core.groupLeft (c : Core) (m : Msg) : Core :=
  if m.cls = 2 ∧ m.src = c.moduleNo ∧ leField m.bytes 0 1 = 2 then c.bump Reg.redSentGroups 1 else c

/-- The Brim die whose ports lead to a module, 0 or 1: QL0 to QL5 and EP0 stand on B0, the others on B1 (R20). -/
def Core.brimOf (c : Core) (m : Nat) : Nat := if (1 ≤ c.hop m ∧ c.hop m ≤ 6) ∨ c.hop m = 13 then 0 else 1

/-- A free tag of the 8,192 that the die of a module's route holds (R388). The dies take the tags from 0 and from 8,192, so that a
tag names one request. A tag whose request timed out is used again only when no other is free, since its response may still come
(R391). -/
def Core.freeTag (c : Core) (dest : Nat) : Option Nat :=
  let b := 8192 * c.brimOf dest
  let used := c.reqs.map (·.tag)
  let late := (c.lateTags.map (·.1)).filter fun t => !(used.contains t) && t / 8192 == b / 8192
  match (List.range (min 8192 (used.length + late.length + 1))).find? fun t => !(used.contains (b + t)) && !(late.contains (b + t)) with
  | some t => some (b + t)
  | none => late.head?

/-- A number that no request has, from `lo` up. -/
def Core.spareNo (c : Core) (lo : Nat) : Nat :=
  lo + ((List.range (c.reqs.length + 1)).find? fun t => !(c.reqs.any fun r => r.tag == lo + t)).getD 0

/-- A request remembered until its response, REMOTE_TIMEOUT or the loss of its route ends it (R391), under a number. -/
def Core.remember (c : Core) (no dest cls : Nat) (w : Waiter) (msg : List Byte) : Core :=
  { c with reqs := c.reqs ++ [{ tag := no, dest := dest, cls := cls, since := c.now.toNat, limit := c.fld Reg.remoteTimeout 31 0,
                                waiter := w, full := false, msg := msg }],
           lateTags := c.lateTags.filter fun l => l.1 != no }

/-- A request sent with a tag and remembered; one that finds no tag free waits for one (R388). `mk` lays the message out from
its tag. -/
def Core.request (c : Core) (dest cls : Nat) (w : Waiter) (mk : Nat → List Byte) : Core :=
  match c.freeTag dest with
  | some t => (c.send dest cls (mk t)).remember t dest cls w (mk t)
  | none => c.remember (c.spareNo 0x1_0000) dest cls w (mk 0)

/-- A message of the Hatbox streams whose answer is awaited: it carries no tag, and its number is 2^64 or more. -/
def Core.requestHatbox (c : Core) (dest : Nat) (msg : List Byte) : Core :=
  (c.send dest 4 msg).remember (c.spareNo (2 ^ 64)) dest 4 .hatbox msg

/-- Whether a request still waits for a tag. -/
def Req.tagless (r : Req) : Bool := decide (0x1_0000 ≤ r.tag) && decide (r.tag < 2 ^ 64)

/-- A message with a tag put in its bytes 2 and 3 (R388). -/
def withTag (msg : List Byte) (t : Nat) : List Byte := msg.take 2 ++ leBytes 2 t ++ msg.drop 4

/-- A request that waited for a tag sent, if there is one now (R388). -/
def Core.issueTag (c : Core) (r : Req) : Core :=
  match c.freeTag r.dest with
  | some t =>
    { (c.send r.dest r.cls (withTag r.msg t)) with
      lateTags := c.lateTags.filter (fun l => l.1 != t),
      reqs := c.reqs.map fun q => if q.tag = r.tag then { q with tag := t, msg := withTag r.msg t, since := c.now.toNat } else q }
  | none => c

/-- The requests that wait for a tag sent, oldest first, as far as tags are free. -/
def Core.issueTags (c : Core) : Core := (c.reqs.filter Req.tagless).foldl Core.issueTag c

/-- READ_REQ (R388). -/
def msgReadReq (addr len tag : Nat) : List Byte := [0x10, 0] ++ leBytes 2 tag ++ leBytes 4 len ++ leBytes 7 addr ++ [0]

/-- Bytes padded with zeros to a multiple of 16 (R388). -/
def pad16 (bs : List Byte) : List Byte := bs ++ List.replicate (roundUp bs.length 16 - bs.length) 0

/-- READ_RESP (R388). -/
def msgReadResp (status tag : Nat) (bs : List Byte) : List Byte :=
  leBytes 1 0x11 ++ leBytes 1 status ++ leBytes 2 tag ++ leBytes 4 bs.length ++ leBytes 8 0 ++ pad16 bs

/-- WRITE (R388). -/
def msgWriteBytes (addr tag : Nat) (bs : List Byte) : List Byte :=
  [0x12, 0] ++ leBytes 2 tag ++ leBytes 4 bs.length ++ leBytes 7 addr ++ [0] ++ pad16 bs

/-- WRITE_ACK, ACCUM_ACK and QUEUE_ACK: KIND, STATUS and TAG in 16 bytes (R388). -/
def msgAck (kind status tag : Nat) : List Byte :=
  leBytes 1 kind ++ leBytes 1 status ++ leBytes 2 tag ++ List.replicate 12 0

/-- ACCUM (R388): OP 0 ADD, 1 BITSET, 2 ZERO. -/
def msgAccum (op tag rank mask addr : Nat) (bs : List Byte) : List Byte :=
  leBytes 1 0x14 ++ leBytes 1 op ++ leBytes 2 tag ++ leBytes 2 rank ++ leBytes 2 mask ++ leBytes 7 addr ++ [0] ++
  bytesAt bs 0 64

/-- QUEUE_PUSH (R388). -/
def msgQueuePush (n tag queue : Nat) (bs : List Byte) : List Byte :=
  leBytes 1 0x16 ++ leBytes 1 n ++ leBytes 2 tag ++ leBytes 2 queue ++ leBytes 10 0 ++ bytesAt bs 0 (64 * n)

/-- Bytes cut into parts of at most `k`, with offsets. -/
def chunks (fuel k : Nat) (o : Nat) (bs : List Byte) : List (Nat × List Byte) :=
  match fuel with
  | 0 => []
  | f + 1 => if bs.isEmpty then [] else (o, bs.take k) :: chunks f k (o + k) (bs.drop k)

/-- A write to another module: WRITE messages of at most 4,096 bytes, each an outstanding request of the waiter. -/
def Core.remoteWrite (c : Core) (ga : Nat) (bs : List Byte) (w : Waiter) : Core :=
  (chunks (bs.length + 1) 4096 0 bs).foldl
    (fun c p => c.request (gaModule ga) 1 w fun tag => msgWriteBytes (ga + p.1) tag p.2) c

/-- What the core puts on its outside. -/
def Core.emit (c : Core) (o : Out) : Core := { c with outbox := c.outbox ++ [o] }

/-! ## A write of the module to a global address -/

/-- The completion of a write to a global address: what memory did, or where the message went. `lost` lists local lines
whose partial write met an uncorrectable error (R320); `down` says that the route was unreachable (R391), `unset` that MODULE_NO is
not set, so that every address is remote and refused (R77). -/
structure WriteEnd where
  core : Core
  lost : List Nat
  down : Bool
  unset : Bool

/-- Bytes written to a global address by an agent of tile `t` over plane `p`, for the waiter `w` (R76, R391, R473). -/
def Core.writeG (c : Core) (t p ga : Nat) (bs : List Byte) (w : Waiter) : WriteEnd :=
  let c1 := c.countAccess t p .wr ga bs.length
  if c1.isLocal ga then
    let r := c1.store (gaLocal ga) bs w
    { core := r.1, lost := r.2, down := false, unset := false }
  else if c1.isRemote ga && c1.reachable (gaModule ga) then
    { core := c1.remoteWrite ga bs w, lost := [], down := false, unset := false }
  else { core := c1, lost := [], down := c1.isSet, unset := !c1.isSet }

/-! ## Doff triggers (R477, R478, R480) -/

/-- A DOFF message (R480). -/
def msgDoff (hops seq origin fire : Nat) : List Byte :=
  leBytes 1 0x18 ++ leBytes 1 hops ++ leBytes 2 seq ++ leBytes 2 (origin % 4096) ++ leBytes 2 0 ++ leBytes 8 fire

/-- A message that leaves by one named link, to the neighbour there (QL_STATUS.PEER). -/
def Core.sendOn (c : Core) (l cls : Nat) (bytes : List Byte) : Core :=
  { c with msgOut := c.msgOut ++
      [{ src := c.moduleNo, dest := c.fld (Reg.qlStatus l) 27 16, cls := cls, link := l, tick := 0, bytes := bytes }] }

/-- The DOFF messages of a Doff taken at `hops` hops from its origin: one on each link of DOFF_FWD but the one it arrived
on, none once the hops have reached MAX_HOPS (R480). -/
def Core.doffForward (c : Core) (hops seq origin fire from_ : Nat) : Core :=
  if c.fld Reg.doffCtrl 19 16 ≤ hops then c
  else ((List.range 12).filter fun l => c.bit Reg.doffFwd l && l != from_).foldl
    (fun c l => c.sendOn l 3 (msgDoff hops seq origin fire)) c

/-- A Doff taken: armed at `fire`, with its identity, and forwarded (R477, R480, R481). -/
def State.doffArm (s : State) (source fire origin seq hops from_ : Nat) : State :=
  let c1 := ((s.core.setFld Reg.doffStatus 1 0 1).setFld Reg.doffStatus 4 2 source).wr Reg.doffTime (BitVec.ofNat 64 fire)
  let c2 := c1.wr Reg.doffId (BitVec.ofNat 64 (origin % 4096 + 2 ^ 16 * (seq % 2 ^ 16) + 2 ^ 32 * (hops % 256)))
  { s with core := c2.doffForward hops seq origin fire from_,
           pwr := { s.pwr with doffFire := some fire, doffIdent := some (origin, seq), doffHops := hops, doffFrom := from_ } }

/-- A Doff of this module taken at tick `t` (R477, R480). -/
def State.doffOwn (s : State) (source t : Nat) : State :=
  let seq := (s.pwr.doffSeq + 1) % 2 ^ 16
  let s1 := s.doffArm source (t + s.core.fld Reg.doffLead 19 0) s.core.moduleNo seq 0 12
  { s1 with pwr := { s1.pwr with doffSeq := seq, doffTook := some t } }

/-- The DOFF messages of a Doff that another trigger of the same tick displaces, taken back. -/
def State.doffUnsend (s : State) : State :=
  match s.pwr.doffIdent with
  | some (origin, seq) =>
    let out := msgDoff s.pwr.doffHops seq origin (s.core.rd Reg.doffTime).toNat
    { s with core := { s.core with msgOut := s.core.msgOut.filter fun m => m.bytes != out } }
  | none => s

/-- A trigger of this module at tick `t` (R477): taken while DOFF_STATUS.STATE is idle, else counted in DOFF_IGNORED. One that stands higher
in the table than the trigger taken in the same tick takes its place, and that one counts: another trigger of this module has the same T_fire
and identity, so that SOURCE alone differs; a message gives way with what it would have forwarded. -/
def State.doffTrigger (s : State) (source t : Nat) : State :=
  if s.core.fld Reg.doffStatus 1 0 = 0 then s.doffOwn source t
  else
    let s1 : State := { s with core := s.core.bump Reg.doffIgnored 1 }
    if s.core.fld Reg.doffStatus 1 0 = 1 ∧ s.pwr.doffTook = some t ∧ source < s.core.fld Reg.doffStatus 4 2 then
      if s.core.fld Reg.doffStatus 4 2 = 3 then s1.doffUnsend.doffOwn source t
      else { s1 with core := s1.core.setFld Reg.doffStatus 4 2 source }
    else s1

/-- The events of R478 raised by a command, each a trigger when DOFF_EVENTS selects it. -/
def State.settle (s : State) : State :=
  let s0 : State := { s with core := { s.core with events := [] } }
  s.core.events.foldl (fun s e => if s.core.bit Reg.doffEvents e then s.doffTrigger 2 s.core.now.toNat else s) s0

/-- The core changed. -/
def State.onCore (s : State) (f : Core → Core) : State := { s with core := f s.core }

/-! ## Power and clocks (R439, R450, R453) -/

/-- The state in force: 0 to 4 for S0 to S4 (R470). -/
def Core.sleepState (c : Core) : Nat := c.fld Reg.sleepStatus 2 0

/-- Whether the blocks outside the always-on domain have power and are out of reset: VDD_AON is up, no trip holds them (R453), and the
module is not in S4 (R454). -/
def State.alive (s : State) : Bool := s.pwr.powered && !s.pwr.tripped && s.core.sleepState != 4

/-- Whether the divided clocks have edges: the blocks are alive and no level change has paused them (R450). -/
def State.ticking (s : State) : Bool := s.alive && !(s.core.bit Reg.clkStatus 7)

/-- The outcome of a command whose blocks run on the divided clocks (R450, R453, log entry 98). -/
def State.clocked (s : State) (o : Host.Outcome State Fault Refusal) : Host.Outcome State Fault Refusal := if s.ticking then o else .next s

/-- The outcome of a command whose blocks run on clocks of their own: links, ports, and what serves Bare mode (R436, R450, R453). -/
def State.whenAlive (s : State) (o : Host.Outcome State Fault Refusal) : Host.Outcome State Fault Refusal := if s.alive then o else .next s

end Sys2Proof.Machine
end

