-- ==== Sys2Proof/Machine/Wear.lean ====
section
/-! DEFINITION. Margins and the objects that are due for Darn (R431, R432). -/

namespace Sys2Proof.Machine

/-- An object due: MARGIN_o.DUE, kept until it is replaced (R432, R433). -/
def Core.addDue (c : Core) (kind o : Nat) : Core :=
  if c.due.contains (kind, o) then c
  else ({ c with due := c.due ++ [(kind, o)] } : Core).setBit (Reg.margin o) 24 true

/-- An object with no spare left of its kind: EXHAUSTED and EVENT 0x53, once; it stays in service (R432). -/
def Core.exhaust (c : Core) (o : Nat) : Core :=
  if c.bit (Reg.margin o) 25 then c else (c.setBit (Reg.margin o) 25 true).blockEvent 0x53 o 0

/-- An object becomes due, or is exhausted when its kind has no spare left (R432). -/
def Core.markDue (c : Core) (kind o : Nat) (spare : Bool) : Core :=
  if spare then c.addDue kind o else c.exhaust o

/-- An object no longer due: DUE stays while another kind of the same object is due. -/
def Core.dropDue (c : Core) (kind o : Nat) : Core :=
  let c1 : Core := { c with due := c.due.filter (· != (kind, o)) }
  c1.setBit (Reg.margin o) 24 (c1.due.any fun p => p.2 == o)

/-- Objects that are due (DARN_STATUS[31:24]). -/
def Core.dueCount (c : Core) : Nat := (c.due.map (·.2)).eraseDups.length

/-- A measurement put into MARGIN_o (R431, R435), and whether it makes the object due (R432): its margin is below FLOOR for
the CONSEC-th time running, or below half of FLOOR. -/
def Core.measure (c : Core) (o margin lane : Nat) : Core × Bool :=
  let floor := c.fld Reg.darnCtrl 15 8
  let m := min margin 255
  let below := if m < floor then min (c.fld (Reg.margin o) 23 16 + 1) 255 else 0
  let c1 := ((c.setFld (Reg.margin o) 7 0 m).setFld (Reg.margin o) 15 8 lane).setFld (Reg.margin o) 23 16 below
  (c1, decide (0 < below ∧ c.fld Reg.darnCtrl 19 16 ≤ below) || decide (2 * m < floor))

/-- The worst of the latest margins of an object's lanes and its lane, the one given unless another is worse. -/
def worstOf (ls : List (Nat × Nat × Nat)) (o lane margin : Nat) : Nat × Nat :=
  (ls.filter fun p => p.1 == o).foldl (fun (b : Nat × Nat) p => if p.2.2 < b.1 then (p.2.2, p.2.1) else b) (margin, lane)

end Sys2Proof.Machine
end

