-- ==== Sys2Proof/Machine/Adders.lean ====
section
/-! DEFINITION. The memory controllers and the accumulate adders (spec/11_memory_and_adders.md): the three adder
operations, ranked windows, scrub reads and error counts. -/

namespace Sys2Proof.Machine

/-! ## Lines as FP32 lanes -/

/-- The sixteen FP32 lanes of 64 bytes. -/
def lanesOf (bs : List Byte) : List Lane := (List.range 16).map fun i => BitVec.ofNat 32 (leField bs (4 * i) 4)

/-- The bytes of lanes. -/
def lanesBytes (ls : List Lane) : List Byte := ls.flatMap fun l => leBytes 4 l.toNat

/-- The sixteen lanes of the line that holds a local address. -/
def Core.lineLanes (c : Core) (a : Nat) : List Lane := lanesOf (c.rdBytes (a / 64 * 64) 64)

/-- The masked lanes of a line after an ADD (R324, R325). -/
def addLanes (mask : BitVec 16) (line payload : List Lane) : List Lane :=
  (List.range 16).map fun i =>
    if mask.getLsbD i then fAdd (line.getD i 0) (payload.getD i 0) else line.getD i 0

/-- The lanes that an ADD counts as non-finite (R339). -/
def addNonfinite (mask : BitVec 16) (line payload : List Lane) : Nat :=
  ((List.range 16).filter fun i =>
    mask.getLsbD i && (!isFinL (payload.getD i 0) ||
      (isFinL (line.getD i 0) && !isFinL (fAdd (line.getD i 0) (payload.getD i 0))))).length

/-! ## Windows (R332 to R338) -/

/-- Whether two ranges share a byte. -/
def rangesMeet (r q : Nat × Nat) : Bool := decide (r.1 < q.1 + q.2) && decide (q.1 < r.1 + r.2)

/-- The open or closing window that holds a local address. -/
def Core.windowAt (c : Core) (a : Nat) : Option Nat :=
  (List.range 16).find? fun n => decide (c.winState n ≠ 0) && inRange (c.winRange n) a

/-- A range that R332 admits: 64 KiB aligned, 64 KiB to 256 GiB in steps of 64 KiB, in HBM job space. -/
def Core.winRangeOk (c : Core) (r : Nat × Nat) : Bool :=
  decide (r.1 % 0x1_0000 = 0) && decide (r.2 % 0x1_0000 = 0) && decide (0x1_0000 ≤ r.2) && decide (r.2 ≤ 2 ^ 38) &&
  decide (r.1 + r.2 ≤ if c.reserve then 0x10E_0000_0000 else 0x120_0000_0000)

/-- Whether OPEN of a window is refused (R332). A window whose OPEN has not yet taken effect counts as open. -/
def Core.winBad (c : Core) (n : Nat) : Bool :=
  !(c.winRangeOk (c.winRange n)) || !(c.winRangeOk (c.winStage n)) || rangesMeet (c.winRange n) (c.winStage n) ||
  (List.range 16).any fun m =>
    decide (m ≠ n) && (decide (c.winState m ≠ 0) || c.bit (Reg.winCtrl m) 0) &&
    (rangesMeet (c.winRange n) (c.winRange m) || rangesMeet (c.winRange n) (c.winStage m) ||
     rangesMeet (c.winStage n) (c.winRange m) || rangesMeet (c.winStage n) (c.winStage m))

/-- The number of granules below granule index `x` that lie on HBM channel `ch` (R317). -/
def granulesBelow (n ch x : Nat) : Nat :=
  let j := 12 * (ch % 32) + ch / 32
  if n ≤ j then 0 else x / n + (if (j + n - x / n % n) % n < x % n then 1 else 0)

/-- The staging lines L_c of window `n` on channel `ch` (R334). -/
def Core.stageLines (c : Core) (n ch : Nat) : Nat :=
  let g := c.hbmGranule
  let k := if c.reserve then 360 else 384
  let r := c.winStage n
  (granulesBelow k ch ((r.1 + r.2) / g) - granulesBelow k ch (r.1 / g)) * (g / 64)

/-- The entries that channel `ch` holds for window `n` (R334). -/
def Core.stageCap (c : Core) (n ch : Nat) : Nat := 8 * (c.stageLines n ch / 18)

/-- The local address of a staged entry's line. -/
def Core.stagedAddr (c : Core) (s : Staged) : Nat := (c.winRange s.win).1 + 64 * s.line

/-- Entries staged on a channel for one window. -/
def Core.stagedOn (c : Core) (n ch : Nat) : Nat :=
  (c.staged.filter fun s => s.win == n && c.hbmChannel (c.stagedAddr s) == ch).length

/-- NONREPRO set on a window; setting it is the Doff event 6 of R478. -/
def Core.nonRepro (c : Core) (n : Nat) : Core :=
  { (c.setBit (Reg.winStatus n) 3 true) with events := c.events ++ [6] }

/-! ## The three operations (R324 to R327) -/

/-- Whether an adder operation is refused for its target (R326). Reserved channels have no address of their own. -/
def Core.addRefused (c : Core) (a : Nat) : Bool :=
  decide (c.place a ≠ .hbm) || c.bit (Reg.addChStatus (c.hbmChannel a)) 0

/-- A refused operation counts in ADD_REFUSED. -/
def Core.addRefuse (c : Core) : Core × Nat := (c.bump Reg.addRefused 1, 0x15)

/-- An operation whose read half met an uncorrectable error (R327). -/
def Core.addUeHit (c : Core) (a : Nat) : Core × Nat :=
  ((c.bump Reg.addUe 1).countHbmUe (a / 64), 0x22)

/-- The lanes of a line after an ADD, with the counts of R339. -/
def Core.addSum (c : Core) (a : Nat) (mask : BitVec 16) (lanes : List Lane) : Core :=
  let l := a / 64 * 64
  let old := c.lineLanes l
  let nf := addNonfinite mask old lanes
  let c1 := c.change l (lanesBytes (addLanes mask old lanes))
  let c2 := (c1.bump Reg.addNonfinite nf).bump (Reg.addChNonfinite (c.hbmChannel l)) nf
  { c2 with nfTotal := c2.nfTotal + nf }

/-- A line replaced by an ADD now, counted in ADD_CH_LINES. -/
def Core.addNow (c : Core) (a : Nat) (mask : BitVec 16) (lanes : List Lane) : Core :=
  (c.addSum a mask lanes).bump (Reg.addChLines (c.hbmChannel (a / 64 * 64))) 1

/-- An ADD in arrival mode: the line is read, changed and written as one unit, counted in ADD_LINES. -/
def Core.addArrival (c : Core) (a : Nat) (mask : BitVec 16) (lanes : List Lane) : Core × Nat :=
  if c.isUe (a / 64) then c.addUeHit a
  else ((c.addNow a mask lanes).bump Reg.addLines 1, 0)

/-- PEAK raised to the count staged on a channel (R341), and that count shown in ADD_CH_STATUS.STAGED. -/
def Core.noteStaged (c : Core) (n ch : Nat) : Core :=
  let k := c.stagedOn n ch
  let all := (c.staged.filter fun s => c.hbmChannel (c.stagedAddr s) == ch).length
  let c1 := c.setFld (Reg.addChStatus ch) 47 16 all
  if c1.fld (Reg.winStatus n) 47 16 < k then c1.setFld (Reg.winStatus n) 47 16 k else c1

/-- An ADD at the adder of its line: staged in an open window, waiting at a closing one, else added on arrival
(R333 to R337). Answers the status of its acknowledgement, 0 also while the operation is held for `who` (`Core.heldOps` tells). -/
def Core.adderAdd (c : Core) (a rank : Nat) (mask : BitVec 16) (lanes : List Lane) (who : Waiter := .nobody) : Core × Nat :=
  let c0 := c.countServed .acc a 64
  if c.addRefused a then c0.addRefuse
  else
    match c.windowAt a with
    | none =>
      if c.mustWait a then ({ c0 with cow := c0.cow ++ [.add a rank mask lanes who] }, 0) else c0.addArrival a mask lanes
    | some n =>
      if c.winState n = 2 then
        ({ c0 with late := c0.late ++ [{ win := n, addr := a / 64 * 64, rank := rank, mask := mask, lanes := lanes, who := who }] }, 0)
      else
        let ch := c.hbmChannel a
        if c.stagedOn n ch < c.stageCap n ch then
          let e : Staged := { win := n, line := (a - (c.winRange n).1) / 64, rank := rank, mask := mask, lanes := lanes }
          ((({ c0 with staged := c0.staged ++ [e] } : Core).bump Reg.addStaged 1).noteStaged n ch, 0)
        else
          let c1 := (c0.bump Reg.addOverflow 1).nonRepro n
          if c.mustWait a then ({ c1 with cow := c1.cow ++ [.add a rank mask lanes who] }, 0) else c1.addArrival a mask lanes

/-- BITSET applied now: the line OR a 64-byte mask (R324, R327). -/
def Core.bitsetNow (c0 : Core) (a : Nat) (bs : List Byte) : Core × Nat :=
  if c0.isUe (a / 64) then c0.addUeHit a
  else
    let l := a / 64 * 64
    (((c0.change l (List.zipWith (· ||| ·) (c0.rdBytes l 64) (bytesAt bs 0 64))).bump
      (Reg.addChLines (c0.hbmChannel l)) 1).bump Reg.addLines 1, 0)

/-- BITSET (R324), held for `who` while its page waits for its copy. -/
def Core.adderBitset (c : Core) (a : Nat) (bs : List Byte) (who : Waiter := .nobody) : Core × Nat :=
  let c0 := (c.countServed .acc a 64).bump Reg.addBitsets 1
  if c.addRefused a then c0.addRefuse
  else if c.mustWait a then ({ c0 with cow := c0.cow ++ [.bits a bs who] }, 0)
  else c0.bitsetNow a bs

/-- ZERO applied now: each masked lane set to +0 (R324, R327). -/
def Core.zeroNow (c0 : Core) (a : Nat) (mask : BitVec 16) : Core × Nat :=
  if c0.isUe (a / 64) then c0.addUeHit a
  else
    let l := a / 64 * 64
    let old := c0.lineLanes l
    let new := (List.range 16).map fun i => if mask.getLsbD i then (0 : Lane) else old.getD i 0
    (((c0.change l (lanesBytes new)).bump (Reg.addChLines (c0.hbmChannel l)) 1).bump Reg.addLines 1, 0)

/-- ZERO (R324), held for `who` while its page waits for its copy. -/
def Core.adderZero (c : Core) (a : Nat) (mask : BitVec 16) (who : Waiter := .nobody) : Core × Nat :=
  let c0 := c.countServed .acc a 64
  if c.addRefused a then c0.addRefuse
  else if c.mustWait a then ({ c0 with cow := c0.cow ++ [.zero a mask who] }, 0)
  else c0.zeroNow a mask

/-! ## Window commands -/

/-- OPEN (R332): ignored unless the window is idle; refused with BAD, else pending until it takes effect everywhere. BAD speaks of the
latest OPEN (R341). -/
def Core.winOpen (c : Core) (n : Nat) : Core :=
  if 16 ≤ n ∨ c.winState n ≠ 0 ∨ c.bit (Reg.winCtrl n) 0 = true then c
  else if c.winBad n then c.setBit (Reg.winStatus n) 4 true
  else (c.setBit (Reg.winStatus n) 4 false).setBit (Reg.winCtrl n) 0 true

/-- OPEN takes effect at every adder (R336): STATE reads 1, NONREPRO and PEAK are cleared, and the staging lines no
longer hold defined data (R334). A write into the staging region spoils the sums from here on. -/
def Core.winOpenEffect (c : Core) (n : Nat) : Core :=
  if n < 16 ∧ c.bit (Reg.winCtrl n) 0 = true then
    let c1 := ((c.setBit (Reg.winCtrl n) 0 false).setFld (Reg.winStatus n) 1 0 1).setBit (Reg.winStatus n) 3 false
    let c2 := (c1.setFld (Reg.winStatus n) 47 16 0).scramble (c.winStage n).1 (c.winStage n).2
    { c2 with spoilt := c2.spoilt.filter (· != n) }
  else c

/-- CLOSE (R335): an open window moves to CLOSING. -/
def Core.winClose (c : Core) (n : Nat) : Core :=
  if n < 16 ∧ c.winState n = 1 then (c.setFld (Reg.winStatus n) 1 0 2).setBit (Reg.winCtrl n) 1 true else c

/-- An entry put behind the entries of lower or equal (line, rank): arrival order breaks ties (R335). -/
def stagedInsert (e : Staged) : List Staged → List Staged
  | [] => [e]
  | f :: r =>
    if f.line < e.line ∨ (f.line = e.line ∧ f.rank ≤ e.rank) then f :: stagedInsert e r else e :: f :: r

/-- The entries in the order of the close: by line, rank and arrival. -/
def stagedSort (l : List Staged) : List Staged := l.foldl (fun acc e => stagedInsert e acc) []

/-- One line of the close (R335, R339): read once, the entries `es` of it added in order, and written; a line with an uncorrectable error
keeps it (R327), and one whose page waits for its copy keeps its entries (R422). The sums of a window whose staging region was written
are undefined (R334). -/
def Core.closeLine (c : Core) (n line : Nat) (es : List Staged) : Core :=
  let a := (c.winRange n).1 + 64 * line
  if c.mustWait a then c
  else
    let c1 : Core := { c with staged := c.staged.filter fun s => !(s.win == n && s.line == line) }
    if c.isUe (a / 64) then (c1.addUeHit a).1
    else
      let c2 := (es.foldl (fun c s => c.addSum a s.mask s.lanes) c1).bump (Reg.addChLines (c.hbmChannel a)) 1
      if c.spoilt.contains n then c2.makeUndef a 64 else c2

/-- ADD_CH_STATUS.STAGED brought up to date on every channel. -/
def Core.showStaged (c : Core) (chs : List Nat) : Core :=
  chs.foldl (fun c ch => c.setFld (Reg.addChStatus ch) 47 16
    (c.staged.filter fun s => c.hbmChannel (c.stagedAddr s) == ch).length) c

/-- Every adder has finished the close: the sums of R335 are in the lines, the window is idle, DONE is set. While a line waits for its
page's copy the window stays closing. -/
def Core.winCloseDone (c : Core) (n : Nat) : Core :=
  if n < 16 ∧ c.winState n = 2 then
    let es := stagedSort (c.staged.filter fun s => s.win == n)
    let chs := (es.map fun s => c.hbmChannel (c.stagedAddr s)).eraseDups
    let lines := (es.map (·.line)).eraseDups
    let c1 := (lines.foldl (fun c l => c.closeLine n l (es.filter fun s => s.line == l)) c).showStaged chs
    if c1.staged.any fun s => s.win == n then c1
    else ((c1.setFld (Reg.winStatus n) 1 0 0).setBit (Reg.winStatus n) 2 true).setBit (Reg.winCtrl n) 1 false
  else c

/-- ABORT (R338): the entries of an open window are discarded, the window is idle, DONE is set. -/
def Core.winAbort (c : Core) (n : Nat) : Core :=
  if n < 16 ∧ c.winState n = 1 then
    let chs := ((c.staged.filter fun s => s.win == n).map fun s => c.hbmChannel (c.stagedAddr s)).eraseDups
    let c1 := ({ c with staged := c.staged.filter fun s => s.win != n } : Core).showStaged chs
    (c1.setFld (Reg.winStatus n) 1 0 0).setBit (Reg.winStatus n) 2 true
  else c

/-- A held operation that has been carried out: the core after it, who waited for it, its status and its address. -/
structure Released where
  core : Core
  who : Waiter
  status : Nat
  addr : Nat

/-- Whether a late ADD's line has been written: its window holds no staged entry of it any more (R336). -/
def Core.lateReady (c : Core) (l : LateAdd) : Bool :=
  !(c.staged.any fun s => s.win == l.win && c.stagedAddr s == l.addr) && !(c.mustWait l.addr)

/-- The first late ADD whose line has been written is added in arrival mode, counts in ADD_LATE and sets NONREPRO
(R336). -/
def Core.addLateApply (c : Core) : Option Released :=
  (c.late.find? c.lateReady).map fun l =>
    let c1 := (({ c with late := c.late.erase l } : Core).bump Reg.addLate 1).nonRepro l.win
    let r := c1.addArrival l.addr l.mask l.lanes
    { core := r.1, who := l.who, status := r.2, addr := l.addr }

/-! ## The controllers (R320 to R322) -/

/-- A DDR row becomes due for repair (R432): DIMM, rank, bank group, bank and row of its channel. -/
def Core.rowDue (c : Core) (d key : Nat) : Core :=
  if c.dueRows.contains (d, key) then c
  else ({ c with dueRows := c.dueRows ++ [(d, key)] } : Core).addDue 3 (384 + d)

/-- A corrected or uncorrectable error counted in the block's counter and the channel's field (R343). A DDR row becomes due at
its first uncorrectable error, and at its fourth corrected one of a margin period (R432). -/
def Core.countMemErr (c : Core) (a : Nat) (ue : Bool) : Core :=
  match c.place a with
  | .hbm => (c.bump (if ue then Reg.hbmUe else Reg.hbmCe) 1).bumpFld16 (Reg.hbmChStatus (c.hbmChannel a))
      (if ue then 32 else 16)
  | .ddr =>
    let c1 := (c.bump (if ue then Reg.ddrUe else Reg.ddrCe) 1).bumpFld16 (Reg.ddrChStatus (c.ddrChannel a))
      (if ue then 32 else 16)
    let row := (c.ddrChannel a, c.ddrPlace a % 2 ^ 26)
    if ue then c1.rowDue row.1 row.2
    else
      let c2 : Core := { c1 with ceRows := c1.ceRows ++ [row] }
      if 4 ≤ (c2.ceRows.filter (· == row)).length then c2.rowDue row.1 row.2 else c2
  | _ => c

/-- The entry at a slot of a ring read (R473); an uncorrectable error in it is counted (R320), and the entry is used as its bytes read
(log entry 107). -/
def Core.slotRead (c : Core) (a : Nat) : Core :=
  let c1 := c.countServed .rd a 64
  if c1.isUe (a / 64) then c1.countMemErr a true else c1

/-- Bytes written by the module itself, the lines whose partial write met an uncorrectable error counted (R320). -/
def Core.put (c : Core) (a : Nat) (bs : List Byte) : Core :=
  let r := c.store a bs
  r.2.foldl (fun c l => c.countMemErr (l * 64) true) r.1

/-- Whether a controller serves the address. -/
def Core.isChannelMem (c : Core) (a : Nat) : Bool := decide (c.place a = .hbm) || decide (c.place a = .ddr)

/-- The line marked as holding an uncorrectable error when the environment says so. -/
def Core.noteUe (c : Core) (line : Nat) (e : MemErr) : Core :=
  if e = .uncorrectable ∧ !(c.ue.contains line) then { c with ue := line :: c.ue } else c

/-- A line read at its controller (R316, R320): the line is returned; a corrected error is counted; an uncorrectable one
is counted and reported, and the line is left as stored. -/
def Core.ctlRead (c : Core) (a : Nat) (e : MemErr) : Core :=
  let l := a / 64 * 64
  if c.isChannelMem l then
    let c1 := (c.noteUe (l / 64) e).countServed .rd l 64
    if c1.isUe (l / 64) then (c1.countMemErr l true).emit (.ack l 0x22)
    else
      let c2 := if e = .corrected then c1.countMemErr l false else c1
      c2.emit (.line l (c2.rdBytes l 64))
  else c

/-- The masked bytes of a write over the old ones. -/
def mergeBytes (mask : BitVec 64) (old new : List Byte) : List Byte :=
  (List.range 64).map fun i => if mask.getLsbD i then new.getD i 0 else old.getD i 0

/-- A read-modify-write of the masked bytes of a line, carried out now (R312, R320), and the status of its acknowledgement. -/
def Core.maskedNow (c : Core) (l : Nat) (mask : BitVec 64) (data : List Byte) (e : MemErr) : Core × Nat :=
  let c1 := c.noteUe (l / 64) e
  if c1.isUe (l / 64) then (c1.countMemErr l true, 0x22)
  else
    let c2 := if e = .corrected then c1.countMemErr l false else c1
    (c2.change l (mergeBytes mask (c2.rdBytes l 64) data), 0)

/-- A write at its controller: a whole line, or a read-modify-write of the masked bytes (R312, R320). It waits when it
meets a page still to be copied and the staging is full (R422); its read half then comes when it proceeds. -/
def Core.ctlWrite (c : Core) (a : Nat) (mask : BitVec 64) (data : List Byte) (e : MemErr) : Core :=
  let l := a / 64 * 64
  if c.isChannelMem l then
    let n := ((List.range 64).filter mask.getLsbD).length
    let c0 := c.countServed .wr l n
    if mask = BitVec.allOnes 64 then
      if c0.mustWait l then { c0 with cow := c0.cow ++ [.write l (bytesAt data 0 64) (.port l)] }
      else (c0.storeLine l (bytesAt data 0 64)).1.emit (.ack l 0)
    else if c0.mustWait l then { c0 with cow := c0.cow ++ [.masked l mask data e (.port l)] }
    else
      let r := c0.maskedNow l mask data e
      r.1.emit (.ack l r.2)
  else c

/-- The address of an operation held for a checkpoint copy. -/
def CowOp.addr : CowOp → Nat
  | .write a _ _ => a
  | .masked a _ _ _ _ => a
  | .add a _ _ _ _ => a
  | .bits a _ _ => a
  | .zero a _ _ => a

/-- Who waits for a held operation. -/
def CowOp.who : CowOp → Waiter
  | .write _ _ w => w
  | .masked _ _ _ _ w => w
  | .add _ _ _ _ w => w
  | .bits _ _ w => w
  | .zero _ _ w => w

/-- A held operation carried out. -/
def Core.cowApply (c : Core) : CowOp → Core × Nat
  | .write a bs w =>
    let r := c.storeLine a bs w
    if r.2 then (r.1, 0) else (r.1.countMemErr a true, 0x22)
  | .masked a mask data e _ => c.maskedNow a mask data e
  | .add a _ mask lanes _ => c.addArrival a mask lanes
  | .bits a bs _ => c.bitsetNow a bs
  | .zero a mask _ => c.zeroNow a mask

/-- The oldest held operation proceeds once its page has been copied or the staging has room (R422). -/
def Core.cowRelease (c : Core) : Option Released :=
  match c.cow with
  | [] => none
  | o :: r =>
    if c.mustWait o.addr then none
    else
      let q := ({ c with cow := r } : Core).cowApply o
      some { core := q.1, who := o.who, status := q.2, addr := o.addr }

/-- Whether one waits for a held operation. -/
def Core.awaited (c : Core) (w : Waiter) : Bool := c.cow.any (fun o => o.who == w) || c.late.any fun l => l.who == w

/-- The status of an operation noted for one who still waits for others: the first error counts. -/
def Core.noteHeld (c : Core) (w : Waiter) (st : Nat) : Core :=
  if st = 0 ∨ (c.heldBad.any fun p => p.1 == w) = true then c else { c with heldBad := c.heldBad ++ [(w, st)] }

/-- The status that a message of another module is answered with (R327, R390), once no operation of it is held any more. -/
def Core.answerPeer (c : Core) (src tag kind st : Nat) : Core :=
  let w := Waiter.peer src tag kind
  let c1 := c.noteHeld w st
  if c1.awaited w then c1
  else
    let bad := ((c1.heldBad.find? fun p => p.1 == w).map (·.2)).getD 0
    ({ c1 with heldBad := c1.heldBad.filter fun p => p.1 != w } : Core).send src (if kind = 0x13 then 1 else 2) (msgAck kind bad tag)

/-- Lines of a channel: 3 GiB for HBM, a sixteenth of the installed capacity for DDR (channels 384 to 399). -/
def Core.channelLines (c : Core) (ch : Nat) : Nat :=
  if ch < 384 then 3 * 2 ^ 30 / 64 else c.fld Reg.ddrCapacity 43 0 / 16 / 64

/-- The local address of line `i` of a channel: R317 and R318 read backwards. A reserved channel has none. -/
def Core.channelAddr (c : Core) (ch i : Nat) : Option Nat :=
  if ch < 384 then
    let g := c.hbmGranule
    let n := if c.reserve then 360 else 384
    let j := 12 * (ch % 32) + ch / 32
    let r := i * 64 / g
    if n ≤ j then none else some ((r * n + (j + n - r % n) % n) * g + i * 64 % g)
  else
    let g := c.ddrGranule
    let r := i * 64 / g
    some (0x800_0000_0000 + (r * 16 + (ch - 384 + 16 - r % 16) % 16) * g + i * 64 % g)

/-- Full scrub passes over all HBM channels: the least number of passes of any channel. -/
def Core.scrubPasses (c : Core) : Nat :=
  (List.range 384).foldl (fun m ch => min m (sGet c.scrub ch 0 / c.channelLines ch)) (sGet c.scrub 0 0)

/-- One scrub read of a channel, HBM 0 to 383 or DDR 384 to 399 (R321): the channel's next line is read, a corrected
error counted, an uncorrectable one counted and sent as EVENT 0x20 with the line's global address. Its 64 bytes count as read at the
memory, a reserved channel's too (R473). -/
def Core.scrubRead (c : Core) (ch : Nat) (e : MemErr) : Core :=
  let en := if ch < 384 then c.bit Reg.hbmCtrl 1 else c.bit Reg.ddrCtrl 1
  let period := if ch < 384 then c.fld Reg.hbmCtrl 11 8 else c.fld Reg.ddrCtrl 11 8
  if en = true ∧ ch < 400 ∧ 0 < c.channelLines ch ∧ Machine.due (lastOf c.scrubAt ch) (2 ^ period) c.now.toNat = true then
    let k := sGet c.scrub ch 0
    let c1 : Core := { c with scrub := sPut c.scrub ch (k + 1) 0, scrubAt := fired c.scrubAt ch c.now.toNat }
    let c2 := (if ch < 384 ∧ (k + 1) % c.channelLines ch = 0 ∧ c.scrubPasses < c1.scrubPasses
      then c1.bump Reg.hbmScrubPasses 1 else c1).bump (if ch < 384 then Reg.obsHbmRd else Reg.obsDdrRd) 64
    match c.channelAddr ch (k % c.channelLines ch) with
    | none =>
      (match e with
      | .none => c2
      | .corrected => (c2.bump Reg.hbmCe 1).bumpFld16 (Reg.hbmChStatus ch) 16
      | .uncorrectable => ((c2.bump Reg.hbmUe 1).bumpFld16 (Reg.hbmChStatus ch) 32).blockEvent 0x20 0
          (Config.freeNat c.freeCtr))
    | some a =>
      let c3 := c2.noteUe (a / 64) e
      if c3.isUe (a / 64) then (c3.countMemErr a true).blockEvent 0x20 0 (c3.global a)
      else if e = .corrected then c3.countMemErr a false else c3
  else c

/-- DDR_XLATE_IN written, and DDR_XLATE_OUT valid for it (R318, R343): INVALID beyond the installed capacity, and below the tier. -/
def Core.xlateIn (c : Core) (v : Word) : Core :=
  let a := v.toNat % 2 ^ 44
  let c1 := c.wr Reg.ddrXlateIn (BitVec.ofNat 64 a)
  let inside := decide (0x800_0000_0000 ≤ a) && decide (a - 0x800_0000_0000 < c.fld Reg.ddrCapacity 43 0)
  let out := if inside then c.ddrChannel a + c.ddrPlace a * 16 else 2 ^ 63
  c1.wr Reg.ddrXlateOut (BitVec.ofNat 64 out)

end Sys2Proof.Machine
end

