-- ==== Sys2Proof/Machine/Pattern.lean ====
section
/-! DEFINITION. The Pattern (spec/02_pattern_image.md): flash, the checks of a slot and its sections, the tile map, the
calibration set and the wear journal. -/

namespace Sys2Proof.Machine

/-! ## Flash (R35) -/

/-- `n` bytes of flash from an offset; erased bytes read 0xFF. -/
def flashBytes (fl : List Host.Cell) (a n : Nat) : List Byte := (List.range n).map fun i => sGet fl (a + i) 0xFF

/-- Bytes programmed into flash. -/
def flashPut (fl : List Host.Cell) (a : Nat) : List Byte → List Host.Cell
  | [] => fl
  | b :: bs => flashPut (sPut fl a b 0xFF) (a + 1) bs

/-- A range of flash erased. -/
def flashErase (fl : List Host.Cell) (a n : Nat) : List Host.Cell :=
  fl.filter fun p => decide (p.1 < a) || decide (a + n ≤ p.1)

/-- A range of bytes of a list, as the list of them. -/
def cut (bs : List Byte) (o n : Nat) : List Byte := (bs.drop o).take n

/-- Whether every byte of a list is zero. -/
def allZero (bs : List Byte) : Bool := bs.all (· == 0)

/-- The active tiles of a grade (R8). -/
def gradeActive (grade : Nat) : Nat := if grade = 0 then 88 else 76

/-! ## The tile map (R44 to R47) -/

/-- One visit of R45: the good tile with the highest physical number of a die that is not yet a spare. -/
def spareOnDie (good taken : List Nat) (die : Nat) : Option Nat :=
  ((good.filter fun p => p / 24 == die && !(taken.contains p)).reverse).head?

/-- The spares of an automatic map, taken die by die in the order C3, C2, C1, C0 (R45). -/
def takeSpares (good : List Nat) (want : Nat) : Nat → Nat → List Nat → List Nat
  | 0, _, taken => taken
  | fuel + 1, v, taken =>
    if want ≤ taken.length then taken
    else
      match spareOnDie good taken (3 - v % 4) with
      | some p => takeSpares good want fuel (v + 1) (taken ++ [p])
      | none => takeSpares good want fuel (v + 1) taken

/-- Good tiles in ascending physical order. -/
def goodTiles (notGood : List Nat) : List Nat := (List.range 96).filter fun p => !(notGood.contains p)

/-- The automatic tile map (R45): `none` when the good tiles are too few. -/
def autoMap (notGood : List Nat) (active : Nat) : Option (List Nat) :=
  let good := goodTiles notGood
  if good.length < active then none
  else
    let spares := takeSpares good (good.length - active) 400 0 []
    let rest := good.filter fun p => !(spares.contains p)
    some ((List.range 96).map fun p =>
      if spares.contains p then 0xFE
      else
        match rest.findIdx? (· == p) with
        | some i => i
        | none => 0xFF)

/-- The spares of a live map. -/
def mapSpares (m : List Nat) : List Nat := (List.range 96).filter fun p => m.getD p 0xFF == 0xFE

/-- The physical tile of a logical number in a live map. -/
def mapPhys (m : List Nat) (t : Nat) : Option Nat := (List.range 96).find? fun p => m.getD p 0xFF == t

/-- The spare that R47 uses for worn tile `w`: the one named when it is a spare, else the lowest on the same die, else the
lowest of the module. -/
def pickSpare (m : List Nat) (w named : Nat) : Option Nat :=
  let sp := mapSpares m
  if sp.contains named then some named
  else
    match sp.find? fun p => p / 24 == w / 24 with
    | some p => some p
    | none => sp.head?

/-- One tile replacement applied to a live map (R47): a worn spare is only retired; otherwise its logical number moves to
a spare. `none` when no spare remains. -/
def replaceTile (m : List Nat) (w named : Nat) : Option (List Nat) :=
  if m.getD w 0xFF = 0xFE then some (m.set w 0xFD)
  else if 0x80 ≤ m.getD w 0xFF then some m
  else
    match pickSpare m w named with
    | none => none
    | some sp => some ((m.set sp (m.getD w 0xFF)).set w 0xFD)

/-- One tile-replacement record applied to a live map (R47): bytes 0 and 1 of 0xFF retire the tile and move nothing. -/
def applyReplacement (m : List Nat) (r : List Byte) : Option (List Nat) :=
  let w := leField r 2 2 - 448
  if leField r 24 1 = 0xFF ∧ leField r 25 1 = 0xFF then some (m.set w 0xFD) else replaceTile m w (leField r 24 1)

/-! ## Section checks (R44 to R59). Each answers whether the section keeps its rules, apart from reserved bytes. -/

/-- The tile map section (R44 to R46). -/
def tileMapOk (f : Fuses) (serial : Nat) (s : List Byte) : Bool :=
  let active := gradeActive f.grade
  let mode := leField s 0 1
  let map := (cut s 32 96).map (·.toNat)
  decide (leField s 1 1 = active) &&
  (if mode = 0 then allZero (cut s 32 96) && (autoMap f.notGood active).isSome
   else
    decide (mode = 1) && decide (serial ≠ 0) &&
    ((List.range 96).all fun p =>
      if f.notGood.contains p then map.getD p 0 == 0xFF else decide (map.getD p 0 < active) || map.getD p 0 == 0xFE) &&
    ((List.range active).all fun t => (map.filter (· == t)).length == 1))

/-- The map of a tile-map section. -/
def sectionMap (f : Fuses) (s : List Byte) : List Nat :=
  if leField s 0 1 = 0 then (autoMap f.notGood (gradeActive f.grade)).getD [] else (cut s 32 96).map (·.toNat)

/-- The die that lies across an edge of a Crown die: 96 and 97 are B0 and B1 (R17). Directions: 1 north, 2 east, 3 south,
4 west. -/
def dieAcross (die dir : Nat) : Option Nat :=
  match die, dir with
  | 0, 2 => some 1
  | 0, 3 => some 2
  | 0, 4 => some 96
  | 1, 2 => some 97
  | 1, 3 => some 3
  | 1, 4 => some 0
  | 2, 1 => some 0
  | 2, 2 => some 3
  | 2, 4 => some 96
  | 3, 1 => some 1
  | 3, 2 => some 97
  | 3, 4 => some 2
  | _, _ => none

/-- Whether a tile lies on an edge of its die in a direction. -/
def onEdge (p dir : Nat) : Bool :=
  let x := p % 6
  let y := p % 24 / 6
  match dir with
  | 1 => y == 0
  | 2 => x == 5
  | 3 => y == 3
  | 4 => x == 0
  | _ => false

/-- The tile next to a tile on the mesh of its die. -/
def meshStep (p dir : Nat) : Option Nat :=
  if onEdge p dir then none
  else
    match dir with
    | 1 => some (p - 6)
    | 2 => some (p + 1)
    | 3 => some (p + 6)
    | 4 => some (p - 1)
    | _ => none

/-- The node that a tile's bridge reaches in a direction (R17, R522). -/
def bridgeStep (p dir : Nat) : Option Nat :=
  if onEdge p dir then
    match dieAcross (p / 24) dir with
    | some 96 => some 96
    | some 97 => some 97
    | some d =>
      (match dir with
      | 1 => some (24 * d + 18 + p % 6)
      | 2 => some (24 * d + p % 24 - p % 6)
      | 3 => some (24 * d + p % 6)
      | _ => some (24 * d + p % 24 - p % 6 + 5))
    | none => none
  else none

/-- The directions in which a tile bridges: east-west first (R522). -/
def bridgeDirs (p : Nat) : List Nat := [2, 4, 1, 3].filter fun d => (bridgeStep p d).isSome

/-- The node that a route code leads to (R48, R522): `none` for a code that its node does not allow. -/
def routeStep (node code : Nat) : Option Nat :=
  if node < 96 then
    if 1 ≤ code ∧ code ≤ 4 then meshStep node code
    else if 8 ≤ code ∧ code ≤ 11 then (bridgeDirs node).head?.bind (bridgeStep node)
    else if 12 ≤ code ∧ code ≤ 15 then
      (if (bridgeDirs node).length = 2 then ((bridgeDirs node).getLast?).bind (bridgeStep node) else none)
    else none
  else
    let north := if node = 96 then 0 else 24 + 5
    let south := if node = 96 then 48 else 72 + 5
    if 12 ≤ code ∧ code ≤ 15 then some (north + 6 * (code - 12))
    else if 5 ≤ code ∧ code ≤ 7 then some (south + 6 * (code - 5))
    else none

/-- One 4-bit entry of an explicit route table (R48). -/
def routeEntry (s : List Byte) (plane node dest : Nat) : Nat :=
  let i := plane * 9604 + node * 98 + dest
  let b := leField s (16 + i / 2) 1
  if i % 2 = 0 then b % 16 else b / 16

/-- The walk from a node to a destination, at most `fuel` hops (R50). -/
def routeWalk (s : List Byte) (plane dest : Nat) : Nat → Nat → Bool
  | fuel, node =>
    let code := routeEntry s plane node dest
    if code = 0 then node == dest
    else
      match fuel with
      | 0 => false
      | f + 1 =>
        match routeStep node code with
        | none => false
        | some m => routeWalk s plane dest f m

/-- The explicit route table of a network section reaches every destination from every node (R50). -/
def routesOk (s : List Byte) : Bool :=
  (List.range 4).all fun pl => (List.range 98).all fun n => (List.range 98).all fun d => routeWalk s pl d 40 n

/-- The nodes that a fan-out byte forwards to; `none` for a byte that R51 refuses at its tile. DESIGN CHOICE (log entry
66): bit 5 at a tile with no bridge is refused too, which R51 does not say. -/
def fanTargets (p v : Nat) : Option (List Nat) :=
  let dirs := [1, 2, 3, 4].filter fun d => bitOf v d
  let off := dirs.filter fun d => onEdge p d
  let bridges := bridgeDirs p
  let mesh := dirs.filterMap fun d => meshStep p d
  if bridges.length = 2 then
    if bitOf v 5 then
      (if off.isEmpty ∨ !(off.all fun d => bridges.contains d) then none
       else some (mesh ++ off.filterMap fun d => bridgeStep p d))
    else if off.isEmpty then some mesh else none
  else if !off.isEmpty then none
  else if bitOf v 5 then
    (match bridges with
    | [d] => some (mesh ++ (bridgeStep p d).toList)
    | _ => none)
  else some mesh

/-- The tiles that a multicast tree reaches in order, or `none` when the walk is broken, meets a zero fan-out, or reaches
a tile twice (R51). DESIGN CHOICE (log entry 66): a forward that reaches a Brim node, which has no FANOUT, breaks the
walk. -/
def fanWalk (fan : List Nat) : Nat → List Nat → List Nat → Option (List Nat)
  | 0, _, _ => none
  | fuel + 1, todo, seen =>
    match todo with
    | [] => some seen
    | p :: r =>
      if 96 ≤ p ∨ seen.contains p ∨ fan.getD p 0 = 0 then none
      else
        match fanTargets p (fan.getD p 0) with
        | none => none
        | some ts => fanWalk fan fuel (r ++ ts) (seen ++ [p])

/-- One multicast group record (R51). -/
def groupOk (r : List Byte) : Bool :=
  let fan := (cut r 16 96).map (·.toNat)
  let want := (List.range 96).filter fun p => fan.getD p 0 != 0
  decide (leField r 0 1 < 64) && decide (leField r 1 1 < 96) &&
  (if want.isEmpty then true
   else
    match fanWalk fan 200 [leField r 1 1] [] with
    | none => false
    | some seen => want.all fun p => seen.contains p)

/-- The multicast group records of a network section. -/
def groupRecords (s : List Byte) : List (List Byte) :=
  (List.range (leField s 1 1)).map fun g => cut s (16 + 19208 * leField s 0 1 + 112 * g) 112

/-- The network section (R48 to R51). -/
def networkOk (s : List Byte) : Bool :=
  decide (leField s 0 1 ≤ 1) && decide (leField s 1 1 ≤ 64) &&
  (leField s 0 1 == 0 || routesOk s) && (groupRecords s).all groupOk &&
  decide ((groupRecords s).map fun r => leField r 0 1).Nodup

/-- The chain records of a chain section (R53). -/
def chainRecords (s : List Byte) : List (List Byte) :=
  (List.range (leField s 0 1)).map fun i => cut s (16 + 64 * i) 64

/-- The stage words of a chain record. -/
def stageWords (r : List Byte) : List Nat := (List.range (leField r 1 1)).map fun i => leField r (32 + 4 * i) 4

/-- Whether a NAME is ASCII, zero-padded and non-empty (R53). -/
def nameOk (bs : List Byte) : Bool :=
  let body := bs.takeWhile (· != 0)
  !body.isEmpty && body.all (fun b => decide (b.toNat < 0x80)) && allZero (bs.drop body.length)

/-- One chain record (R53). -/
def chainOk (r : List Byte) : Bool :=
  let ws := stageWords r
  let kinds := ws.map (· % 16)
  decide (leField r 0 1 < 16) && decide (1 ≤ ws.length) && decide (ws.length ≤ 5) && nameOk (cut r 4 28) &&
  (ws.all fun w => decide (1 ≤ w % 16) && decide (w % 16 ≤ 5) && decide (1 ≤ bitsOf w 8 4) && decide (bitsOf w 8 4 ≤ 16) &&
    (if w % 16 = 2 then decide (bitsOf w 10 9 < 3) else bitsOf w 10 9 == 0)) &&
  decide (kinds.head? = some 1) && (kinds.getLast? == some 4 || kinds.getLast? == some 5) && decide kinds.Nodup &&
  (!(kinds.contains 3) || (kinds.takeWhile (· != 3)).contains 2) &&
  decide ((ws.map fun w => bitsOf w 8 4).sum ≤ 16)

/-- The chain section (R53). -/
def chainsOk (s : List Byte) : Bool :=
  let rs := chainRecords s
  decide (1 ≤ rs.length) && decide (rs.length ≤ 16) && rs.all chainOk &&
  decide (rs.map fun r => leField r 0 1).Nodup && decide (rs.map fun r => cut r 4 28).Nodup

/-- A region of the memory layout: base and size, at byte offset `o`. -/
def layoutRegion (s : List Byte) (o : Nat) : Nat × Nat := (leField s o 8, leField s (o + 8) 8)

/-- The four regions of the memory layout: JOURNAL, HATBOX, DUMP, SPILL (R55). -/
def layoutRegions (s : List Byte) : List (Nat × Nat) := [64, 80, 96, 112].map (layoutRegion s)

/-- Whether no two present regions overlap. -/
def regionsApart : List (Nat × Nat) → Bool
  | [] => true
  | r :: rs => (rs.all fun q => !(decide (r.1 < q.1 + q.2) && decide (q.1 < r.1 + r.2))) && regionsApart rs

/-- The memory layout (R55, R56). DESIGN CHOICE (log entry 67): a region's size, like its base, is a multiple of
64 KiB. -/
def layoutOk (s : List Byte) : Bool :=
  let out := leField s 4 2
  let inn := leField s 8 2
  let live := (layoutRegions s).filter fun r => r.2 != 0
  decide (leField s 0 1 ≤ 3) && decide (leField s 1 1 ≤ 2) &&
  ([out, inn].all fun v => v == 0xFFFF || (decide (v ≤ 4095) && bitOf (leField s 2 1) 0)) &&
  (live.all fun r => decide (r.1 % 0x1_0000 = 0) && decide (r.2 % 0x1_0000 = 0) && decide (0x800_0000_0000 ≤ r.1) &&
    decide (r.1 + r.2 ≤ 0x1000_0000_0000)) &&
  regionsApart live && ((layoutRegion s 80).2 != 0) == (inn != 0xFFFF)

/-- The performance-level table's entry for a level: ROOT_MULT and VCORE_MV (R57). -/
def levelEntry (s : List Byte) (l : Nat) : Nat × Nat := (bitsOf (leField s (4 * l) 4) 7 0, bitsOf (leField s (4 * l) 4) 19 8)

/-- The performance-level table (R57). -/
def levelsOk (maxRoot : Nat) (s : List Byte) : Bool :=
  ((List.range 8).all fun l => decide (6 ≤ (levelEntry s l).1) && decide ((levelEntry s l).1 ≤ min 72 maxRoot) &&
    decide (500 ≤ (levelEntry s l).2) && decide ((levelEntry s l).2 ≤ 900)) &&
  (List.range 7).all fun l => decide ((levelEntry s l).1 < (levelEntry s (l + 1)).1) &&
    decide ((levelEntry s l).2 ≤ (levelEntry s (l + 1)).2)

/-- One numeric recipe: FORMAT, BLOCK and HEADROOM of a kind (R58). -/
def recipeOf (s : List Byte) (kind : Nat) : Nat × Nat × Nat :=
  (leField s (8 * kind) 1, leField s (8 * kind + 1) 1, leField s (8 * kind + 2) 1)

/-- Whether a recipe is legal for its kind (R58). -/
def recipeOk (kind : Nat) (r : Nat × Nat × Nat) : Bool :=
  let f := r.1
  let b := r.2.1
  let h := r.2.2
  decide (h ≤ 3) &&
  (match kind with
  | 0 => decide (f ≤ 4) && decide (b ≤ 2)
  | 1 => decide (f ≤ 3) && decide (b ≤ 2)
  | 2 => (f == 1 || f == 2) && b == 3
  | _ => decide (f ≤ 1) && decide (b ≤ 2)) &&
  (f != 3 || b == 0) && (f != 0 || (b == 0 && h == 0))

/-- The numeric recipes (R58). -/
def recipesOk (s : List Byte) : Bool := (List.range 4).all fun k => recipeOk k (recipeOf s k)

/-- The entries of the pin overlay: PIN, FUNCTION, PULL (R59). -/
def overlayEntries (s : List Byte) : List (Nat × Nat × Nat) :=
  (List.range (leField s 0 1)).map fun i =>
    let w := leField s (4 + 4 * i) 4
    (bitsOf w 7 0, bitsOf w 15 8, bitsOf w 17 16)

/-- The pin overlay (R59). A PIN above 19 names no pin and is refused with the others. -/
def overlayOk (s : List Byte) : Bool :=
  decide (leField s 0 1 ≤ 20) && ((overlayEntries s).all fun e => decide (e.1 ≤ 19) && decide (e.2.1 ≤ 4) && decide (e.2.2 ≤ 2)) &&
  decide ((overlayEntries s).map (·.1)).Nodup

/-- Whether the reserved bits of a section are zero (R42 code 0x0A). -/
def reservedZero (ty : Nat) (s : List Byte) : Bool :=
  match ty with
  | 1 => allZero (cut s 2 30)
  | 2 => allZero (cut s 2 14) && (groupRecords s).all fun r => allZero (cut r 2 14)
  | 3 => allZero (cut s 1 15) && (chainRecords s).all fun r =>
      allZero (cut r 2 2) && allZero (r.drop (32 + 4 * leField r 1 1)) && (stageWords r).all fun w => w >>> 11 == 0
  | 4 => allZero (cut s 3 1) && allZero (cut s 10 6) && leField s 2 1 < 2 && leField s 6 2 < 0x1000
  | 5 => (List.range 8).all fun l => bitsOf (leField s (4 * l) 4) 31 20 == 0
  | 6 => (List.range 4).all fun k => allZero (cut s (8 * k + 3) 5)
  | 7 => allZero (cut s 1 3) && (List.range (leField s 0 1)).all fun i => bitsOf (leField s (4 + 4 * i) 4) 31 18 == 0
  | _ => true

/-- Whether a section keeps the rules of its chapter. -/
def sectionOk (f : Fuses) (serial ty : Nat) (s : List Byte) : Bool :=
  match ty with
  | 1 => tileMapOk f serial s
  | 2 => networkOk s
  | 3 => chainsOk s
  | 4 => layoutOk s
  | 5 => levelsOk f.maxRoot s
  | 6 => recipesOk s
  | 7 => overlayOk s
  | _ => false

/-! ## The check of a slot (R37 to R42) -/

/-- A directory entry: TYPE, VERSION, OFFSET, LENGTH and whether its reserved bytes are zero (R38). -/
structure DirEntry where
  ty : Nat
  ver : Nat
  off : Nat
  len : Nat
  clean : Bool
  raw : List Byte

/-- Directory entry `i` of a slot header. -/
def dirEntry (hdr : List Byte) (i : Nat) : DirEntry :=
  let e := cut hdr (0x40 + 16 * i) 16
  { ty := leField e 0 1, ver := leField e 1 1, off := leField e 4 4, len := leField e 8 4,
    clean := allZero (cut e 2 2) && allZero (cut e 12 4), raw := e }

/-- The LENGTH that R39 gives a section of a type, from its first bytes. -/
def sectionLen (ty : Nat) (s : List Byte) : Option Nat :=
  match ty with
  | 1 => some 128
  | 2 => if s.length < 16 then none else some (16 + 19208 * leField s 0 1 + 112 * leField s 1 1)
  | 3 => if s.length < 16 then none else some (16 + 64 * leField s 0 1)
  | 4 => some 128
  | 5 => some 32
  | 6 => some 32
  | 7 => if s.length < 4 then none else some (4 + 4 * leField s 0 1)
  | _ => none

/-- Where the bases of the slots lie in flash (R35). -/
def slotBase (slot : Nat) : Nat := if slot = 0 then 0 else 0x80_0000

/-- Whether the bytes of the signed part outside the header and the sections are zero (R38). -/
def paddingZero (img : List Byte) (dirs : List DirEntry) : Bool :=
  ((img.zip (List.range img.length)).drop 0x200).all fun p =>
    p.1 == 0 || dirs.any fun d => decide (d.off ≤ p.2) && decide (p.2 < d.off + d.len)

/-- The directory rules of R38 and R39, code 0x04. -/
def directoryOk (img hdr : List Byte) (n imageLen : Nat) : Bool :=
  let used := (List.range n).map (dirEntry hdr)
  let rest := ((List.range 16).drop n).map (dirEntry hdr)
  (used.all fun d => d.ty != 0 && decide (d.off % 256 = 0) && decide (0x200 ≤ d.off) && decide (d.off + d.len ≤ imageLen) &&
    sectionLen d.ty (cut img d.off d.len) == some d.len) &&
  (rest.all fun d => allZero d.raw) &&
  decide (used.map (·.ty)).Nodup && ([1, 2, 3, 4, 5, 6].all fun t => used.any fun d => d.ty == t) &&
  regionsApart (used.map fun d => (d.off, d.len))

/-- The key hash of a key-store entry: SHA-512 of its 516 bytes (R493). -/
def keyEntry (fl : List Host.Cell) (k : Nat) : List Byte := flashBytes fl (0x10F_0000 + 0x400 * k) 516

/-- The signature check of R494: the entry's hash is the fused one, e is 65,537 and R491 verifies. -/
def signatureOk (f : Fuses) (fl : List Host.Cell) (key : Nat) (mHash sig : List Byte) : Bool :=
  let e := keyEntry fl key
  (sha512 e == f.keyHash.getD key []) && (beNat (cut e 512 4) == 65537) && pssVerify (beNat (e.take 512)) mHash sig

/-- Whether key slot `k` is present: its hash is non-zero and it is not revoked (R496). -/
def keyPresent (f : Fuses) (k : Nat) : Bool := decide (k < 4) && !(allZero (f.keyHash.getD k [])) && !(f.revoked.getD k true)

/-- The code and, for code 0x09, the section of a slot's check, and the image when every check passes (R42). DESIGN CHOICE
(log entry 68): of several sections that break their rules, the one of the lowest TYPE is reported. -/
def checkSlot (f : Fuses) (fl : List Host.Cell) (slot : Nat) : Nat × Nat × Option Image :=
  let b := slotBase slot
  let hdr := flashBytes fl b 512
  let n := leField hdr 6 2
  let len := leField hdr 8 4
  let seq := leField hdr 0xC 4
  let grades := leField hdr 0x10 1
  let key := leField hdr 0x11 1
  let serial := leField hdr 0x18 8
  if leField hdr 0 4 ≠ 0x5A50_4154 then (1, 0, none)
  else if leField hdr 4 2 ≠ 1 ∨ ((List.range (min n 16)).any fun i => (dirEntry hdr i).ver != 1) = true then (2, 0, none)
  else if len % 256 ≠ 0 ∨ len < 0x200 ∨ 0x7F_FE00 < len ∨ n = 0 ∨ 16 < n ∨ seq = 0 then (3, 0, none)
  else
    let img := flashBytes fl b len
    if !(directoryOk img hdr n len) then (4, 0, none)
    else if !(bitOf grades f.grade) then (5, 0, none)
    else if serial ≠ 0 ∧ serial ≠ f.serial then (6, 0, none)
    else if !(keyPresent f key) then (7, 0, none)
    else
      let h := sha512 img
      if !(signatureOk f fl key h (flashBytes fl (b + len) 512)) then (8, 0, none)
      else
        let dirs := (List.range n).map (dirEntry hdr)
        let secs := [1, 2, 3, 4, 5, 6, 7].filterMap fun t =>
          (dirs.find? fun d => d.ty == t).map fun d => (t, cut img d.off d.len)
        match secs.find? fun p => !(sectionOk f serial p.1 p.2) with
        | some p => (9, p.1, none)
        | none =>
          if 4 ≤ grades ∨ !(allZero (cut hdr 0x12 6)) ∨ !(allZero (cut hdr 0x20 32)) ∨ !(allZero (cut hdr 0x140 192)) ∨
             (dirs.any fun d => !d.clean) = true ∨ !(paddingZero img dirs) ∨
             (secs.any fun p => !(reservedZero p.1 p.2)) = true then (10, 0, none)
          else (0, 0, some { slot := slot, seq := seq, key := key, hash := h, sections := secs })

/-- A section of an image. -/
def Image.section (i : Image) (ty : Nat) : List Byte := ((i.sections.find? fun p => p.1 == ty).map (·.2)).getD []

/-- The memory layout of the running image; an absent image has an empty one. -/
def Pat.layout (p : Pat) : List Byte :=
  match p.run with
  | some i => i.section 4
  | none => []

/-- A region of the running layout (R55): 64 JOURNAL, 80 HATBOX, 96 DUMP, 112 SPILL. -/
def Pat.region (p : Pat) (o : Nat) : Nat × Nat := layoutRegion p.layout o

/-- HATBOX_OUT and HATBOX_IN of the running layout; 0xFFFF where no image runs. -/
def Pat.hatboxOut (p : Pat) : Nat := if p.run.isSome then leField p.layout 4 2 else 0xFFFF

/-- See `Pat.hatboxOut`. -/
def Pat.hatboxIn (p : Pat) : Nat := if p.run.isSome then leField p.layout 8 2 else 0xFFFF

/-- The stage words of chain `n` of the running image, when it is defined (R54). -/
def Pat.chain (p : Pat) (n : Nat) : Option (List Nat) :=
  match p.run with
  | some i => ((chainRecords (i.section 3)).find? fun r => leField r 0 1 == n).map stageWords
  | none => none

/-- The recipe of a kind: 0 weight, 1 activation, 2 embedding row, 3 optimiser state (R58). -/
def Pat.recipe (p : Pat) (kind : Nat) : Nat × Nat × Nat :=
  match p.run with
  | some i => recipeOf (i.section 6) kind
  | none => (0, 0, 0)

/-- CHAIN_VALID of an image (R71). -/
def chainMask (i : Image) : Nat := ((chainRecords (i.section 3)).map fun r => 2 ^ leField r 0 1).sum

/-- Eight 64-bit words of a 64-octet hash register, digest octet i at byte i (R71, R502). -/
def Core.putHash (c : Core) (off : Nat) (h : List Byte) : Core :=
  (List.range 8).foldl (fun c i => c.wr (off + 8 * i) (BitVec.ofNat 64 (leField h (8 * i) 8))) c

/-! ## The calibration set (R60, R61) -/

/-- LENGTH of the calibration set. -/
def calLength : Nat := 0x2_0280

/-- A voltage offset of the calibration set for a level and rail, as millivolts (R60). -/
def calOffset (set : List Byte) (level rail : Nat) : Int := signedOf 16 (leField set (0x2_0200 + 16 * level + 2 * rail) 2)

/-- The class of a calibration set: 0 valid, 1 blank, 2 bad, 3 foreign (R61). -/
def calClass (f : Fuses) (fl : List Host.Cell) : Nat :=
  let hdr := flashBytes fl 0x100_0000 32
  if leField hdr 0 4 ≠ 0x4C41_435A then 1
  else if leField hdr 4 2 ≠ 1 ∨ leField hdr 8 4 ≠ calLength then 2
  else
    let set := flashBytes fl 0x100_0000 calLength
    if crc32 (cut set 0 12 ++ [0, 0, 0, 0] ++ set.drop 16) ≠ leField hdr 12 4 then 2
    else if ((List.range 64).any fun i => decide (signedOf 16 (leField set (0x2_0200 + 2 * i) 2) < -50) ||
        decide (50 < signedOf 16 (leField set (0x2_0200 + 2 * i) 2))) = true then 2
    else if leField hdr 16 8 ≠ f.serial then 3
    else 0

/-! ## The wear journal (R63 to R66) -/

/-- Where a half of the journal lies. -/
def halfBase (h : Nat) : Nat := if h = 0 then 0x110_0000 else 0x190_0000

/-- Records of one half. -/
def halfRecords : Nat := 131072

/-- The records of a half's log, up to the first erased one (R63). -/
def readLog (fl : List Host.Cell) (base : Nat) : Nat → Nat → List (List Byte)
  | 0, _ => []
  | fuel + 1, i =>
    if sGet fl (base + 64 * i) 0xFF = 0xFF then []
    else flashBytes fl (base + 64 * i) 64 :: readLog fl base fuel (i + 1)

/-- The log of a half. -/
def halfLog (fl : List Host.Cell) (h : Nat) : List (List Byte) := readLog fl (halfBase h) halfRecords 0

/-- Whether a record's CRC is good. -/
def recordGood (r : List Byte) : Bool := crc32 (r.take 60) == leField r 60 4

/-- The RECORD_NO of the 0x07 record that seals a half (R65). DESIGN CHOICE (log entry 69): a record whose CRC fails seals
nothing. -/
def sealNo (log : List (List Byte)) : Option Nat :=
  ((log.filter fun r => leField r 0 1 == 7 && recordGood r).getLast?).map fun r => leField r 4 4

/-- The active half (R65). -/
def activeHalf (fl : List Host.Cell) : Nat :=
  match sealNo (halfLog fl 0), sealNo (halfLog fl 1) with
  | none, none => 0
  | some _, none => 0
  | none, some _ => 1
  | some a, some b => if a < b then 1 else 0

/-- The number of the next record: one more than the highest of both halves (R63). -/
def nextRecordNo (fl : List Host.Cell) : Nat :=
  ((halfLog fl 0 ++ halfLog fl 1).filter recordGood).foldl (fun m r => max m (leField r 4 4 + 1)) 0

/-- A 64-byte wear-journal record (R63). -/
def wearRecord (ty object no step time : Nat) (data : List Byte) : List Byte :=
  let r := leBytes 1 ty ++ [0] ++ leBytes 2 object ++ leBytes 4 no ++ leBytes 8 step ++ leBytes 8 time ++ bytesAt data 0 36
  r ++ leBytes 4 (crc32 r)

/-- Records of a type in force in the active half, in order. -/
def recordsOf (fl : List Host.Cell) (ty : Nat) : List (List Byte) :=
  (halfLog fl (activeHalf fl)).filter fun r => leField r 0 1 == ty && recordGood r

/-- One record appended to the active half (R63, R66). A program error in its sector sets WRITE_FAIL and sends an error
entry, whose EVENT the spec does not give, and the record is lost. -/
def appendWear (p : Part) (c : Core) (ty object : Nat) (data : List Byte) : Part × Core :=
  let h := activeHalf p.flash
  let i := (halfLog p.flash h).length
  let a := halfBase h + 64 * i
  if p.badSectors.contains (a / 0x1_0000) ∨ halfRecords ≤ i then
    (p, (c.setBit Reg.journalStatus 20 true).blockEvent (Config.freeNat c.freeCtr % 256) object 0)
  else
    ({ p with flash := flashPut p.flash a (wearRecord ty object (nextRecordNo p.flash) c.step c.now.toNat data) },
     (c.setFld Reg.journalStatus 0 0 h).setFld Reg.journalStatus 18 1 (i + 1))

/-- Compaction (R65): the other half is erased, the records of types 0x02 to 0x06 and 0x08 and the latest margin summary
of each object are copied into it, the 0x07 record seals it, and the old half is erased. DATA of that record is the half it
seals, which holds it, in one byte and the first RECORD_NO copied in four (R63; the widths are log entry 20). DESIGN CHOICE (log entry 69): a record whose CRC fails is not
copied, the OBJECT of the 0x07 record is 0, and so is the RECORD_NO when nothing is copied. -/
def compactWear (p : Part) (c : Core) : Part × Core :=
  let h := activeHalf p.flash
  let log := (halfLog p.flash h).filter recordGood
  let keep := log.filter fun r => (decide (2 ≤ leField r 0 1) && decide (leField r 0 1 ≤ 6)) || leField r 0 1 == 8
  let last := (List.range 414).filterMap fun o => (log.filter fun r => leField r 0 1 == 1 && leField r 2 2 == o).getLast?
  let all := keep ++ last
  let sealRec := wearRecord 7 0 (nextRecordNo p.flash) c.step c.now.toNat
    (leBytes 1 (1 - h) ++ leBytes 4 ((all.head?.map fun r => leField r 4 4).getD 0))
  let fl1 := flashErase p.flash (halfBase (1 - h)) 0x80_0000
  let fl2 := flashPut fl1 (halfBase (1 - h)) (all.flatten ++ sealRec)
  ({ p with flash := flashErase fl2 (halfBase h) 0x80_0000 },
   (c.setFld Reg.journalStatus 0 0 (1 - h)).setFld Reg.journalStatus 18 1 (all.length + 1))

end Sys2Proof.Machine
end

