-- ==== Sys2Proof/Machine/Operands.lean ====
section
/-! DEFINITION. What a descriptor names: its fields (R84 to R87), its tensor records (R88 to R91), the arrangement of a
record's elements and scale bytes in memory (R129, R152 to R155), and the values that a reader gets (R257, R268). -/

namespace Sys2Proof.Machine

/-! ## Descriptor fields (R84, R85) -/

/-- OPCODE. -/
def Desc.opcode (d : Desc) : Nat := leField d.raw 0 1

/-- ENGINE: 0 Mitt, 1 Cuff, 2 Glove, 3 reduction engine. -/
def Desc.engine (d : Desc) : Nat := leField d.raw 1 1 % 16

/-- NREC, the number of tensor records. -/
def Desc.nrec (d : Desc) : Nat := bitsOf (leField d.raw 1 1) 6 4

/-- FLAGS bit `i`: 0 SKEW, 1 ACC, 2 ALIAS_ACC, 3 SHAPE_IND, 4 FENCE, 5 NO_RUNAHEAD, 6 PREDICT. -/
def Desc.flag (d : Desc) (i : Nat) : Bool := bitOf (leField d.raw 2 2) i

/-- GEN: [15:12] domain, [11:0] sequence. -/
def Desc.gen (d : Desc) : Nat := leField d.raw 4 2

/-- ARG. -/
def Desc.arg (d : Desc) : Nat := leField d.raw 6 2

/-- Bits [hi:lo] of ARG. -/
def Desc.argF (d : Desc) (hi lo : Nat) : Nat := bitsOf d.arg hi lo

/-- REC_BASE. -/
def Desc.recBase (d : Desc) : Nat := leField d.raw 8 7

/-- MMAX, NMAX, KMAX by index. -/
def Desc.planned (d : Desc) (i : Nat) : Nat := leField d.raw (0x20 + 2 * i) 2

/-- BETA widened from BF16. -/
def Desc.beta (d : Desc) : Lane := ofBf16 (leField d.raw 0x26 2)

/-- The completion record's global address. -/
def Desc.compl (d : Desc) : Nat := leField d.raw 0x28 7

/-- CWRITE. -/
def Desc.cwrite (d : Desc) : Bool := bitOf (leField d.raw 0x28 8) 56

/-- COOKIE. -/
def Desc.cookie (d : Desc) : Nat := leField d.raw 0x30 4

/-- SHAPE_PTR. -/
def Desc.shapePtr (d : Desc) : Nat := leField d.raw 0x38 7

/-- The extents in the descriptor's own fields: M, N, K, B0, B1. -/
def Desc.ownExt (d : Desc) : List Nat :=
  [leField d.raw 0x10 4, leField d.raw 0x14 4, leField d.raw 0x18 4, leField d.raw 0x1C 2, leField d.raw 0x1E 2]

/-- The extents of admission: M, N, K, B0, B1. -/
def Desc.m (d : Desc) : Nat := d.ext.getD 0 0
/-- See `Desc.m`. -/
def Desc.n (d : Desc) : Nat := d.ext.getD 1 0
/-- See `Desc.m`. -/
def Desc.k (d : Desc) : Nat := d.ext.getD 2 0
/-- See `Desc.m`. -/
def Desc.b0 (d : Desc) : Nat := d.ext.getD 3 0
/-- See `Desc.m`. -/
def Desc.b1 (d : Desc) : Nat := d.ext.getD 4 0

/-- The context of a port's descriptor, 0xFF for a queue's (R106). -/
def Desc.context (d : Desc) : Nat :=
  match d.src with
  | .port n => n
  | .queue _ => 0xFF

/-- The submitting queue, 0xFFFF for a port (R106). -/
def Desc.queueNo (d : Desc) : Nat :=
  match d.src with
  | .port _ => 0xFFFF
  | .queue q => q

/-! ## Tensor records (R88) -/

/-- A tensor record: BASE, FORMAT, LAYOUT, NDIM, TENSOR_ID and the strides, zero beyond NDIM (R89). -/
structure Rec where
  base : Nat
  fmt : Nat
  layout : Nat
  ndim : Nat
  tid : Nat
  strides : List Int
  deriving DecidableEq, Repr

/-- The record in 32 bytes. -/
def recOf (bs : List Byte) : Rec :=
  let nd := leField bs 8 1 % 8
  { base := leField bs 0 7, fmt := leField bs 7 1 % 16, layout := bitsOf (leField bs 7 1) 6 4, ndim := nd,
    tid := leField bs 9 3,
    strides := (List.range 5).map fun i => if i < nd then signedOf 32 (leField bs (12 + 4 * i) 4) else 0 }

/-- Stride of a dimension. -/
def Rec.stride (r : Rec) (d : Nat) : Int := r.strides.getD d 0

/-- Bits of an element by FORMAT code (R88). -/
def fmtBits (code : Nat) : Nat :=
  match code with
  | 0 => 32
  | 1 => 16
  | 2 => 16
  | 5 => 4
  | 7 => 32
  | 8 => 64
  | 10 => 4
  | _ => 8

/-- Values per 2-byte slot, V of R152. -/
def slotV (code : Nat) : Nat :=
  match fmtBits code with
  | 4 => 4
  | 8 => 2
  | _ => 1

/-- Formats that carry E8M0 scale bytes (R155). -/
def isNarrow (code : Nat) : Bool := decide (3 ≤ code) && decide (code ≤ 6)

/-- Record `i` of a descriptor. -/
def Desc.record (d : Desc) (i : Nat) : Rec := recOf (bytesAt d.recs (32 * i) 32)

/-- The record format that a recipe's FORMAT names (R58). -/
def recipeFmt (f : Nat) : Nat :=
  match f with
  | 1 => 3
  | 2 => 4
  | 3 => 5
  | 4 => 6
  | _ => 2

/-- Elements per recipe block of a kind; 0 for a whole row (R58, R155). -/
def Pat.blockSize (p : Pat) (kind : Nat) : Nat :=
  match (p.recipe kind).2.1 with
  | 0 => 32
  | 1 => 64
  | 2 => 128
  | _ => 0

/-! ## A record with its extents: where its elements lie (R129, R152 to R155) -/

/-- A record in its role: the five extents (1 beyond the role's dimensions), elements per recipe block (0 for a whole
row), whether L-S64 words are wide, and whether the record is stored under a mask. -/
structure Tensor where
  r : Rec
  ext : List Nat
  block : Nat
  wide : Bool
  mask : Bool
  deriving DecidableEq, Repr

/-- Whether the layout is made of 64 by 64 units. -/
def Rec.tiled (r : Rec) : Bool := decide (1 ≤ r.layout) && decide (r.layout ≤ 3)

/-- Extent of a stored dimension: under a mask, half of K is stored (R129). -/
def Tensor.e (t : Tensor) (d : Nat) : Nat := if t.mask && d == 1 then t.ext.getD 1 1 / 2 else t.ext.getD d 1

/-- Values of the contracted dimension in one unit or run. -/
def Tensor.unitK (t : Tensor) : Nat := 64 * slotV t.r.fmt * (if t.wide then 2 else 1)

/-- The dimension along which recipe blocks run. -/
def Tensor.kdim (t : Tensor) : Nat := if t.r.layout = 1 then 1 else 0

/-- Units along k in a plane. -/
def Tensor.kUnits (t : Tensor) : Nat := ceilDiv (t.e t.kdim) t.unitK

/-- Units in a plane. -/
def Tensor.units (t : Tensor) : Nat :=
  match t.r.layout with
  | 1 => ceilDiv (t.e 0) 64 * t.kUnits
  | 2 => ceilDiv (t.e 1) 64 * t.kUnits
  | _ => t.kUnits

/-- Bytes of a unit. -/
def Tensor.unitBytes (t : Tensor) : Nat :=
  match t.r.layout with
  | 1 => 8192
  | 2 => 64 * (64 * slotV t.r.fmt * fmtBits t.r.fmt / 8)
  | _ => (t.e 1 + 64) * (if t.wide then 256 else 128)

/-- Bytes of the values of a plane. -/
def Tensor.valueBytes (t : Tensor) : Nat := t.units * t.unitBytes

/-- Bytes of the index part of a plane (R129): one 2-bit position for each value position. -/
def Tensor.indexBytes (t : Tensor) : Nat := if t.mask then t.units * 1024 * slotV t.r.fmt else 0

/-- Rows of a unit that carry scales. -/
def Tensor.unitRows (t : Tensor) : Nat := if t.r.layout = 3 then t.e 1 else 64

/-- Scale bytes of a plane in a tiled layout, or of a dimension-0 run otherwise. -/
def Tensor.scaleBytes (t : Tensor) : Nat :=
  if isNarrow t.r.fmt then
    (if t.r.tiled then t.units * t.unitRows * (t.unitK / t.block) else if t.block = 0 then 1 else t.e 0 / t.block)
  else 0

/-- Bytes of a plane in a tiled layout. -/
def Tensor.planeBytes (t : Tensor) : Nat := t.valueBytes + t.indexBytes + t.scaleBytes

/-- The first bit of the plane or run that holds a stored index, dimensions from `d0` up. -/
def Tensor.originBit (t : Tensor) (d0 : Nat) (i : List Nat) : Int :=
  8 * (t.r.base : Int) + (fmtBits t.r.fmt : Int) *
    (((List.range 5).filter (d0 ≤ ·)).map fun d => ((i.getD d 0 : Nat) : Int) * t.r.stride d).sum

/-- Unit, row in the unit, place along k in the unit. -/
def Tensor.unitPlace (t : Tensor) (i : List Nat) : Nat × Nat × Nat :=
  let i0 := i.getD 0 0
  let i1 := i.getD 1 0
  match t.r.layout with
  | 1 => (i0 / 64 * t.kUnits + i1 / t.unitK, i0 % 64, i1 % t.unitK)
  | 2 => (i1 / 64 * t.kUnits + i0 / t.unitK, i1 % 64, i0 % t.unitK)
  | _ => (i0 / t.unitK, i1, i0 % t.unitK)

/-- Bit offset of a stored index in its plane (R152). -/
def Tensor.planeBit (t : Tensor) (i : List Nat) : Nat :=
  let p := t.unitPlace i
  let b := fmtBits t.r.fmt
  let x := p.2.2
  8 * (p.1 * t.unitBytes) +
  (match t.r.layout with
  | 1 => x % 64 * 1024 + p.2.1 * 16 + x / 64 * b
  | 2 => p.2.1 * (64 * slotV t.r.fmt * b) + x * b
  | _ => (p.2.1 + x % 64) * (if t.wide then 2048 else 1024) + x % 64 * (if t.wide then 32 else 16) + x / 64 * b)

/-- The bit address of the element at a stored index. -/
def Tensor.bitAddr (t : Tensor) (i : List Nat) : Int :=
  if t.r.tiled then t.originBit 2 i + (t.planeBit i : Int) else t.originBit 0 i

/-- The byte that holds the scale of a stored index (R155). -/
def Tensor.scaleAddr (t : Tensor) (i : List Nat) : Int :=
  if t.r.tiled then
    let p := t.unitPlace i
    let per := t.unitK / t.block
    t.originBit 2 i / 8 + ((t.valueBytes + t.indexBytes + (p.1 * t.unitRows + p.2.1) * per + p.2.2 / t.block : Nat) : Int)
  else
    (t.originBit 1 i + (fmtBits t.r.fmt : Int) * ((t.e 0 : Nat) - 1 : Int)) / 8 + 1 +
      ((if t.block = 0 then 0 else i.getD 0 0 / t.block : Nat) : Int)

/-- The place of the 2-bit position of a stored index: byte and bit (R129). -/
def Tensor.posAddr (t : Tensor) (i : List Nat) : Int × Nat :=
  let p := t.unitPlace i
  let q := ((p.1 * 64 + p.2.2 % 64) * 64 + p.2.1) * slotV t.r.fmt + p.2.2 / 64
  (t.originBit 2 i / 8 + ((t.valueBytes + q / 4 : Nat) : Int), 2 * (q % 4))

/-- The lowest byte of a record and the byte after its highest, scale and index parts included (R160). -/
def Tensor.span (t : Tensor) : Int × Int :=
  let b : Int := (fmtBits t.r.fmt : Nat)
  let steps := fun (d0 : Nat) => ((List.range 5).filter (d0 ≤ ·)).map fun d =>
    (((t.e d : Nat) : Int) - 1) * t.r.stride d * b
  let lo := fun (l : List Int) => (l.map fun x => min x 0).sum
  let hi := fun (l : List Int) => (l.map fun x => max x 0).sum
  let o := 8 * (t.r.base : Int)
  if t.r.tiled then
    ((o + lo (steps 2)) / 8, (o + hi (steps 2)) / 8 + ((max t.planeBytes 1 : Nat) : Int))
  else ((o + lo (steps 0)) / 8, (o + hi (steps 0) + b + 7) / 8 + (t.scaleBytes : Nat))

/-- Whether the scale bytes fit (R155, R257). -/
def Tensor.scalesFit (t : Tensor) : Bool :=
  !(isNarrow t.r.fmt) ||
  (if t.r.tiled then t.block != 0 && t.e t.kdim % t.block == 0
   else t.r.stride 0 == 1 && (t.block == 0 || t.e 0 % t.block == 0) &&
     (decide (t.e 1 ≤ 1) ||
      decide (ceilDiv (t.e 0 * fmtBits t.r.fmt) 8 + t.scaleBytes ≤ (t.r.stride 1).natAbs * fmtBits t.r.fmt / 8)))

/-- Every stored index of a record, dimension 0 fastest (the flattened order). -/
def indices : List Nat → List (List Nat)
  | [] => [[]]
  | e :: es => (indices es).flatMap fun r => (List.range e).map fun i => i :: r

/-- Every stored index of a record. -/
def Tensor.all (t : Tensor) : List (List Nat) := indices ((List.range 5).map t.e)

/-! ## Reading through a byte reader -/

/-- What has come of other modules for the stage that reads now (R388), a descriptor's common blocks with it (R247). -/
def Core.mine (c : Core) : List Fetch := c.fetched.filter fun f => match c.reader, f.owner with
  | some (.desc i), .fill j => i == j
  | r, o => r == some o

/-- The fetched bytes that hold a global address. -/
def Core.fetchedAt (c : Core) (ga : Nat) : Option Fetch := c.mine.find? fun f => decide (f.ga ≤ ga) && decide (ga < f.ga + f.n)

/-- A byte of global memory as an engine of this module reads it: local memory, or what has been fetched of another module. A
byte not fetched is free, and no stage ends with one (`State.withFetch`). -/
def Core.gByte (c : Core) (ga : Nat) : Byte :=
  if c.isLocal ga then c.rdByte (gaLocal ga)
  else match c.fetchedAt ga with
    | some f => f.data.getD (ga - f.ga) 0
    | none => Config.freeByte c.freeCtr ga

/-- The parts of at most 4,096 bytes of the addresses [lo, hi) that none of the ranges `have_` holds (R388). -/
def gapsOf (have_ : List (Nat × Nat)) : Nat → Nat → Nat → List (Nat × Nat)
  | 0, _, _ => []
  | k + 1, lo, hi =>
    if hi ≤ lo then []
    else match have_.find? fun r => decide (r.1 ≤ lo) && decide (lo < r.1 + r.2) with
      | some r => gapsOf have_ k (r.1 + r.2) hi
      | none =>
        let e := ((have_.map (·.1)).filter fun a => decide (lo < a)).foldl min (min hi (lo + 4096))
        (lo, e - lo) :: gapsOf have_ k e hi

/-- What the stage that reads now still lacks of a range of another module. -/
def Core.gaps (c : Core) (ga n : Nat) : List (Nat × Nat) :=
  let have_ := c.mine.map fun f => (f.ga, f.n)
  gapsOf have_ (2 * have_.length + n / 4096 + 2) ga (ga + n)

/-- A range that the stage lacks noted, so that it is requested (R388). -/
def Core.wantRead (c : Core) (key cls ga n : Nat) : Core :=
  let have_ := (c.mine.map fun f => (f.ga, f.n)) ++ c.want.map fun w => (w.ga, w.n)
  { c with want := c.want ++ (gapsOf have_ (2 * have_.length + n / 4096 + 2) ga (ga + n)).map fun g =>
      { key := key, cls := cls, ga := g.1, n := g.2 } }

/-- Whether responses for an owner are still to come. -/
def Core.fetching (c : Core) (o : Owner) : Bool := c.reqs.any fun r => match r.waiter with
  | .fetch q _ _ => q == o
  | _ => false

/-- READ_REQs for the ranges a stage lacks: those that share the first one's place, since later ones may depend on its bytes. -/
def Core.sendFetch (c : Core) (o : Owner) (ws : List Want) : Core :=
  (ws.filter fun w => some w.key == (ws.head?.map (·.key))).foldl (fun c w =>
    c.request (gaModule w.ga) w.cls (.fetch o w.ga w.n) fun tag => msgReadReq w.ga w.n tag) c

/-- A stage of work that reads memory for an owner (R76, R388, R391). While responses for the owner are out, nothing happens. A
stage that lacks bytes of other modules only requests them; one that has them all takes effect, and what was fetched for it is
used up. -/
def State.withFetch (s : State) (o : Owner) (stage : State → State) : State :=
  if s.core.fetching o then s
  else
    let s1 := stage { s with core := { s.core with reader := some o, want := [] } }
    if s1.core.want = [] then
      { s1 with core := { s1.core with reader := none, fetched := s1.core.fetched.filter fun f => f.owner != o } }
    else { s with core := s.core.sendFetch o s1.core.want }

/-- `n` bytes of global memory. -/
def Core.gBytes (c : Core) (ga n : Nat) : List Byte := (List.range n).map fun i => c.gByte (ga + i)

/-- A number of `bits` bits at a bit address. -/
def Core.gBits (c : Core) (bit : Int) (bits : Nat) : Nat :=
  let a := (bit / 8).toNat
  if bits < 8 then (c.gByte a).toNat >>> (bit % 8).toNat % 2 ^ bits else leNat (c.gBytes a (bits / 8))

/-- The pattern of the element at a stored index. -/
def Core.pattern (c : Core) (t : Tensor) (i : List Nat) : Nat := c.gBits (t.bitAddr i) (fmtBits t.r.fmt)

/-- The stored index of a logical one: under a mask, the kept value whose position matches, none for a dropped position.
The second value of a malformed group counts as dropped (R130). -/
def Core.stored (c : Core) (t : Tensor) (i : List Nat) : Option (List Nat) :=
  if t.mask then
    let g := i.getD 1 0 / 4
    let p := i.getD 1 0 % 4
    let s0 := i.set 1 (2 * g)
    let s1 := i.set 1 (2 * g + 1)
    let pos := fun s => (c.gByte (t.posAddr s).1.toNat).toNat >>> (t.posAddr s).2 % 4
    if pos s0 = p then some s0 else if pos s1 = p ∧ pos s0 < pos s1 then some s1 else none
  else some i

/-- Whether the group of a logical index is malformed (R130). -/
def Core.groupBad (c : Core) (t : Tensor) (i : List Nat) : Bool :=
  let g := i.getD 1 0 / 4
  let pos := fun s => (c.gByte (t.posAddr s).1.toNat).toNat >>> (t.posAddr s).2 % 4
  t.mask && decide (pos (i.set 1 (2 * g + 1)) ≤ pos (i.set 1 (2 * g)))

/-- The scale byte of a stored index; 127 where the record has none. -/
def Core.scaleOf (c : Core) (t : Tensor) (i : List Nat) : Nat :=
  if isNarrow t.r.fmt then (c.gByte (t.scaleAddr i).toNat).toNat else 127

/-- The stored indices of the recipe block of one (R257). -/
def Tensor.blockOf (t : Tensor) (i : List Nat) : List (List Nat) :=
  let n := if t.block = 0 then t.e t.kdim else t.block
  let k0 := i.getD t.kdim 0 / n * n
  (List.range n).map fun j => i.set t.kdim (k0 + j)

/-- Place of a stored index in its recipe block. -/
def Tensor.inBlock (t : Tensor) (i : List Nat) : Nat :=
  let n := if t.block = 0 then t.e t.kdim else t.block
  i.getD t.kdim 0 % n

/-- The four element bytes that hold F0: the first patterns of a block, low first (R266); a block of fewer than four element
bytes has no slot (R267). -/
def slotNumber (bits : Nat) (ws : List Nat) : Nat :=
  if ws.length * bits < 32 then 0xFFFF_FFFF
  else ((ws.take (32 / bits)).foldr (fun w acc => w % 2 ^ bits + 2 ^ bits * acc) 0)

/-- The BF16 pattern of element `j` of a fallback block of `n` elements whose first slot is `f0`: the canonical NaN when
the slots do not lie in the store (R266, R268). -/
def Core.slotValue (c : Core) (f0 n j : Nat) : Nat :=
  let base := c.fld Reg.numFbBase 43 0
  if f0 = 0xFFFF_FFFF ∨ c.fld Reg.numFbSlots 31 0 < f0 + ceilDiv n 128 then 0x7FC0
  else leNat ((List.range 2).map fun b => c.rdByte (base + 256 * f0 + 2 * j + b))

/-- The element at a stored index as a reader holds it: format, pattern and scale byte; of a fallback block the BF16 value in its
slots (R257, R268). -/
def Core.element (c : Core) (t : Tensor) (i : List Nat) : Held :=
  let x := c.scaleOf t i
  if isNarrow t.r.fmt && x == 0xFF then
    let blk := t.blockOf i
    let f0 := slotNumber (fmtBits t.r.fmt) ((blk.take 8).map (c.pattern t))
    { fmt := 2, pat := c.slotValue f0 blk.length (t.inBlock i), scale := 127 }
  else { fmt := t.r.fmt, pat := c.pattern t i, scale := x }

/-- What a held element stands for. -/
def Held.val (h : Held) : FVal := elemVal h.fmt h.pat h.scale

/-- The value of the element at a stored index, through its scale or its fallback slots (R257, R268). -/
def Core.value (c : Core) (t : Tensor) (i : List Nat) : FVal := (c.element t i).val

/-- The value as an FP32 lane. -/
def Core.lane (c : Core) (t : Tensor) (i : List Nat) : Lane := toLane (c.value t i)

/-- The scale-byte addresses of the fallback blocks among stored indices, each once (R268). -/
def Core.fallbacks (c : Core) (t : Tensor) (is : List (List Nat)) : List Int :=
  if isNarrow t.r.fmt then ((is.map t.scaleAddr).eraseDups).filter fun a => (c.gByte a.toNat) == 0xFF else []

/-- The bytes that hold the elements at stored indices, as global ranges; consecutive ranges are joined. -/
def joinRanges : List (Nat × Nat) → List (Nat × Nat)
  | [] => []
  | p :: ps =>
    match joinRanges ps with
    | [] => [p]
    | q :: qs =>
      if q.1 = p.1 + p.2 then (p.1, p.2 + q.2) :: qs
      else if p.1 ≤ q.1 ∧ q.1 < p.1 + p.2 then (p.1, max p.2 (q.1 + q.2 - p.1)) :: qs
      else p :: q :: qs

/-- The ranges of the scale bytes of stored indices. -/
def Tensor.scaleRanges (t : Tensor) (is : List (List Nat)) : List (Nat × Nat) :=
  joinRanges (if isNarrow t.r.fmt then ((is.map t.scaleAddr).eraseDups).map fun a => (a.toNat, 1) else [])

/-- The ranges of elements and scale bytes that stored indices touch. -/
def Tensor.elRanges (t : Tensor) (is : List (List Nat)) : List (Nat × Nat) :=
  joinRanges (is.map fun i => ((t.bitAddr i / 8).toNat, (fmtBits t.r.fmt + 7) / 8)) ++ t.scaleRanges is

/-- The ranges of mask positions that stored indices touch (R129). -/
def Tensor.posRanges (t : Tensor) (is : List (List Nat)) : List (Nat × Nat) :=
  joinRanges (if t.mask then ((is.map fun i => (t.posAddr i).1).eraseDups).map fun a => (a.toNat, 1) else [])

/-- The ranges of elements, scale bytes and mask positions that reading stored indices touches. -/
def Tensor.ranges (t : Tensor) (is : List (List Nat)) : List (Nat × Nat) := t.elRanges is ++ t.posRanges is

/-- The stored index at which the 64 by 64 block, or the unit, of a stored index begins. -/
def Tensor.blockStart (t : Tensor) (i : List Nat) : List Nat :=
  let w0 := match t.r.layout with
    | 2 => t.unitK
    | 3 => t.unitK
    | _ => 64
  let w1 := if t.r.layout = 1 then t.unitK else 64
  (i.set 0 (i.getD 0 0 / w0 * w0)).set 1 (i.getD 1 0 / w1 * w1)

/-- The stored indices of the block that begins at one. -/
def Tensor.blockAll (t : Tensor) (i : List Nat) : List (List Nat) :=
  let w0 := match t.r.layout with
    | 2 => t.unitK
    | 3 => t.unitK
    | _ => 64
  let w1 := if t.r.layout = 1 then t.unitK else 64
  (List.range (min w1 (t.e 1 - i.getD 1 0))).flatMap fun b => (List.range (min w0 (t.e 0 - i.getD 0 0))).map fun a =>
    (i.set 0 (i.getD 0 0 + a)).set 1 (i.getD 1 0 + b)

/-- The ranges that streaming stored indices reads: of an L-S64 record the whole words m0 to m1 + 62 of each run, for the rows m0
to m1 - 1 among them (R153). -/
def Tensor.reads (t : Tensor) (is : List (List Nat)) : List (Nat × Nat) :=
  if t.r.layout = 3 then
    let w := if t.wide then 256 else 128
    let runs := (is.map fun i => (t.originBit 2 i / 8 + ((t.unitPlace i).1 * t.unitBytes : Nat), i.getD 1 0)).eraseDups
    joinRanges (((runs.map (·.1)).eraseDups).map fun o =>
      let ms := (runs.filter fun r => r.1 == o).map (·.2)
      let m0 := ms.foldl min (ms.getD 0 0)
      ((o + (m0 * w : Nat)).toNat, (ms.foldl max 0 - m0 + 64) * w)) ++ t.scaleRanges is
  else t.ranges is

/-! ## What software's masks and recipes make of an opcode's records -/

/-- The kind of recipe of a record's role (R155): 0 weight, 1 activation, 2 embedding row, 3 optimiser state. -/
def Desc.kindOf (d : Desc) (i : Nat) : Nat :=
  match d.opcode with
  | 0x01 => if i = 1 then 0 else 1
  | 0x02 => if i = 1 then 0 else 1
  | 0x03 => if i = 2 then 0 else 1
  | 0x04 => 1
  | 0x20 => d.argF 3 2
  | 0x22 => 1
  | _ => 2

/-- The extents of record `i` by its role (R87), from M, N, K, B0, B1. -/
def Desc.roleExt (d : Desc) (i : Nat) : List Nat :=
  let m := d.m
  let n := d.n
  let k := d.k
  let b := [d.b0, d.b1, 1]
  match d.opcode, i with
  | 0x01, 0 => [k, m] ++ b
  | 0x01, 1 => [n, k] ++ b
  | 0x01, _ => [n, m] ++ b
  | 0x02, 0 => [n, m] ++ b
  | 0x02, 1 => [n, k] ++ b
  | 0x02, _ => [k, m] ++ b
  | 0x03, 0 => [k, m] ++ b
  | 0x03, 1 => [n, m] ++ b
  | 0x03, _ => [n, k, 1, 1, 1]
  | 0x21, 1 => if d.arg = 0 then [n, m] ++ b
    else (List.range 5).map fun j => ([n, m] ++ b).getD (bitsOf d.arg (3 * j + 2) (3 * j)) 1
  | 0x23, 0 => [m, 1, 1, 1, 1]
  | 0x23, _ => [n, 1, 1, 1, 1]
  | 0x24, 0 => [n, 1, 1, 1, 1]
  | 0x24, _ => [m, 1, 1, 1, 1]
  | 0x04, 0 => [n, m] ++ b
  | 0x04, 1 => if d.nrec = 2 ∧ bitOf d.arg 0 = true then [n, n] ++ b else [m, m] ++ b
  | 0x04, _ => [n, n] ++ b
  | 0x40, 0 => [m, 1, 1, 1, 1]
  | 0x40, 1 => [n, if bitOf d.arg 4 then m else 4096 * k, 1, 1, 1]
  | 0x40, 2 =>
    if d.argF 8 7 ≠ 0 then [n, roundUp m 64, 1, 1, 1]
    else if d.argF 6 5 = 2 then [n, d.b0, 1, 1, 1]
    else [n, if bitOf d.arg 4 then 4096 * k else m, 1, 1, 1]
  | 0x40, _ => [if d.argF 6 5 = 2 then d.b0 + 1 else m, 1, 1, 1, 1]
  | 0x41, 0 => [d.b1, m, 1, 1, 1]
  | 0x41, 2 => [256 * k, 2, 1, 1, 1]
  | 0x41, 3 => [d.b1, m, 1, 1, 1]
  | 0x42, 0 => if bitOf d.arg 0 then [n, m, 1, 1, 1] else [d.b1, m, 1, 1, 1]
  | 0x42, 1 => if bitOf d.arg 0 then [m, 1, 1, 1, 1] else [n, m * d.b0, 1, 1, 1]
  | 0x42, 2 => if bitOf d.arg 0 then [n, 64 * k, 1, 1, 1] else [n, m, 1, 1, 1]
  | 0x42, _ => [m, 1, 1, 1, 1]
  | 0x43, _ => [64 * m * 513, 1, 1, 1, 1]
  | 0x62, 2 => [4160, 1, 1, 1, 1]
  | 0x62, 3 => [65536 * leField (bytesAt d.recs 96 32) 16 4, 1, 1, 1, 1]
  | 0x41, _ => [n, m, 1, 1, 1]
  | op, _ => if op = 0x60 ∨ op = 0x61 ∨ op = 0x62 ∨ op = 0x63 then [16 * m, 1, 1, 1, 1] else [n, m] ++ b

end Sys2Proof.Machine
end

