-- ==== Sys2Proof/Machine/Numeric.lean ====
section
/-! DEFINITION. The narrowing points (spec/09_numerics.md): the overflow ladder with its counts, fallback to BF16, lost
blocks, the Lining, and the sampled narrow-against-wide checks. -/

namespace Sys2Proof.Machine

/-- A recipe block in Lining mode (R281): the ladder on the patterns, with the Lining found again at each attempt. -/
def lineAll (code b x : Nat) (xs : List (Rounding × Lane)) : Option (List (Nat × Nat)) :=
  xs.foldr (fun p acc => match lineTo code b p.1 x p.2, acc with
    | some w, some ws => some (w :: ws)
    | _, _ => none) (some [])

/-- What a narrowing point made of one block: the ladder's outcome, and the Lining of each element. -/
structure BlockPlan where
  out : Narrowed
  lining : List Nat
  deriving DecidableEq, Repr

/-- The ladder in Lining mode (R264, R281); an E4M3 block takes scale bytes, a BF16 element has none. -/
def lineLadder (code b headroom : Nat) (xs : List (Rounding × Lane)) : BlockPlan :=
  let x0 := scaleX0 code headroom (xs.map (·.2))
  let done := fun (x : Nat) (ws : List (Nat × Nat)) (r1 r2 : Bool) =>
    ({ out := { pats := some (ws.map (·.1)), scale := x, x0 := x0, retry1 := r1, retry2 := r2,
                zeros := ((xs.zip ws).filter fun p => isFinL p.1.2 && fAbs p.1.2 != 0 && isZeroPat code p.2.1 && p.2.2 == 0).length },
       lining := ws.map (·.2) } : BlockPlan)
  let fall := fun (r1 r2 : Bool) =>
    ({ out := { pats := none, scale := 0xFF, x0 := x0, retry1 := r1, retry2 := r2, zeros := 0 },
       lining := xs.map fun _ => 0 } : BlockPlan)
  match lineAll code b x0 xs with
  | some ws => done x0 ws false false
  | none =>
    if 254 < x0 + 1 then fall true false
    else match lineAll code b (x0 + 1) xs with
      | some ws => done (x0 + 1) ws true false
      | none =>
        if 254 < x0 + 2 then fall true true
        else match lineAll code b (x0 + 2) xs with
          | some ws => done (x0 + 2) ws true true
          | none => fall true true

/-- The block's element patterns when it falls back: F0 in its first four element bytes, or 0xFF there when it is lost
(R266, R267). -/
def markPats (bits f0 n : Nat) : List Nat :=
  (List.range n).map fun j => if j * bits < 32 then f0 / 2 ^ (j * bits) % 2 ^ bits else 0

/-- One numeric event entry (R283) over the fields its source gives. -/
def Core.numEvent (c : Core) (e : ErrInfo) (event : Nat) (err : Lane) (thresh kind x0 unit addr : Nat) : Core :=
  c.err { e with type := 3, status := 0, other := 0, ueCount := 0, event := event, addr := addr,
                 head := leBytes 4 err.toNat ++ leBytes 2 thresh ++ leBytes 1 kind ++ leBytes 1 x0 ++ leBytes 4 unit }

/-- What narrowing one block leaves: the core, the element patterns and the scale byte to write. -/
structure BlockEnd where
  core : Core
  pats : List Nat
  scale : Nat
  deriving DecidableEq, Repr

/-- The counts of a block that went through the ladder (R264). -/
def Core.countLadder (c : Core) (r : Narrowed) : Core :=
  let c1 := c.bump Reg.numNarrowBlocks 1
  let c2 := if r.retry1 then c1.bump Reg.numOvfRetry1 1 else c1
  let c3 := if r.retry2 then c2.bump Reg.numOvfRetry2 1 else c2
  c3.bump Reg.numUnderflow r.zeros

/-- A block narrowed or fallen back (R264, R266, R267): counts, the grant of slots, the slot writes and the report of
R283. `code` is the format, `xs` the wide values, `ctrl` the latched NUM_CTRL, `addr` the global address of the scale byte
`t` the tile whose engine writes, and `who` waits for slot writes that memory holds back (R422). -/
def Core.finishBlock (c : Core) (t p ctrl kind code addr : Nat) (e : ErrInfo) (r : Narrowed) (xs : List Lane)
    (who : Waiter := .nobody) : BlockEnd :=
  let c1 := c.countLadder r
  match r.pats with
  | some ws => { core := c1, pats := ws, scale := r.scale }
  | none =>
    let n := xs.length
    let bits := fmtBits code
    let want := ceilDiv n 128
    let next := c1.fld Reg.numFbNext 31 0
    let c2 := c1.bump Reg.numFallback 1
    if next + want ≤ c1.fld Reg.numFbSlots 31 0 ∧ 32 ≤ n * bits then
      let bytes := xs.flatMap fun x => leBytes 2 (toBf16 x)
      let base := c2.fld Reg.numFbBase 43 0 + 256 * next
      let c3 := ((c2.setFld Reg.numFbNext 31 0 (next + want)).store base (bytesAt bytes 0 (256 * want)) who).1
      let c4 := ((c3.countServed .wr base (256 * want)).bump (Reg.tcntHbmWr t) (256 * want)).bump (Reg.tcntPlane t p) (256 * want)
      let c5 := if bitOf ctrl 6 then c4.numEvent e 2 0 0 kind r.x0 next addr else c4
      { core := c5, pats := markPats bits next n, scale := 0xFF }
    else
      let c3 := c2.bump Reg.numFbLost 1
      let c4 := if bitOf ctrl 6 then c3.numEvent e 3 0 0 kind r.x0 0xFFFF_FFFF addr else c3
      { core := c4, pats := markPats bits 0xFFFF_FFFF n, scale := 0xFF }

/-- Whether a unit is chosen for the sampled check (R272): the latched NUM_CTRL, TENSOR_ID, step and unit index. -/
def unitChosen (ctrl tid step u : Nat) : Bool :=
  bitOf ctrl 4 &&
    crc32 (leBytes 4 (tid % 2 ^ 24) ++ leBytes 6 step ++ [0, 0] ++ leBytes 4 u) % 2 ^ (ctrl % 16) == 0

/-- The threshold of a kind in the latched NUM_THRESH, in BF16. -/
def threshOf (thresh kind : Nat) : Nat := bitsOf thresh (16 * kind + 15) (16 * kind)

/-- The sampled check of a unit (R273, R274): pairs of wide and widened narrow values in ascending order; `addr` is the
global address of the unit's first element. -/
def Core.checkUnit (c : Core) (ctrl thresh kind tid step u addr : Nat) (e : ErrInfo) (xs : List (Lane × Lane)) : Core :=
  if unitChosen ctrl tid step u then
    let err := checkError xs
    let th := threshOf thresh kind
    let c1 := c.bump Reg.numChecks 1
    if fLt (ofBf16 th) err then
      let c2 := c1.bump Reg.numCheckExcess 1
      let worst := BitVec.ofNat 32 (c2.fld Reg.numCheckWorst 31 0)
      let c3 := if fLt worst err then
          c2.wr Reg.numCheckWorst (BitVec.ofNat 64 (err.toNat + 2 ^ 32 * (tid % 2 ^ 24))) else c2
      let c4 := if bitOf ctrl 5 then c3.numEvent e 1 err th kind 0 u addr else c3
      { c4 with events := c4.events ++ [0] }
    else c1
  else c

/-- The value that a reader gets of each element of a block just narrowed: through its scale, or the BF16 value kept in
its slots, or NaN when it is lost (R268). -/
def BlockEnd.widen (b : BlockEnd) (code : Nat) (xs : List Lane) : List Lane :=
  if b.scale = 0xFF then
    (if slotNumber (fmtBits code) (b.pats.take 8) = 0xFFFF_FFFF then xs.map fun _ => nanLane else xs.map fun x => ofBf16 (toBf16 x))
  else b.pats.map fun w => toLane (elemVal code w b.scale)

end Sys2Proof.Machine
end

