-- ==== Sys2Proof/Machine/Keys.lean ====
section
/-! DEFINITION. Key commands (R496 to R498, R502, R503): programming and revoking the fused key slots. -/

namespace Sys2Proof.Machine

/-- KEY_CMD ends with a RESULT: DONE set, GO and CMD_BUSY clear. -/
def Core.keyEnd (c : Core) (result : Nat) : Core :=
  ((((c.setFld Reg.keyResult 7 0 result).setBit Reg.keyResult 8 true).setBit Reg.keyCmd 4 false).setBit Reg.secStatus 8 false)

/-- The hash in KEY_STAGE. -/
def Core.stagedHash (c : Core) : List Byte := (List.range 8).flatMap fun i => leBytes 8 (c.rd (Reg.keyStage i)).toNat

/-- The refusal of a key command (R497): zero for none. -/
def State.keyRefusal (s : State) (op slot : Nat) : Nat :=
  let f := s.part.fuses
  if op = 1 then
    if allZero (f.keyHash.getD slot []) = false then 0x21
    else if allZero s.core.stagedHash then 0x22
    else 0
  else if keyPresent f slot = false then 0x23
  else if s.pat.run.any fun i => i.key == slot then 0x24
  else if ((List.range 4).any fun k => k != slot && keyPresent f k) = false then 0x25
  else 0

/-- A key command starts: refused at once, or RESULT 0x01 until KEY_CMD_DONE. -/
def State.keyStart (s : State) (op slot : Nat) : State :=
  match s.keyRefusal op slot with
  | 0 => { s with core := (s.core.setFld Reg.keyResult 7 0 1).setBit Reg.secStatus 8 true, pwr := { s.pwr with keyOp := some (op, slot), keyQueued := none } }
  | code => { s with core := s.core.keyEnd code, pwr := { s.pwr with keyQueued := none } }

/-- The end of an epoch check starts the key command that waits for it (R498). -/
def State.keyAfterCheck (s : State) : State :=
  match s.pwr.keyQueued with
  | some (op, slot) => s.keyStart op slot
  | none => s

/-- A write to KEY_CMD (R497, R498, R502, R503): ignored while CMD_BUSY; GO starts OP, or queues it behind an epoch check. -/
def State.keyCommand (s : State) (v : Word) : State :=
  if s.core.bit Reg.secStatus 8 then s
  else
    let c := s.core.wr Reg.keyCmd (v &&& 0xFFFF_000F)
    if getF v 4 4 = 0 then { s with core := c }
    else if getF v 31 16 ≠ 0xC1E5 ∨ (getF v 3 2 ≠ 1 ∧ getF v 3 2 ≠ 2) then { s with core := c.keyEnd 0x20 }
    else
      let s1 : State := { s with core := c.setBit Reg.keyCmd 4 true }
      if s.pat.checking.isSome then
        { s1 with core := s1.core.setBit Reg.secStatus 8 true, pwr := { s1.pwr with keyQueued := some (getF v 3 2, getF v 1 0) } }
      else s1.keyStart (getF v 3 2) (getF v 1 0)

/-- The word of KEY_CMD with GO. -/
def keyWord (op slot confirm : Nat) : Word := BitVec.ofNat 64 (slot % 4 + 4 * op + 16 + 2 ^ 16 * (confirm % 2 ^ 16))

/-- KEY_PROGRAM. -/
def execKeyProgram (slot confirm : Nat) (s : State) : Host.Outcome State Fault Refusal := s.clocked <| .next (s.keyCommand (keyWord 1 slot confirm))

/-- KEY_REVOKE. -/
def execKeyRevoke (slot confirm : Nat) (s : State) : Host.Outcome State Fault Refusal := s.clocked <| .next (s.keyCommand (keyWord 2 slot confirm))

/-- Hash bits blown into a slot: fuses only change from 0 to 1 (R496). -/
def Fuses.blow (f : Fuses) (slot : Nat) (bits : List Byte) : Fuses :=
  { f with keyHash := f.keyHash.set slot (List.zipWith (· ||| ·) (bytesAt (f.keyHash.getD slot []) 0 64) (bytesAt bits 0 64)) }

/-- A slot's revocation fuse blown, for good (R496). -/
def Fuses.revoke (f : Fuses) (slot : Nat) : Fuses := { f with revoked := f.revoked.set slot true }

/-- The registers that show a slot's fuses (R502, R503). -/
def Core.showKey (c : Core) (f : Fuses) (k : Nat) : Core :=
  ((c.putHash (Reg.keyHash k 0) (f.keyHash.getD k [])).setBit Reg.secStatus k !(allZero (f.keyHash.getD k []))).setBit Reg.secStatus
    (4 + k) (f.revoked.getD k false)

/-- KEY_CMD_DONE: the fuses as blown, RESULT 0x10, or 0x26 when the read-back of a programmed hash differs. An epoch check that waited
for the command may then run (R498). -/
def execKeyCmdDone (blown : List Byte) (s : State) : Host.Outcome State Fault Refusal :=
  s.clocked <| .next
    (match s.pwr.keyOp with
    | none => s
    | some (op, slot) =>
      let f := if op = 1 then s.part.fuses.blow slot blown else s.part.fuses.revoke slot
      let code := if op = 1 ∧ f.keyHash.getD slot [] ≠ s.core.stagedHash then 0x26 else 0x10
      { s with part := { s.part with fuses := f }, core := (s.core.showKey f slot).keyEnd code,
               pwr := { s.pwr with keyOp := none, epochQueued := false } })

end Sys2Proof.Machine
end

