-- ==== Sys2Proof/Machine/Pins.lean ====
section
/-! DEFINITION. What the pins show (R59, R453, R455, R466, R467, R479, R512), and the state of performance and sleep that they and the
start share (R446, R470). Pins are numbered as in the pin image: 0 to 15 GPIO0 to GPIO15, 16 to 19 STAT0 to STAT3. -/

namespace Sys2Proof.Machine

/-- The status code on STAT3 to STAT0 (R467) outside a pulse of POR_N or WARM_RST_N, which shows 0xF. -/
def State.statCode (s : State) : Nat :=
  if s.pwr.tripped then 9
  else if s.core.bit Reg.startStatus 4 then 8
  else if s.core.sleepState ≠ 0 then 9 + s.core.sleepState
  else s.core.fld Reg.startStatus 2 0

/-- The function and pull that the pin overlay gives a pin, where it is in effect and the fuses mark the pin overlayable (R59). -/
def State.pinFunction (s : State) (pin : Nat) : Option (Nat × Nat) :=
  if s.pat.overlayOn && s.part.fuses.overlayable.contains pin then
    (match s.pat.run with
    | some i => ((overlayEntries (i.section 7)).find? fun e => e.1 == pin).map (·.2)
    | none => none)
  else none

/-- A driven level. -/
def PinState.level (b : Bool) : PinState := if b then .high else .low

/-- A pin by its code in the pin image (R466), with what its default function shows. -/
def imagePin (code : Nat) (dflt : PinState) : PinState :=
  match code with
  | 0 => .hiZ
  | 1 => .pullUp
  | 2 => .pullDown
  | 3 => .low
  | 4 => .high
  | _ => dflt

/-- An input by the PULL of its overlay entry (R59). -/
def pulledPin (pull : Nat) : PinState :=
  match pull with
  | 1 => .pullUp
  | 2 => .pullDown
  | _ => .hiZ

/-- A GPIO or STAT pin while the status code is `code` (R59, R466, R467). The level that software gives an output (function 1) is in no
register of the spec and is free (log entry 65). -/
def State.pinWith (s : State) (code pin : Nat) : PinState :=
  match s.pinFunction pin with
  | some (1, _) => .level (Config.freeBit (s.core.freeCtr + pin))
  | some (2, _) => .level (s.core.bit Reg.startStatus 3)
  | some (3, _) => .level (s.core.bit Reg.startStatus 4)
  | some (4, _) => .level (s.core.bit Reg.plStatus 7)
  | some (_, p) => pulledPin p
  | none => imagePin (s.part.fuses.pins.getD pin 0) (if 16 ≤ pin then .level (bitOf code (pin - 16)) else .hiZ)

/-- What a GPIO or STAT pin shows. While their group is held, the level it had at entry to S4 (R455, R457). -/
def State.pinDrive (s : State) (code pin : Nat) : PinState :=
  if s.core.bit Reg.padHold 3 then s.pwr.heldPins.getD pin .hiZ else s.pinWith code pin

/-- STAT0 to STAT3 shown while a pulse on a reset pin holds the module in reset: code 0xF, on the pin image, since a reset ends the
overlay (R459, R466, R467). -/
def State.showReset (s : State) : State :=
  let s0 : State := { s with pat := { s.pat with overlayOn := false } }
  s.onCore fun c => c.emit (.stat ((List.range 4).map fun i => s0.pinDrive 0xF (16 + i)))

/-- THERM_TRIP_N is driven low from a trip until POR_N, and else released (R453, R466). -/
def State.thermTripPin (s : State) : PinState := if s.pwr.tripped then .low else .hiZ

/-- DOFF_IN, an input (R512). -/
def State.doffInPin (s : State) : PinState := imagePin (s.part.fuses.pins.getD 20 0) .hiZ

/-- DOFF_OUT: high when idle, low for 64 ticks from a freeze (R479, R512). -/
def State.doffOutPin (s : State) : PinState := imagePin (s.part.fuses.pins.getD 21 0) (.level s.pwr.doffOutUntil.isNone)

/-- The flash pins (`k` 0), the PMBus pins (1), the I2C pins (2) and TDO (3) (R512). -/
def State.busPin (s : State) (k : Nat) : PinState := imagePin (s.part.fuses.pins.getD (22 + k) 0) .bus

/-- RESET_n of a DDR5 channel: low until the channel is trained at B4 (R512); held behind PAD_HOLD at the level it then had (R455). -/
def State.ddrResetPin (s : State) (ch : Nat) : PinState :=
  if s.core.bit Reg.padHold 1 || s.core.bit (Reg.ddrChStatus ch) 0 then .high else imagePin (s.part.fuses.pins.getD 26 0) .high

/-- The other pins of a DDR5 channel: their controller's once the channel is trained (R512). -/
def State.ddrPins (s : State) (ch : Nat) : PinState :=
  if s.core.bit Reg.padHold 1 || s.core.bit (Reg.ddrChStatus ch) 0 then .bus else imagePin (s.part.fuses.pins.getD 27 0) .bus

/-- The transmitters of an Ethernet port: idle until training at B6 (R512), and EP0's on in Bare mode (R464). -/
def State.epTx (s : State) (p : Nat) : PinState :=
  if s.core.bit Reg.padHold 2 || (s.core.bit Reg.startStatus 4 && p == 0) || decide (6 ≤ s.core.fld Reg.startStatus 2 0 ∧ s.core.bit Reg.startStatus 4 = false)
  then .bus else .idle

/-- The transmitters of a Quiras link: idle until it trains (R382, R512). -/
def State.qlTx (s : State) (l : Nat) : PinState :=
  if s.core.bit Reg.padHold 2 || s.core.fld (Reg.qlStatus l) 1 0 != 0 then .bus else .idle

end Sys2Proof.Machine
end

