-- ==== Sys2Proof/Machine/Boot.lean ====
section
/-! DEFINITION. Starting the module (spec/15_clocks_power_reset.md): resets, the bring-up stages B0 to B6, failed starts,
Bare mode, and the Pattern's structure epochs. -/

namespace Sys2Proof.Machine

/-! ## Ends of a checkpoint or restore -/

/-- A checkpoint or restore ends with a result (R435). -/
def Core.hbEnd (c : Core) (result : Nat) : Core :=
  (((((c.setFld Reg.hbStatus 2 0 0).setFld Reg.hbStatus 15 8 result).setBit Reg.hbStatus 16 true).setBit Reg.hbCtrl 0
    false).setBit Reg.hbCtrl 2 false)

/-- What an ended exchange leaves: no page pending or staged, no message awaited. -/
def State.hbClear (s : State) : State :=
  { s with core := { s.core with pend := [], pageOut := [], reqs := s.core.reqs.filter fun r => r.waiter != .hatbox },
           integ := { s.integ with hbPages := [], hbSent := [], hbFits := false } }

/-- A checkpoint that ends before its commit: its pages count as changed (R426). -/
def State.hbDrop (s : State) (result : Nat) : State :=
  { s with core := ({ s.core with clean := s.core.clean.filter fun p => !(s.integ.hbPages.contains p) } : Core).hbEnd result }

/-- A failed checkpoint (R426): its pages count as changed, EVENT 0x51 is sent. -/
def State.hbFail (s : State) (result : Nat) : State :=
  ((s.hbDrop result).onCore fun c => c.blockEvent 0x51 result 0).hbClear

/-- A write of 1 to HB_CTRL.ABORT (R426, R428). -/
def State.hbAbort (s : State) : State := if s.core.fld Reg.hbStatus 2 0 = 0 then s else s.hbFail 4

/-! ## What a reset keeps (R459, R461) -/

/-- The registers that survive a reset: the AON fields of START_STATUS, RST_CAUSE, and, unless `por`, the residency
counters, which clear only through PWR_CTRL.CNT_CLEAR (R458, R461). -/
def aonCtl (por : Bool) (c : Core) : List (Nat × Word) :=
  sPut (c.ctl.filter fun p => p.1 == Reg.rstCause ||
      (!por && decide (Reg.residS 0 ≤ p.1) && decide (p.1 ≤ Reg.residPl 7)))
    Reg.startStatus (c.rd Reg.startStatus &&& 0x00FF_FF60) (resetWord Reg.startStatus)

/-- The core after a reset that keeps the timebase and DRAM (R459): every register not marked AON and every queue of the
engines is lost; the SRAM is zero; every page counts as changed (R426). -/
def Core.reset (c : Core) (por : Bool) : Core :=
  let c1 := c.zeroSram
  { Core.initial with now := if por then 0 else c.now, ctl := aonCtl por c, mem := c1.mem, undef := c1.undef, ue := c1.ue,
                      outbox := c.outbox, freeCtr := c.freeCtr }

/-- HB_STATUS after a reset: a warm reset that ends a checkpoint or restore leaves RESULT 0x04 and DONE in it (R426), where R459
by itself would clear the register; after POR_N it reads zero (DEDUCED, log entry 81). -/
def State.hbAfter (s : State) (por : Bool) : Word := if por || s.core.fld Reg.hbStatus 2 0 == 0 then 0 else 0x1_0400

/-- The module after a reset, with no stage begun: `por` for POR_N. The Pattern, contexts, engines, queues, partner
contexts, links and pending epochs are lost (R459, R70); a warm reset abandons a checkpoint or restore as HB_CTRL.ABORT does
(R426). A warm reset keeps what the journal mirror in DRAM holds, and the module finds its entries there again (R424, R427, log entry 35). -/
def State.lose (s0 : State) (por : Bool) : State :=
  let s := if por then s0 else s0.hbAbort
  { s with
    core := (s.core.reset por).wr Reg.hbStatus (s0.hbAfter por)
    pat := State.reset.pat
    palm := []
    work := Work.initial
    red := State.reset.red
    net := Net.initial
    links := State.reset.links
    integ := if por then Integ.initial else { Integ.initial with mirror := s.integ.mirror, mirHead := s.integ.mirHead }
    pwr := { Pwr.initial with starting := false, fromS4 := s0.pwr.fromS4, phyCopy := !por && (s.pwr.phyCopy || s.core.bit Reg.hbmStatus 0),
                              memKept := !por && (s.pwr.memKept || s.core.bit Reg.hbmStatus 0), trims := [] } }

/-- Stage `k` begins: STAGE, its start time and the module's start flag (R462). -/
def State.beginStage (s : State) (k : Nat) : State :=
  let c1 := ((s.core.setFld Reg.startStatus 2 0 k).setBit Reg.startStatus 3 false).setBit Reg.startStatus 4 false
  { s with core := c1.wr (Reg.startStageAt k) c1.now, pwr := { s.pwr with starting := true } }

/-- FAIL_COUNT raised, and the stage and code of the failure kept (R463). -/
def Core.noteFail (c : Core) (stage code : Nat) : Core :=
  let c1 := c.setFld Reg.startStatus 6 5 (min (c.fld Reg.startStatus 6 5 + 1) 3)
  (c1.setFld Reg.startStatus 15 8 stage).setFld Reg.startStatus 23 16 code

/-- The registers that stage B1 loads from the fuse bank: grade, serial number, keys, good tiles' count, trip
temperatures, MAC addresses and the identity key (R8, R403, R470, R502). -/
def loadFuses (f : Fuses) (c : Core) : Core :=
  let c1 := (c.setFld Reg.moduleInfo 0 0 f.grade).setFld Reg.moduleInfo 15 8 (gradeActive f.grade)
  let c2 := (c1.setFld Reg.thermStatus 31 24 f.tripDie).setFld Reg.thermStatus 39 32 f.tripHbm
  let c3 := (c2.wr (Reg.epMac 0) (BitVec.ofNat 64 (f.mac.getD 0 0 % 2 ^ 48))).wr (Reg.epMac 1)
    (BitVec.ofNat 64 (f.mac.getD 1 0 % 2 ^ 48))
  let c4 := c3.wr Reg.secSerial (BitVec.ofNat 64 f.serial)
  let c5 := (List.range 4).foldl (fun c k =>
    ((c.putHash (Reg.keyHash k 0) (f.keyHash.getD k [])).setBit Reg.secStatus k
      !(allZero (f.keyHash.getD k []))).setBit Reg.secStatus (4 + k) (f.revoked.getD k false)) c4
  let pub := beBytes 512 f.idModulus
  let c6 := (List.range 64).foldl (fun c i => c.wr (Reg.idPub i) (BitVec.ofNat 64 (leField pub (8 * i) 8))) c5
  if f.idModulus = 0 then c6
  else (c6.putHash (Reg.idHash 0) (sha512 (pub ++ [0, 1, 0, 1]))).setBit Reg.secStatus 10 true

/-- The fuse map loaded into the registers, and remembered as B1 found it (R500). -/
def State.loadFuseMap (s : State) : State :=
  { s with core := loadFuses s.part.fuses s.core, pat := { s.pat with atB1 := s.part.fuses } }

/-- Bare mode (R464): no Pattern, no tiles, no memory tier, no link, no main PLL; EP0 alone runs, at 400GBASE-R, with the fuse bank read (a start that a reset ended before B1
has not done so). -/
def State.enterBare (s0 : State) : State :=
  let s := s0.loadFuseMap
  let c1 := (s.core.setBit Reg.startStatus 4 true).setBit Reg.startStatus 3 false
  let c2 := (c1.setFld (Reg.epStatus 0) 2 1 3).setFld (Reg.epStatus 1) 2 0 0
  let c3 := (c2.setFld Reg.startStatus 2 0 (c2.fld Reg.startStatus 15 8)).setBit Reg.hbmStatus 0 false
  let c4 := ((c3.setBit Reg.ddrStatus 0 false).wr Reg.ddrCapacity 0).setFld Reg.plStatus 2 0 0
  let c5 := (List.range 16).foldl (fun c ch => c.setBit (Reg.ddrChStatus ch) 0 false) c4
  let c6 := (List.range 12).foldl (fun c l => c.setFld (Reg.qlStatus l) 1 0 0) c5
  { s with
    core := c6.wr Reg.clkStatus 0
    pat := { s.pat with run := none, overlayOn := false }
    palm := []
    work := Work.initial
    red := State.reset.red
    links := State.reset.links
    pwr := { s.pwr with starting := false } }

/-- RST_CAUSE.CAUSE set (R471). -/
def Core.cause (c : Core) (k : Nat) : Core := c.setFld Reg.rstCause 3 0 k

/-- A failed stage (R463): below three failures the module restarts from B1 at once; at three it enters Bare mode. -/
def State.stageFail (s : State) (code : Nat) : State :=
  let c := s.core.noteFail (s.core.fld Reg.startStatus 2 0) code
  if c.fld Reg.startStatus 6 5 < 3 then
    let s1 := ({ s with core := c } : State).lose false
    ({ s1 with core := s1.core.cause 5 } : State).beginStage 1
  else ({ s with core := c } : State).enterBare

/-- Whether stage `k` is the one that a start is running. -/
def State.inStage (s : State) (k : Nat) : Bool :=
  s.pwr.powered && s.pwr.starting && !s.pwr.tripped && s.core.fld Reg.startStatus 2 0 == k

/-- A reset from stage `first` with its cause (R459). A reset that arrives in B0 to B6 first fails the start under way with
code 0xF0 (R462), and at the third failure the module enters Bare mode (R463). Bare mode itself ends with the reset
(R465). -/
def State.resetFrom (s : State) (por : Bool) (cause first : Nat) : State :=
  if s.pwr.starting then
    let c := s.core.noteFail (s.core.fld Reg.startStatus 2 0) 0xF0
    let s1 := ({ s with core := c } : State).lose por
    let s2 : State := { s1 with core := s1.core.cause cause }
    if c.fld Reg.startStatus 6 5 < 3 then s2.beginStage first else s2.enterBare
  else
    let s1 := s.lose por
    ({ s1 with core := s1.core.cause cause } : State).beginStage first

/-- A reset taken through `f` that is the exit from S4 where the module sleeps there: S4's time is counted, every pad group is still
held, and B1 first raises VDD_B (R454, R456 to R458). -/
def State.throughS4 (s : State) (f : State → State) : State :=
  if s.core.sleepState = 4 then
    let s1 := f (s.onCore fun c => c.bump (Reg.residS 4) (s.core.now - s.pwr.s4At).toNat)
    { s1 with core := s1.core.wr Reg.padHold 0xF, pwr := { s1.pwr with fromS4 := true, heldPins := s.pwr.heldPins } }
  else f s

/-- A warm reset (R459): from B1, with DRAM kept in self-refresh (R457). A trip holds the module until POR_N. One that arrives in S4 is
the exit from it (R454); DEDUCED (log entry 83): RST_CAUSE then names the source, and the wake pin alone shows 6. -/
def State.warmReset (s : State) (cause : Nat) : State :=
  if s.pwr.powered && !s.pwr.tripped then s.throughS4 fun s => s.resetFrom false cause 1 else s

/-- Whether a low pulse of `ns` nanoseconds on a reset pin is honoured: never below 2 us, always from 3 us, and either way
between (R460). -/
def pulseTaken (c : Core) (ns : Nat) : Bool :=
  if ns < 2000 then false else if 3000 ≤ ns then true else Config.freeBit c.freeCtr

/-- One free value used. -/
def State.useFree (s : State) : State := { s with core := s.core.fresh.2 }

/-! ## Reset sources and stages -/

/-- VDD_AON rises (R459, R461): everything is lost, AON registers take zero, and a start begins at B0. -/
def execVddAonRise (s : State) : Host.Outcome State Fault Refusal :=
  .next
    (if s.pwr.powered then s
     else
      let s1 := s.lose true
      ({ s1 with core := { s1.core.loseMemory with ctl := [] }, pwr := { s1.pwr with fromS4 := false } } : State).beginStage 0)

/-- VDD_AON falls, last of the rails at power-down (R516): every register and the copy of the PHY settings are lost, and
so are the contents of memory (R457, R459). The fuse bank and the flash stay. -/
def execVddAonFall (s : State) : Host.Outcome State Fault Refusal :=
  .next
    (let s1 := s.lose true
     { s1 with core := { s1.core.loseMemory with ctl := [] }, pwr := { s1.pwr with powered := false, fromS4 := false } })

/-- A pulse on POR_N (R459, R460): on release a start begins at B0; AON registers stay, the timebase restarts at zero and
DRAM contents are not guaranteed. It ends a thermal trip (R453). -/
def execPorN (ns : Nat) (s : State) : Host.Outcome State Fault Refusal :=
  .next
    (let s0 := s.useFree
     if s.pwr.powered && pulseTaken s.core ns then
       let s1 := s0.showReset.throughS4 fun s => s.resetFrom true 1 0
       { s1 with core := s1.core.loseMemory }
     else s0)

/-- Whether a pulse on WARM_RST_N that ends now began before POR_N was released: the timebase of B0 has run from zero since then, at 9
ticks in 10 ns (R439). -/
def State.underPor (s : State) (ns : Nat) : Bool := s.inStage 0 && decide (10 * s.core.now.toNat ≤ 9 * ns)

/-- A pulse on WARM_RST_N (R459, R460). While both pins are low POR_N governs: the start that follows their release begins at B0, and a
pulse that fell within that of POR_N has no further effect (R511, log entry 99). -/
def execWarmRstN (ns : Nat) (s : State) : Host.Outcome State Fault Refusal :=
  .next
    (if pulseTaken s.core ns then
      (if s.underPor ns then (s.useFree.onCore fun c => { c with now := 0 }).beginStage 0
       else if s.pwr.powered && !s.pwr.tripped then s.useFree.showReset.warmReset 2 else s.useFree)
     else s.useFree)

/-- A write of 1 to RST_CTRL.WARM (R471). -/
def execRstWarm (s : State) : Host.Outcome State Fault Refusal := s.clocked <| .next (s.warmReset 4)

/-- Stage B0 (R462): the always-on PLL locks. The timebase has run from zero since the stage began (R439). -/
def execStageB0 (s : State) : Host.Outcome State Fault Refusal :=
  .next (if s.inStage 0 then s.beginStage 1 else s)

/-- The rise of VDD_B after S4 (R456): VOUT_COMMAND 0x21 with the PL2 voltage, 600 mV (R515), to which no calibration offset has been
loaded yet, OPERATION 0x01, and READ_VOUT 0x8B until the rail is in tolerance. -/
def State.raiseVddb (s : State) : State :=
  if s.pwr.fromS4 then s.onCore fun c => ((c.emit (.pmbus 4 0x21 600)).emit (.pmbus 4 0x01 0x80)).emit (.pmbus 4 0x8B 0) else s

/-- Stage B1 (R462): after S4 VDD_B is restored (R456), then the fuse map is loaded; a fuse CRC error fails with 0x01, a
VDD_B fault after S4 with 0x21, and VDD_B then still has to rise. -/
def execStageB1 (crcOk vddbOk : Bool) (s : State) : Host.Outcome State Fault Refusal :=
  .next
    (if s.inStage 1 then
      if s.pwr.fromS4 && !vddbOk then s.raiseVddb.stageFail 0x21
      else
        let s1 : State := { s.raiseVddb with pwr := { s.pwr with fromS4 := false } }
        if !crcOk then s1.stageFail 0x01 else s1.loadFuseMap.beginStage 2
    else s)

/-- The result of one slot's check put into SLOT_FAIL, PAT_STATUS and SIG_FAILS (R71, R502). -/
def Core.noteSlot (c : Core) (slot : Nat) (r : Nat × Nat × Option Image) : Core :=
  let c1 := c.wr (if slot = 0 then Reg.slotFailA else Reg.slotFailB) (BitVec.ofNat 64 (r.1 + 256 * r.2.1))
  let c2 := c1.setBit Reg.patStatus (1 + slot) (r.1 == 0)
  if r.1 = 7 ∨ r.1 = 8 then c2.bump Reg.sigFails 1 else c2

/-- The image that B2 runs: the valid slot with the higher SEQUENCE, slot A if equal (R41). -/
def chooseImage (a b : Option Image) : Option Image :=
  match a, b with
  | some x, some y => if x.seq < y.seq then some y else some x
  | some x, none => some x
  | none, y => y

/-- PAT_STATUS.RUN_SLOT, PAT_SEQUENCE, PAT_HASH and CHAIN_VALID of the running image (R71). -/
def Core.showImage (c : Core) (i : Image) : Core :=
  (((c.setFld Reg.patStatus 0 0 i.slot).wr Reg.patSequence (BitVec.ofNat 64 i.seq)).putHash (Reg.patHash 0) i.hash).wr
    Reg.chainValid (BitVec.ofNat 64 (chainMask i))

/-- The memory layout latched at B2 (R319, R323, R342): interleave, reservation and disabled adders. -/
def latchLayout (l : List Byte) (c : Core) : Core :=
  let rsv := bitOf (leField l 2 1) 0
  let c1 := ((c.setBit Reg.hbmStatus 1 rsv).setFld Reg.hbmStatus 3 2 (leField l 0 1)).setFld Reg.hbmStatus 12 4
    (if rsv then 360 else 384)
  let c2 := c1.setFld Reg.ddrStatus 4 3 (leField l 1 1)
  (List.range 384).foldl (fun c ch =>
    let off := bitOf (leField l 16 48) ch
    let res := rsv && decide (30 ≤ ch % 32)
    if off || res then (c.setBit (Reg.addChStatus ch) 0 off).setBit (Reg.addChStatus ch) 1 res else c) c2

/-- The voltage offsets of a valid set, level by level and rail by rail (R60). -/
def readOffsets (fl : List Host.Cell) : List Int :=
  let set := flashBytes fl 0x102_0200 128
  (List.range 64).map fun i => signedOf 16 (leField set (2 * i) 2)

/-- Stage B2 (R41, R45, R59, R61): both slots are checked, the valid one with the higher SEQUENCE is loaded, the tile map
is built, the memory layout latched and the calibration set classified; with no valid slot the stage fails with 0x10. -/
def execStageB2 (s : State) : Host.Outcome State Fault Refusal :=
  .next
    (if s.inStage 2 then
      let f := s.part.fuses
      let fl := s.part.flash
      let ra := checkSlot f fl 0
      let rb := checkSlot f fl 1
      let c1 := (s.core.noteSlot 0 ra).noteSlot 1 rb
      match chooseImage ra.2.2 rb.2.2 with
      | none => ({ s with core := c1 } : State).stageFail 0x10
      | some i =>
        let cal := calClass f fl
        let m := sectionMap f (i.section 1)
        let skipped := (overlayEntries (i.section 7)).any fun e => !(f.overlayable.contains e.1)
        let c2 := ((c1.showImage i).setFld Reg.patStatus 4 3 cal).setBit Reg.patStatus 5 (decide (cal ≠ 0))
        let c3 := ((c2.setBit Reg.patStatus 6 skipped).setFld Reg.patStatus 7 7 (leField (i.section 1) 0 1)).setFld
          Reg.moduleInfo 23 16 (mapSpares m).length
        let c4 := if cal = 1 then c3 else c3.putHash (Reg.calHash 0) (sha512 (flashBytes fl 0x100_0000 calLength))
        ({ s with core := latchLayout (i.section 4) c4,
                  pat := { run := some i, map := m, calOffsets := if cal = 0 then readOffsets fl else [],
                           calTrims := if cal = 0 then flashBytes fl 0x101_F000 0x1200 else [],
                           checking := none, ready := none, overlayOn := true, atB1 := s.pat.atB1 } } : State).beginStage 3
    else s)

/-- ROOT_MULT and VCORE_MV of a level in the running image (R57). -/
def State.levelPair (s : State) (level : Nat) : Nat × Nat :=
  match s.pat.run with
  | some i => levelEntry (i.section 5) level
  | none => (0, 0)

/-- The voltage of a rail at a level: VCORE_MV, for VDD_SRAM at least 750 mV, plus the calibration offset (R447). Rails:
0 to 3 VDD_C0 to VDD_C3, 4 VDD_B, 5 VDD_SRAM. -/
def State.railMv (s : State) (level rail : Nat) : Nat :=
  let v := (s.levelPair level).2
  (((if rail = 5 then max v 750 else v : Nat) : Int) + s.pat.calOffsets.getD (8 * level + rail) 0).toNat

/-- A PMBus fault (R448): FAULT with the rail and the command, and EVENT 0x60. -/
def Core.pmbusFault (c : Core) (rail cmd : Nat) : Core :=
  (((c.setBit Reg.pmbStatus 0 true).setFld Reg.pmbStatus 3 1 rail).setFld Reg.pmbStatus 15 8 cmd).blockEvent 0x60 rail 0

/-- The group command that sets six rails to a level's voltages, command VOUT_COMMAND 0x21 (R448). -/
def State.groupCommand (s : State) (level : Nat) : State :=
  { s with core := (List.range 6).foldl (fun c r => c.emit (.pmbus r 0x21 (s.railMv level r))) s.core }

/-- The setup of one rail at B3 (R448): VOUT_MODE 0x20 is read, VOUT_TRANSITION_RATE 0x27 written as 2.5 mV/us, the PL2
voltage written, and a Crown or SRAM rail turned on with OPERATION 0x01; the board has raised VDD_B. -/
def State.railSetup (s : State) (c : Core) (r : Nat) : Core :=
  let c1 := c.emit (.pmbus r 0x20 0)
  let c2 := c1.emit (.pmbus r 0x27 25)
  let c3 := c2.emit (.pmbus r 0x21 (s.railMv 2 r))
  if r = 4 then c3 else c3.emit (.pmbus r 0x01 0x80)

/-- Stage B3 (R448, R462): the PMBus setup of each rail at PL2, then every main PLL locked at PL2. -/
def execStageB3 (pllOk : Bool) (pmbus : PmbusAnswer) (s : State) : Host.Outcome State Fault Refusal :=
  .next
    (if s.inStage 3 then
      match pmbus with
      | .failed rail cmd => (({ s with core := s.core.pmbusFault rail cmd } : State).settle).stageFail 0x21
      | .good =>
        if !pllOk then s.stageFail 0x20
        else
          let s1 : State := { s with core := (List.range 6).foldl s.railSetup s.core }
          ({ s1 with core := (s1.core.setBit Reg.clkStatus 0 true).setFld Reg.plStatus 2 0 2,
                     pwr := { s1.pwr with pair := s.levelPair 2 } } : State).beginStage 4
    else s)

/-- The code of R343 for the DIMM population (R314), with the channel: 1 empty, 2 population differs, 3 DIMMs differ,
4 not supported. -/
def dimmFault (ds : List (List Dimm)) : Option (Nat × Nat) :=
  let chs := (List.range 16).map fun d => (d, ds.getD d [])
  let all := chs.flatMap fun p => p.2.map fun x => (p.1, x)
  match chs.find? fun p => p.2.isEmpty with
  | some p => some (1, p.1)
  | none =>
    match chs.find? fun p => p.2.length != (ds.getD 0 []).length || decide (2 < p.2.length) with
    | some p => some (2, p.1)
    | none =>
      match all.find? fun p => some p.2 != (all.head?.map (·.2)) with
      | some p => some (3, p.1)
      | none =>
        match all.find? fun p => decide (1 < p.2.kind) || decide (256 < p.2.gib) with
        | some p => some (4, p.1)
        | none => none

/-- Installed capacity: sixteen times the capacity of one channel (R314). -/
def installed (ds : List (List Dimm)) : Nat := 16 * ((ds.getD 0 []).map (·.gib)).sum * 2 ^ 30

/-- A memory region beyond the installed capacity (R56). -/
def regionBeyond (l : List Byte) (cap : Nat) : Bool :=
  (layoutRegions l).any fun r => r.2 != 0 && decide (0x800_0000_0000 + cap < r.1 + r.2)

/-- The FAIL code and channel of the DDR tier at B4 (R314, R343). -/
def ddrFault (l : List Byte) (tr : Training) : Option (Nat × Nat) :=
  match dimmFault tr.dimms with
  | some r => some r
  | none =>
    match tr.ddrFail with
    | some ch => some (5, ch)
    | none => if regionBeyond l (installed tr.dimms) then some (6, 0) else none

/-- The journal's lane repairs, type 0x03, applied at B4 before training (R322). -/
def applyLanes (fl : List Host.Cell) (c : Core) : Core :=
  ((recordsOf fl 3).filter fun r => decide (leField r 2 2 < 384)).foldl (fun c r =>
    let o := Reg.hbmChStatus (leField r 2 2)
    (c.setFld o 7 0 (c.fld o 7 0 + 1)).bump Reg.hbmLanesRepaired 1) c

/-- The journal's other repairs reapplied at B4: rows of type 0x04, spare adders of type 0x06 (R322,
R330). Whether a DIMM has a spare row left for a record is the DIMM's to say: a free value. -/
def applyRepairs (fl : List Host.Cell) (c1 : Core) : Core :=
  let c2 := (recordsOf fl 4).foldl (fun c r =>
    if Config.freeBit c.freeCtr then (c.fresh.2.bump Reg.ddrPprFail 1).blockEvent 0x21 (leField r 2 2 - 384) 0
    else c.fresh.2.bump Reg.ddrPprDone 1) c1
  (recordsOf fl 6).foldl (fun c r =>
    let ch := leField r 24 1 + 256 * leField r 25 1
    let k := if ch < 384 then ch else leField r 2 2
    if k < 384 then (c.setBit (Reg.addChStatus k) 2 true).setFld (Reg.addChStatus k) 5 3 (leField r 26 1) else c) c2

/-- Stage B4 (R314, R322, R457): lane repairs are applied, memory is trained, or brought back from self-refresh when a copy of the PHY settings is
kept, a channel that fails its check then losing its contents; the other repairs are reapplied; the population and the regions are checked.
Memory that is not kept is undefined (R523). -/
def execStageB4 (tr : Training) (s : State) : Host.Outcome State Fault Refusal :=
  .next
    (if s.inStage 4 then
      let c0 := applyLanes s.part.flash (s.core.wr Reg.padHold (s.core.rd Reg.padHold &&& 0xC))
      match tr.hbmFail with
      | some (code, ch) =>
        ({ s with core := (c0.setFld Reg.hbmStatus 23 16 code).setFld Reg.hbmStatus 33 24 ch } : State).stageFail
          (0x30 + code)
      | none =>
        match ddrFault s.pat.layout tr with
        | some (code, ch) =>
          ({ s with core := (c0.setFld Reg.ddrStatus 15 8 code).setFld Reg.ddrStatus 19 16 ch } : State).stageFail
            (0x38 + code)
        | none =>
          let kept := s.pwr.phyCopy && tr.lost.isEmpty
          let c1 := if s.pwr.phyCopy then (tr.lost.filter fun ch => decide (ch < 400)).foldl Core.loseChannel c0 else c0.loseMemory
          let c2 := if s.pwr.phyCopy && !tr.lost.isEmpty then c1.setBit Reg.startStatus 24 true else c1
          let d := (tr.dimms.getD 0 []).head?.getD { kind := 0, gib := 0, ranks := 0 }
          let c3 := (((c2.setBit Reg.hbmStatus 0 true).setBit Reg.ddrStatus 0 true).setFld Reg.ddrStatus 1 1 d.kind).setFld
            Reg.ddrStatus 2 2 (if (tr.dimms.getD 0 []).length = 2 then 1 else 0)
          let c4 := c3.wr Reg.ddrCapacity (BitVec.ofNat 64 (installed tr.dimms))
          let c5 := (List.range 16).foldl (fun c ch => c.setBit (Reg.ddrChStatus ch) 0 true) { c4 with ddrRanks := d.ranks }
          (({ s with core := applyRepairs s.part.flash c5, pwr := { s.pwr with memKept := kept, phyCopy := true } }
            : State).beginStage 5).settle
    else s)

/-- The replacement records of the journal applied to the tile map in order (R47); `none` when no spare remains. -/
def applyReplacements (m : List Nat) : List (List Byte) → Option (List Nat)
  | [] => some m
  | r :: rs =>
    match applyReplacement m r with
    | none => none
    | some m1 => applyReplacements m1 rs

/-- Stage B5 (R47, R65, R66, R523): the active half of the wear journal is read and applied, a die whose spare PLL a record
names showing it again (DEDUCED, log entry 40), tile SRAM is zeroed and the tiles leave reset; with no spare left the stage fails with 0x40. -/
def execStageB5 (s : State) : Host.Outcome State Fault Refusal :=
  .next
    (if s.inStage 5 then
      let h := activeHalf s.part.flash
      let log := halfLog s.part.flash h
      let c1 := (s.core.setFld Reg.journalStatus 0 0 h).setFld Reg.journalStatus 18 1 log.length
      let c2 := c1.wr Reg.journalBad (BitVec.ofNat 64 (log.filter fun r => !(recordGood r)).length)
      match applyReplacements s.pat.map (recordsOf s.part.flash 2) with
      | none => ({ s with core := c2 } : State).stageFail 0x40
      | some m =>
        let c3 := (recordsOf s.part.flash 5).foldl (fun c r =>
          let o := leField r 2 2
          if 544 ≤ o ∧ o < 550 then c.setBit Reg.clkStatus (1 + (o - 544)) true else c)
          ((c2.setFld Reg.moduleInfo 23 16 (mapSpares m).length).setFld Reg.darnStatus 23 16 (mapSpares m).length)
        ({ s with core := c3.zeroSram, pat := { s.pat with map := m }, palm := [] } : State).beginStage 6
    else s)

/-- A lane map after one permanent swap: the position on the retired lane moves to the spare (R63, R405). -/
def swapLanes (m : Word) (retired spare : Nat) : Word :=
  (List.range 5).foldl (fun w i =>
    let l := getF m (3 * i + 2) (3 * i)
    if l = retired then setF w (3 * i + 2) (3 * i) spare
    else if l = spare then setF w (3 * i + 2) (3 * i) retired else w) m

/-- The lane maps of every link as the wear journal leaves them (R382). -/
def Core.laneMaps (c : Core) (fl : List Host.Cell) : Core :=
  (recordsOf fl 3).foldl (fun c r =>
    let o := leField r 2 2
    if 400 ≤ o ∧ o < 412 then
      let l := o - 400
      (c.wr (Reg.qlTxmap l) (swapLanes (c.rd (Reg.qlTxmap l)) (leField r 24 1) (leField r 25 1))).wr (Reg.qlRxmap l)
        (swapLanes (c.rd (Reg.qlRxmap l)) (leField r 24 1) (leField r 25 1))
    else c) c

/-- A link trained UP (R382): the schedule in force is latched, the SEQ series start and credit starts whole; the partner's
credit division is what the exchange gave, and the own one is told to it. -/
def Link.up (l : Link) (sched credit own : Word) : Link :=
  { Link.initial with sched := sched, peerCredit := credit, own := own, slot := l.slot }

/-- What training tells the partner of a link (R378, R381). -/
def Core.tellPartner (c : Core) (l : Nat) (own : Word) : Core := c.emit (.train l own (c.rd (Reg.qlTxmap l)))

/-- The echo's averages, which the environment fixes (R385). -/
def Core.freeEcho (c : Core) (l : Nat) : Core :=
  let c1 := (c.setFld (Reg.qlEchoRtt l) 31 0 (Config.freeNat c.freeCtr)).setFld (Reg.qlEchoOffset l) 31 0
    (Config.freeNat (c.freeCtr + 1))
  { c1 with freeCtr := c1.freeCtr + 2 }

/-- The applied level (R446): the lowest of the TARGET in force (R472), the ceiling and PL2 under PL_CAP. -/
def State.appliedLevel (s : State) : Nat :=
  min (min s.pwr.target (s.core.fld Reg.plStatus 5 3)) (if s.core.bit Reg.patStatus 5 then 2 else 7)

/-- Stage B6 (R382, R385, R446): every enabled link that has a partner is trained and runs the echo; the level changes to
the applied one; the module is Running and FAIL_COUNT is zero. -/
def execStageB6 (linksUp : List Nat) (pmbus : PmbusAnswer) (s : State) : Host.Outcome State Fault Refusal :=
  .next
    (if s.inStage 6 then
      let ups := (List.range 12).filter fun l => linksUp.contains l && s.core.bit (Reg.qlCtrl l) 0
      let c1 := (s.core.wr Reg.padHold (s.core.rd Reg.padHold &&& 0x8)).laneMaps s.part.flash
      let c2 := ups.foldl (fun c l =>
        ((c.setFld (Reg.qlStatus l) 1 0 2).freeEcho l).tellPartner l (c.rd (Reg.qlCredit l))) c1
      let free := fun l => BitVec.ofNat 64 (Config.freeNat (c2.freeCtr + l))
      let lks := (List.range 12).map fun l =>
        if ups.contains l then (s.links.getD l Link.initial).up (c2.rd (Reg.qlSched l)) (free l) (c2.rd (Reg.qlCredit l)) else Link.initial
      let lvl := s.appliedLevel
      let s1 : State := { s with core := { c2 with freeCtr := c2.freeCtr + 12 }, links := lks }
      let s2 : State :=
        match pmbus with
        | .good => let g := if lvl = 2 then s1 else s1.groupCommand lvl
                   { g with core := g.core.setFld Reg.plStatus 2 0 lvl, pwr := { g.pwr with pair := s1.levelPair lvl } }
        | .failed rail cmd =>
          if lvl = 2 then s1 else { s1 with core := (s1.core.pmbusFault rail cmd).setBit Reg.plStatus 8 true }
      let s3 := s2.beginStage 7
      ({ s3 with core := (s3.core.setBit Reg.startStatus 3 true).setFld Reg.startStatus 6 5 0,
                 pwr := { s3.pwr with starting := false, fromS4 := false } } : State).settle
    else s)

/-- A stage exceeds its limit (R462): it fails with 0xF1. B0 and B6 have limits like the others. -/
def execStageTimeout (s : State) : Host.Outcome State Fault Refusal :=
  .next (if s.pwr.starting && s.pwr.powered && !s.pwr.tripped then s.stageFail 0xF1 else s)

/-! ## Structure epochs (R67 to R70) -/

/-- An epoch request ends with a result and a detail; DONE is set and REQ reads 0. -/
def Core.epochEnd (c : Core) (result detail : Nat) : Core :=
  (((c.setFld Reg.epochStatus 7 0 result).setFld Reg.epochStatus 15 8 detail).setBit Reg.epochStatus 16 true).setBit
    Reg.epochCtrl 0 false

/-- A check begins: the slot is the one running (result 0x20), or the check runs; while a key command runs it starts when
that ends (R498). -/
def State.epochBegin (s : State) (slot : Nat) : State :=
  let c := ((s.core.setBit Reg.epochCtrl 0 true).setFld Reg.epochStatus 7 0 1).setFld Reg.epochStatus 15 8 0
  if (match s.pat.run with
      | some i => i.slot == slot
      | none => false) then { s with core := c.epochEnd 0x20 0 }
  else if s.pwr.keyOp.isSome then { s with core := c, pat := { s.pat with checking := some slot },
                                           pwr := { s.pwr with epochQueued := true } }
  else { s with core := c, pat := { s.pat with checking := some slot } }

/-- A write of 1 to EPOCH_CTRL.REQ with SLOT (R68): it has no further effect while a request is pending (R14). -/
def State.epochReq (s : State) (slot : Nat) : State :=
  if s.core.bit Reg.epochCtrl 0 then s
  else ({ s with core := s.core.setFld Reg.epochCtrl 1 1 slot } : State).epochBegin (slot % 2)

/-- See `State.epochReq`. -/
def execEpochReq (slot : Nat) (s : State) : Host.Outcome State Fault Refusal := s.clocked <| .next (s.epochReq slot)

/-- The first fixed section of an image that differs from the running one (R68). -/
def fixedDiffers (run new : Image) : Option Nat :=
  ([1, 2, 4, 6].find? fun t => run.section t != new.section t).or
    (if (run.sections.find? fun p => p.1 == 7) = (new.sections.find? fun p => p.1 == 7) then none else some 7)

/-- The end of an epoch check (R68): the slot is checked as at B2, its SEQUENCE must be greater and its fixed sections
equal; it then waits for a step boundary. DESIGN CHOICE (log entry 70): in Bare mode, where no image runs, a valid slot ends
the request with 0x21 and DETAIL 0. DESIGN CHOICE (log entry 100): where SEQUENCE is not greater and a fixed section differs too, the
result is 0x22, since R68 gives no order. -/
def execEpochCheckDone (s : State) : Host.Outcome State Fault Refusal :=
  s.clocked <| .next
    (match s.pat.checking with
    | none => s
    | some slot =>
      if s.pwr.epochQueued then s
      else
        let r := checkSlot s.part.fuses s.part.flash slot
        let c := s.core.noteSlot slot r
        let p := { s.pat with checking := none }
        match r.2.2, s.pat.run with
        | some i, some run =>
          if i.seq ≤ run.seq then ({ s with core := c.epochEnd 0x22 0, pat := p } : State).keyAfterCheck
          else
            (match fixedDiffers run i with
            | some t => ({ s with core := c.epochEnd 0x23 t, pat := p } : State).keyAfterCheck
            | none => ({ s with core := c.setFld Reg.epochStatus 7 0 2, pat := { p with ready := some i } } : State).keyAfterCheck)
        | _, _ => ({ s with core := c.epochEnd 0x21 r.1, pat := p } : State).keyAfterCheck)

/-- A write of 1 to EPOCH_CTRL.CANCEL (R70): a pending request ends with 0x24; with none pending it has no effect. -/
def State.epochCancel (s : State) : State :=
  if s.core.bit Reg.epochCtrl 0 then
    ({ s with core := s.core.epochEnd 0x24 0, pat := { s.pat with checking := none, ready := none },
              pwr := { s.pwr with epochQueued := false } } : State).keyAfterCheck
  else s

/-- See `State.epochCancel`. -/
def execEpochCancel (s : State) : Host.Outcome State Fault Refusal := s.clocked <| .next s.epochCancel

/-- The epoch applied at a step boundary (R69): chains, performance levels, running slot, SEQUENCE and hash; a changed
entry of the level in force, or of the level that a change under way moves to, asks for a level change to the new pair
(R451). -/
def State.epochApply (s : State) : State :=
  match s.pat.ready, s.pat.run with
  | some i, some run =>
    let lvl := match s.pwr.change with
      | some (l, _) => l
      | none => s.core.fld Reg.plStatus 2 0
    let moved := levelEntry (i.section 5) lvl != levelEntry (run.section 5) lvl
    { s with core := (s.core.showImage i).epochEnd 0x10 0, pat := { s.pat with run := some i, ready := none },
             pwr := { s.pwr with relevel := s.pwr.relevel || moved } }
  | _, _ => s

/-! ## The wear journal's own rows (R64, R65) -/

/-- The mean of the latest margins of an object's lanes, rounded down; none where no calibration round has measured a lane of it. -/
def Integ.meanMargin (g : Integ) (o : Nat) : Option Nat :=
  match (g.lanes.filter fun p => p.1 == o).map (·.2.2) with
  | [] => none
  | ms => some (ms.sum / ms.length)

/-- The margin summaries of the 414 link and channel objects appended (R63, R64): the worst lane and its margin as MARGIN_o
holds them, and the mean over the lanes that calibration rounds have measured, one byte each in that order (DESIGN CHOICE, log entry 20); for an object without such
lanes the mean is free. The margin period's counts start again (R432). Due every 2^42 ticks (R438). -/
def execMarginSummary (s : State) : Host.Outcome State Fault Refusal :=
  s.clocked <| .next
    (if due s.integ.marginAt (2 ^ 42) s.core.now.toNat then
      let r := (List.range 414).foldl (fun (pc : Part × Core) o =>
        let m := pc.2.rd (Reg.margin o)
        let mean := (s.integ.meanMargin o).getD (Config.freeNat pc.2.freeCtr)
        let q := appendWear pc.1 pc.2 1 o (leBytes 1 (getF m 15 8) ++ leBytes 1 (getF m 7 0) ++ leBytes 1 mean)
        (q.1, q.2.fresh.2)) (s.part, s.core)
      ({ s with part := r.1, core := { r.2 with ceRows := [] },
                integ := { s.integ with adderFails := [], marginAt := some s.core.now.toNat } } : State).settle
     else s)

/-- Compaction when the active half has 1,024 free records left (R65). -/
def execJournalCompaction (s : State) : Host.Outcome State Fault Refusal :=
  s.clocked <| .next
    (if halfRecords - 1024 ≤ s.core.fld Reg.journalStatus 18 1 then
      let r := compactWear s.part s.core
      { s with part := r.1, core := r.2 }
    else s)

end Sys2Proof.Machine
end

