-- ==== Sys2Proof/Machine/Context.lean ====
section
/-! DEFINITION. Palm contexts (R72 to R75, R287): their registers, starting, stopping, waiting and halting. -/

namespace Sys2Proof.Machine

/-! ## A context's registers -/

/-- Register x_i: x0 reads zero (R287). -/
def Ctx.xr (x : Ctx) (i : Nat) : Word := if i = 0 then 0 else x.x.getD i 0

/-- Register x_i written: x0 ignores writes (R287). -/
def Ctx.setX (x : Ctx) (i : Nat) (v : Word) : Ctx := if i = 0 then x else { x with x := x.x.set i v }

/-- The 16 lanes of register v_i. -/
def Ctx.vr (x : Ctx) (i : Nat) : List Lane := x.v.getD i []

/-- Lane `j` of register v_i. -/
def Ctx.lane (x : Ctx) (i j : Nat) : Lane := (x.vr i).getD j 0

/-- Register v_i written. -/
def Ctx.setV (x : Ctx) (i : Nat) (ls : List Lane) : Ctx := { x with v := x.v.set i ls }

/-- The context as START sets it: everything zero but x1 and PC (R287). PC is 4-byte aligned. -/
def Ctx.started (t n pc : Nat) (arg : Word) : Ctx :=
  { t := t, n := n, x := (List.replicate 32 (0 : Word)).set 1 arg, v := List.replicate 32 (List.replicate 16 0),
    pc := pc % 2 ^ 56 / 4 * 4, rc := 0, tid := 0, waitAddr := 0, waitVal := 0, blocked := false, instr := 0, tmap := (0, 0) }

/-- Whether an entry is that of context `n` of tile `t`. -/
def Ctx.isOf (x : Ctx) (t n : Nat) : Bool := x.t == t && x.n == n

/-- The context `n` of tile `t`, if it has ever been started. -/
def State.ctx? (s : State) (t n : Nat) : Option Ctx := s.palm.find? fun x => x.isOf t n

/-- A context put back. -/
def State.putCtx (s : State) (x : Ctx) : State :=
  { s with palm := s.palm.map fun y => if y.isOf x.t x.n then x else y }

/-- A context put back with PC past its instruction. -/
def State.advance (s : State) (x : Ctx) : State := s.putCtx { x with pc := (x.pc + 4) % 2 ^ 56 }

/-! ## States -/

/-- The state of a context: 0 idle, 1 running, 2 waiting, 3 halted (R73). -/
def Core.ctxState (c : Core) (t n : Nat) : Nat := c.fld (Reg.ctxStatus t n) 1 0

/-- A context halted with a cause; causes 0x03 to 0x05 count in PALM_HALTS (R308). -/
def State.halt (s : State) (t n cause : Nat) : State :=
  let c1 := (s.core.setFld (Reg.ctxStatus t n) 1 0 3).setFld (Reg.ctxStatus t n) 15 8 cause
  let c2 := c1.setBit (Reg.ctxCtrl t n) 1 false
  { s with core := c2.bump (Reg.palmHalts t) (if 3 ≤ cause then 1 else 0) }

/-- START (R73, R287): an idle or halted context runs from CTX_PC with CTX_ARG in x1, its halt cause cleared. -/
def State.ctxStart (s : State) (t n : Nat) : State :=
  if t < s.core.active ∧ n < 64 ∧ (s.core.ctxState t n = 0 ∨ s.core.ctxState t n = 3) then
    let x := Ctx.started t n (s.core.rd (Reg.ctxPc t n)).toNat (s.core.rd (Reg.ctxArg t n))
    { s with core := (s.core.setFld (Reg.ctxStatus t n) 1 0 1).setFld (Reg.ctxStatus t n) 15 8 0,
             palm := s.palm.filter (fun y => !(y.isOf t n)) ++ [x] }
  else s

/-- The T-clocks of a wait counted: a time the model does not hold (R308). -/
def Core.countWait (c : Core) (t : Nat) : Core := c.fresh.2.bump (Reg.palmWaitTclk t) (Config.freeNat c.freeCtr)

/-- STOP (R73): a running or waiting context halts at its next instruction boundary; one that an instruction still blocks
halts when that ends, and until then STOP reads 1. -/
def State.ctxStop (s : State) (t n : Nat) : State :=
  if t < s.core.active ∧ n < 64 then
    match s.core.ctxState t n with
    | 1 =>
      if (match s.ctx? t n with
          | some x => x.blocked
          | none => false) then { s with core := s.core.setBit (Reg.ctxCtrl t n) 1 true }
      else s.halt t n 1
    | 2 => ({ s with core := s.core.countWait t } : State).halt t n 1
    | _ => s
  else s

/-- A blocked context goes on; a STOP written meanwhile halts it now. -/
def State.unblock (s : State) (t n : Nat) : State :=
  let s1 : State := { s with palm := s.palm.map fun y => if y.isOf t n then { y with blocked := false } else y }
  if s.core.bit (Reg.ctxCtrl t n) 1 then s1.halt t n 1 else s1

/-- A context blocked by its instruction. -/
def State.block (s : State) (t n : Nat) : State :=
  { s with palm := s.palm.map fun y => if y.isOf t n then { y with blocked := true } else y }

/-- CTX_START. -/
def execCtxStart (t n : Nat) (s : State) : Host.Outcome State Fault Refusal := s.clocked <| .next (s.ctxStart t n)

/-- CTX_STOP. -/
def execCtxStop (t n : Nat) (s : State) : Host.Outcome State Fault Refusal := s.clocked <| .next (s.ctxStop t n)

end Sys2Proof.Machine
end

