-- ==== Sys2Proof/Machine/Power.lean ====
section
/-! DEFINITION. Levels, the thermal governor, sleep, droop and block resets (spec/15_clocks_power_reset.md), and what the
I2C target answers (R513). -/

namespace Sys2Proof.Machine

/-! ## Performance levels (R446 to R451) -/

/-- GOV_ACTIVE: the ceiling is below TARGET (R452), seen at the governor's period (R472). -/
def Core.showGov (c : Core) : Core :=
  c.setBit Reg.plStatus 7 (decide (c.fld Reg.plStatus 5 3 < c.fld Reg.plCtrl 2 0))

/-- PL_CTRL.TARGET written (R446): in force at the governor's next period (R472). -/
def execPlTargetWrite (v : Word) (s : State) : Host.Outcome State Fault Refusal :=
  s.clocked <| .next (s.onCore fun c => c.wr Reg.plCtrl (BitVec.ofNat 64 (v.toNat % 8)))

/-- A die's spare PLL takes over (R433); during a level change the switch waits for its end (R451). -/
def State.pllSwitch (s : State) (i : Nat) : State :=
  if s.pwr.change.isSome then { s with pwr := { s.pwr with pllPending := s.pwr.pllPending ++ [i] } }
  else s.onCore fun c => c.setBit Reg.clkStatus (1 + i) true

/-- The switches that waited for the end of a level change (R451). -/
def State.pllWaiting (s : State) : State :=
  { s with core := s.pwr.pllPending.foldl (fun c i => c.setBit Reg.clkStatus (1 + i) true) s.core,
           pwr := { s.pwr with pllPending := [] } }

/-- The divided clocks paused with every main PLL relocking (R449, R470). -/
def Core.pauseClocks (c : Core) : Core := (c.setBit Reg.clkStatus 7 true).setBit Reg.clkStatus 0 false

/-- The main PLLs locked and the divided clocks running. -/
def Core.resumeClocks (c : Core) : Core := (c.setBit Reg.clkStatus 7 false).setBit Reg.clkStatus 0 true

/-- A level change abandoned on a PMBus fault (R448): CHANGE_FAIL, FAULT and EVENT 0x60; the level stays, and paused clocks
resume at it. -/
def State.changeFail (s : State) (rail cmd : Nat) : State :=
  let c := (((s.core.pmbusFault rail cmd).setBit Reg.plStatus 8 true).setBit Reg.plStatus 6 false).resumeClocks
  ({ s with core := c, pwr := { s.pwr with change := none } } : State).pllWaiting.settle

/-- Whether the move to a level raises (R449): the level is above CURRENT, or an epoch gave CURRENT a pair above the one in
force. -/
def State.raises (s : State) (lvl : Nat) : Bool :=
  let cur := s.core.fld Reg.plStatus 2 0
  let p := s.levelPair lvl
  decide (cur < lvl) || (cur == lvl && (decide (s.pwr.pair.2 < p.2) || (s.pwr.pair.2 == p.2 && decide (s.pwr.pair.1 ≤ p.1))))

/-- A level change begins (R446, R449): raising, the group command goes first and is abandoned on a PMBus fault; lowering,
the clocks pause at once. It begins when the applied level differs from CURRENT, or an epoch changed the entry of the
level in force, and no change runs. In S3 and S4 the main PLLs are off, and the wake brings the applied level (R454). -/
def execLevelChange (pmbus : PmbusAnswer) (s : State) : Host.Outcome State Fault Refusal :=
  .next
    (let lvl := s.appliedLevel
     let cur := s.core.fld Reg.plStatus 2 0
     if s.core.bit Reg.startStatus 3 && s.pwr.change.isNone && decide (s.core.sleepState ≤ 2) &&
        (decide (lvl ≠ cur) || s.pwr.relevel) then
       let p := { s.pwr with relevel := false, pairTo := s.levelPair lvl }
       let s1 : State := { s with core := s.core.setBit Reg.plStatus 6 true, pwr := p }
       if s.raises lvl then
         (match pmbus with
         | .failed rail cmd => s1.changeFail rail cmd
         | .good => { (s1.groupCommand lvl) with pwr := { p with change := some (lvl, .ramping) } })
       else { s1 with core := s1.core.pauseClocks,
                      pwr := { p with change := some (lvl, if lvl = cur then .lockingDown else .locking) } }
     else s)

/-- The ramp and settle time of a raise have passed: every divided clock pauses for the relock (R449). -/
def execRailSettled (s : State) : Host.Outcome State Fault Refusal :=
  .next
    (match s.pwr.change with
    | some (lvl, .ramping) =>
      { s with core := s.core.pauseClocks, pwr := { s.pwr with change := some (lvl, .locking) } }
    | _ => s)

/-! ## Sleep (R454 to R458) -/

/-- Whether any descriptor is admitted on any tile. One still in its slot before the end of admission is not. -/
def State.busyDesc (s : State) : Bool := s.work.descs.any fun d => d.phase != .waiting

/-- Whether a context holds the module out of sleep state `k` (R454). -/
def State.busyCtx (s : State) (k : Nat) : Bool :=
  s.palm.any fun x => let st := s.core.ctxState x.t x.n
    st == 1 || (decide (k ≠ 1) && st == 2)

/-- Whether a checkpoint or restore runs: HB_STATUS.STATE is not idle. -/
def Core.hbBusy (c : Core) : Bool := c.fld Reg.hbStatus 2 0 != 0

/-- The first condition of R454 that is unmet, in the rule's order and as REASON numbers them; 0 for none. -/
def State.sleepBlock (s : State) (k : Nat) : Nat :=
  if s.busyDesc then 1
  else if !s.red.buckets.isEmpty then 3
  else if (List.range 16).any (fun n => s.core.winState n != 0) then 4
  else if s.core.hbBusy then 5
  else if s.pwr.change.isSome then 6
  else if s.busyCtx k then 2
  else 0

/-- The outstanding requests of contexts that are lost: what comes back for them is discarded (R454, R468). -/
def Core.disown (c : Core) (lost : Nat → Bool) : Core :=
  { c with reqs := c.reqs.map fun r => match r.waiter with
             | .load t _ _ | .store t _ _ | .fetch (.ctx t _) _ _ => if lost t then { r with waiter := .nobody } else r
             | _ => r
           fetched := c.fetched.filter fun f => match f.owner with
             | .ctx t _ => !(lost t)
             | _ => true }

/-- The control windows of the tiles taken back to reset, with contexts, SRAM and all that their engines and slots hold: what S2 and
deeper states lose (R454). -/
def State.loseTiles (s : State) : State :=
  let c := s.core.zeroSram.disown fun _ => true
  { s with core := { c with ctl := c.ctl.filter fun p => decide (p.1 < 0x800_0000),
                            remd := c.remd.filter fun p => decide (p.1 < 0x800_0000) },
           work := { Work.initial with nextId := s.work.nextId, nextAdm := s.work.nextAdm, direct := s.work.direct,
                                       dumps := s.work.dumps },
           palm := [] }

/-- Entry into sleep state `k` (R454, R455): from S3 on the main PLLs are off; pads are held at the level they have in that state, and what the state powers off is lost. -/
def State.enterSleep (s : State) (k : Nat) : State :=
  let s1 := if 2 ≤ k then s.loseTiles else s
  let hold := match k with
    | 3 => 0x3
    | 4 => 0xF
    | _ => 0
  let c1 := (s1.core.setFld Reg.sleepStatus 2 0 k).wr Reg.padHold (s1.core.rd Reg.padHold ||| BitVec.ofNat 64 hold)
  let c2 := if 3 ≤ k then (List.range 4).foldl (fun c r => c.emit (.pmbus r 0x01 0)) (c1.emit (.pmbus 5 0x01 0)) else c1
  let c3 := if k = 4 then c2.emit (.pmbus 4 0x01 0) else c2
  let s2 : State := { s1 with core := if 3 ≤ k then c3.setBit Reg.clkStatus 0 false else c3 }
  { s2 with pwr := { s1.pwr with sleepPending := none, phyCopy := s1.pwr.phyCopy || decide (3 ≤ k),
                                 s4At := if k = 4 then s1.core.now else s1.pwr.s4At,
                                 heldPins := if k = 4 ∧ !s.core.bit Reg.padHold 3 then (List.range 20).map (s2.pinWith s2.statCode) else s1.pwr.heldPins } }

/-- A request to enter a sleep state (R454): refused with the first unmet condition, except that one made during a level change
waits for its end (R451). Ignored while a request is pending or outside S0 (R472). -/
def State.sleepRequest (s : State) (k : Nat) : State :=
  if s.core.sleepState ≠ 0 ∨ s.pwr.sleepPending.isSome ∨ k = 0 ∨ 4 < k then s
  else
    let s0 : State := { s with core := s.core.setFld Reg.sleepCtrl 2 0 k }
    if s.pwr.change.isSome then { s0 with pwr := { s0.pwr with sleepPending := some k } }
    else
    match s.sleepBlock k with
    | 0 => s0.enterSleep k
    | r => { s0 with core := (s0.core.setBit Reg.sleepStatus 3 true).setFld Reg.sleepStatus 7 4 r }

/-- SLEEP_CTRL.STATE written with 1. -/
def execSleepS1 (s : State) : Host.Outcome State Fault Refusal := s.clocked <| .next (s.sleepRequest 1)

/-- SLEEP_CTRL.STATE written with 2. -/
def execSleepS2 (s : State) : Host.Outcome State Fault Refusal := s.clocked <| .next (s.sleepRequest 2)

/-- SLEEP_CTRL.STATE written with 3. -/
def execSleepS3 (s : State) : Host.Outcome State Fault Refusal := s.clocked <| .next (s.sleepRequest 3)

/-- SLEEP_CTRL.STATE written with 4. -/
def execSleepS4 (s : State) : Host.Outcome State Fault Refusal := s.clocked <| .next (s.sleepRequest 4)

/-- A sleep request that waited for a level change is taken up at its end (R451). -/
def State.sleepRetry (s : State) : State :=
  match s.pwr.sleepPending with
  | none => s
  | some k =>
    let s0 : State := { s with pwr := { s.pwr with sleepPending := none } }
    s0.sleepRequest k

/-- The rails and PLLs of the wake from S3 (R454): where the applied level or its entry is not the one in force, the voltages of the
applied level are commanded first; then the Crown and SRAM rails are turned on, and the PLLs lock at that level. -/
def State.relock (s : State) : State :=
  let lvl := s.appliedLevel
  let s1 := if lvl = s.core.fld Reg.plStatus 2 0 ∧ s.levelPair lvl = s.pwr.pair then s else s.groupCommand lvl
  let c1 := (List.range 4).foldl (fun c r => c.emit (.pmbus r 0x01 0x80)) (s1.core.emit (.pmbus 5 0x01 0x80))
  { s1 with core := (c1.setFld Reg.plStatus 2 0 lvl).setBit Reg.clkStatus 0 true, pwr := { s1.pwr with pair := s.levelPair lvl, relevel := false } }

/-- The wake from S1 to S3 (R454): back to S0, after S3 with rails and PLLs brought back. -/
def State.wake (s : State) : State :=
  let k := s.core.sleepState
  if k = 0 ∨ k = 4 then s
  else
    let s1 : State := { s with core := (s.core.setFld Reg.sleepStatus 2 0 0).setFld Reg.sleepCtrl 2 0 0 }
    if k = 3 then s1.relock else s1

/-- A wake source, or a write of 1 to SLEEP_CTRL.WAKE (R454). -/
def execSleepWake (s : State) : Host.Outcome State Fault Refusal := .next s.wake

/-- The wake pin (R454, R457, R458): it wakes from S1 to S3, and starts the module from B1 out of S4, whose time is then
counted; the GPIO and STAT pads stay held. -/
def execWakePin (s : State) : Host.Outcome State Fault Refusal :=
  .next
    (if s.core.sleepState = 4 then s.warmReset 6 else s.wake)

/-- PAD_RELEASE written (R455): a 1 in bit g releases group g; HBM and DDR come out of self-refresh, and the links of a
released link group retrain, as do its ports. -/
def State.padRelease (s : State) (v : Word) : State :=
  let m := s.core.rd Reg.padHold &&& v
  let c1 := s.core.wr Reg.padHold (s.core.rd Reg.padHold &&& ~~~v)
  if getF m 2 2 = 1 then
    let c2 := (List.range 2).foldl (fun c p => c.setBit (Reg.epStatus p) 0 false) c1
    { s with core := (List.range 12).foldl (fun c l =>
        if c.bit (Reg.qlCtrl l) 0 then c.setFld (Reg.qlStatus l) 1 0 1 else c) c2 }
  else { s with core := c1 }

/-- See `State.padRelease`. -/
def execPadReleaseWrite (v : Word) (s : State) : Host.Outcome State Fault Refusal := s.clocked <| .next (s.padRelease v)

/-- The end of the relock (R449): the clocks resume, CURRENT takes the new level, and a waiting sleep request is taken up. -/
def State.relocked (s : State) (lvl : Nat) : State :=
  let c1 := (s.core.resumeClocks.setFld Reg.plStatus 2 0 lvl).setBit Reg.plStatus 6 false
  ({ s with core := c1, pwr := { s.pwr with change := none, pair := s.pwr.pairTo } } : State).pllWaiting

/-- The PLLs have relocked (R449). A lowering then sends its group command; DEDUCED (log entry 22): a fault there abandons the
change with the level unchanged, as R448 says of any fault. -/
def execPllRelockDone (pmbus : PmbusAnswer) (s : State) : Host.Outcome State Fault Refusal :=
  .next
    (let done := fun (lvl : Nat) (lowering : Bool) =>
       if lowering then
         (match pmbus with
         | .failed rail cmd => (s.changeFail rail cmd).sleepRetry
         | .good => ((s.relocked lvl).groupCommand lvl).sleepRetry)
       else (s.relocked lvl).sleepRetry
     match s.pwr.change with
     | some (lvl, .locking) => done lvl (decide (lvl < s.core.fld Reg.plStatus 2 0))
     | some (lvl, .lockingDown) => done lvl true
     | _ => s)

/-! ## Governor, telemetry, trip, droop (R443, R445, R448, R452, R453) -/

/-- A temperature in 1/16 degree against a limit in degrees. -/
def hotter (temp : BitVec 16) (limit : Int) : Bool := decide (16 * limit < temp.toInt)

/-- Whether a sensor reads below its limit less HYST. -/
def cooler (temp : BitVec 16) (limit : Int) : Bool := decide (temp.toInt < 16 * limit)

/-- The index of the largest temperature of a list, lowest index first. -/
def hottest (ts : List (BitVec 16)) : Nat :=
  ((List.range ts.length).foldl (fun (b : Nat) i =>
    if (ts.getD b 0).toInt < (ts.getD i 0).toInt then i else b) 0)

/-- Whole degrees of a temperature as an 8-bit field. -/
def degrees (t : BitVec 16) : Nat := (t.toInt / 16 % 256).toNat

/-- The sensors read into TEMP_s and THERM_STATUS (R452). -/
def Core.readSensors (c : Core) (ts : List (BitVec 16)) : Core :=
  let c0 := (List.range 30).foldl (fun c i => c.wr (Reg.temp i) (BitVec.ofNat 64 (ts.getD i 0).toNat)) c
  ((c0.setFld Reg.thermStatus 7 0 (degrees (ts.getD (hottest (ts.take 18)) 0))).setFld Reg.thermStatus 15 8
    (degrees (ts.getD (18 + hottest (ts.drop 18)) 0))).setFld Reg.thermStatus 23 16 (hottest ts)

/-- The governor's ceiling and its count of cool periods after a period (R452): a sensor above its limit lowers the ceiling a level,
and the eighth cool period running raises it one. With GOV_EN clear the ceiling is PL7. -/
def Core.governed (c : Core) (ts : List (BitVec 16)) (cools : Nat) : Nat × Nat :=
  let dl : Int := (c.fld Reg.thermCtrl 7 0 : Nat)
  let hl : Int := (c.fld Reg.thermCtrl 15 8 : Nat)
  let hy : Int := (c.fld Reg.thermCtrl 19 16 : Nat)
  let ceil := c.fld Reg.plStatus 5 3
  let hot := (ts.take 18).any (hotter · dl) || (ts.drop 18).any (hotter · hl)
  let cool := (ts.take 18).all (cooler · (dl - hy)) && (ts.drop 18).all (cooler · (hl - hy))
  if !(c.bit Reg.thermCtrl 20) then (7, 0)
  else if hot then (ceil - 1, 0)
  else if cool then (if 7 ≤ cools then (min 7 (ceil + 1), 0) else (ceil, cools + 1))
  else (ceil, 0)

/-- The governor's period (R452), due every 2^20 ticks (R438): with GOV_EN set the sensors are read; the ceiling follows them, and the
TARGET written since the last period is in force (R472). -/
def execGovernorTick (temps : List (BitVec 16)) (s : State) : Host.Outcome State Fault Refusal :=
  .next
    (if s.alive && due s.pwr.govAt (2 ^ 20) s.core.now.toNat then
      let ts := (List.range 30).map fun i => temps.getD i 0
      let c1 := if s.core.bit Reg.thermCtrl 20 then s.core.readSensors ts else s.core
      let r := c1.governed ts s.pwr.coolPeriods
      { s with core := (c1.setFld Reg.plStatus 5 3 r.1).showGov,
               pwr := { s.pwr with coolPeriods := r.2, target := c1.fld Reg.plCtrl 2 0, govAt := some s.core.now.toNat } }
     else s)

/-- Whether a STATUS_WORD holds a fault bit. PRESUMED (log entry 71): the bits of PMBus's STATUS_WORD that report a fault,
VOUT_OV, IOUT_OC, VIN_UV, TEMPERATURE and CML, bits 5 to 1; the spec does not lay the word out. -/
def faultWord (w : BitVec 16) : Bool := w &&& 0x3E != 0

/-- The rail at which a telemetry poll abandons a level change, lowest first, with the command (R448): a rail that does not answer, at
READ_VOUT, 0x8B, or one whose STATUS_WORD, 0x79, shows a fault bit. -/
def badRail (rails : List (Option RailReading)) : Option (Nat × Nat) :=
  (List.range 6).findSome? fun n =>
    match rails.getD n none with
    | none => some (n, 0x8B)
    | some r => if faultWord r.status then some (n, 0x79) else none

/-- The regulators' readings put into PMB_RAIL_n (R448, R470), every 2^20 ticks (R438). A rail that does not answer leaves its register. A
NACK or a fault bit during a level change abandons it; at any other time neither has an effect. -/
def execPmbusTelemetryPoll (rails : List (Option RailReading)) (s : State) : Host.Outcome State Fault Refusal :=
  .next
    (if s.pwr.powered && due s.pwr.pollAt (2 ^ 20) s.core.now.toNat then
      let c1 := (List.range 6).foldl (fun c n =>
        match rails.getD n none with
        | none => c
        | some r => c.wr (Reg.pmbRail n) (BitVec.ofNat 64
            (r.vout.toNat + 2 ^ 16 * r.iout.toNat + 2 ^ 32 * r.status.toNat + 2 ^ 48 * r.temp.toNat))) s.core
      let s1 : State := { s with core := c1, pwr := { s.pwr with pollAt := some s.core.now.toNat } }
      match s.pwr.change, badRail rails with
      | some _, some (n, cmd) => (s1.changeFail n cmd).sleepRetry
      | _, _ => s1
     else s)

/-- A sensor exceeds its fused trip temperature (R453, R459): the blocks are held in reset until POR_N, everything but the
AON registers is lost, and TRIP_SEEN records it. The board then turns its rails off and raises VDD_B again itself (R517). -/
def execThermalTrip (i : Nat) (temp : BitVec 16) (s : State) : Host.Outcome State Fault Refusal :=
  .next
    (let f := s.part.fuses
     if s.pwr.powered && !s.pwr.tripped && decide (i < 30) && hotter temp (if i < 18 then f.tripDie else f.tripHbm : Nat) then
       let s1 := s.lose true
       { s1 with core := { s1.core.loseMemory with now := s.core.now }.setBit Reg.rstCause 4 true,
                 pwr := { s1.pwr with tripped := true, fromS4 := false } }
     else s)

/-- A droop detector fires (R443): its region begins to stretch, unless it already does or its clocks are paused. -/
def execDroopDetect (r : Nat) (s : State) : Host.Outcome State Fault Refusal :=
  .next
    (if 16 ≤ r ∨ s.pwr.stretched.contains r = true ∨ s.ticking = false then s
     else { s with core := s.core.bump (Reg.droopEvents r) 1, pwr := { s.pwr with stretched := s.pwr.stretched ++ [r] } })

/-- A stretch of at least 64 A-clocks ends (R443): its A-clocks are counted. -/
def execDroopStretchEnd (r aclks : Nat) (s : State) : Host.Outcome State Fault Refusal :=
  .next
    (if s.ticking && s.pwr.stretched.contains r && decide (64 ≤ aclks) then
      { s with core := s.core.bump (Reg.droopAclk r) aclks, pwr := { s.pwr with stretched := s.pwr.stretched.filter (· != r) } }
     else s)

/-- Whether every Mitt and Glove of a region is idle (R445): no tile of the region runs a share or a Glove descriptor. -/
def State.regionIdle (s : State) (r : Nat) : Bool :=
  (List.range 6).all fun x =>
    let t := s.pat.map.getD (6 * r + x) 0xFF
    !(s.work.shares.any fun h => h.tile == t && h.started) && !(s.work.glove.any fun g => g.tile == t)

/-- The idle trim of a droop detector (R445): at most 4 delay steps from the stored threshold, while IDLE_CAL is set and
the region's engines are idle. -/
def execIdleCalTrim (r : Nat) (trim : Int) (s : State) : Host.Outcome State Fault Refusal :=
  .next
    (if s.ticking && s.core.bit Reg.droopCtrl 1 && decide (r < 16) && s.regionIdle r then
      { s with pwr := { s.pwr with trims := (r, max (-4) (min 4 trim)) :: s.pwr.trims.filter (·.1 != r) } }
     else s)

/-! ## Block resets (R468) -/

/-- The registers at offsets [lo, hi) back at their reset values. -/
def Core.resetRegs (c : Core) (lo hi : Nat) : Core :=
  { c with ctl := c.ctl.filter (fun p => decide (p.1 < lo) || decide (hi ≤ p.1)),
           remd := c.remd.filter fun p => decide (p.1 < lo) || decide (hi ≤ p.1) }

/-- The work of descriptors taken out of the engines, what has been fetched for it included: shares, partials, jobs, Glove work,
reservations. The buffers of a Cuff whose job ends so hold no block any more. -/
def State.dropWork (s : State) (out : Nat → Bool) : State :=
  let gone := fun (o : Owner) => match o with
    | .desc i => out i
    | .fill i => out i
    | .ahead i => out i
    | .ctx _ _ => false
  { s with core := { s.core with fetched := s.core.fetched.filter fun f => !(gone f.owner) }, work := { s.work with
      shares := s.work.shares.filter fun h => !(out h.desc)
      parts := s.work.parts.filter fun p => !(out p.desc)
      jobs := s.work.jobs.filter fun j => !(out j.desc)
      bufs := s.work.bufs.map fun b => if s.work.jobs.any fun j => j.started && j.tile == b.tile && out j.desc then
        { b with full0 := false, full1 := false } else b
      glove := s.work.glove.filter fun g => !(out g.desc)
      resv := s.work.resv.filter fun r => !(out r.desc)
      narrows := s.work.narrows.filter fun x => !(out x.desc)
      fills := s.work.fills.filter fun f => !(out f.desc) } }

/-- The write of DUMP_NEXT that waited for a copy takes effect (R490). -/
def State.dumpNextNow (s : State) : State :=
  match s.work.dumpNext with
  | none => s
  | some v => { s with core := s.core.setFld Reg.dumpNext 39 0 v, work := { s.work with dumpNext := none } }

/-- Dump jobs of descriptors taken away; a copy of theirs that had begun runs no more (R488). -/
def State.dropDumps (s : State) (out : Nat → Bool) : State :=
  let s1 : State := { s with work := { s.work with dumps := s.work.dumps.filter fun j => !(out j.desc) } }
  if s.work.dumps.any fun j => j.begun && out j.desc then (s1.onCore fun c => c.setBit Reg.dumpStatus 0 false).dumpNextNow else s1

/-- Descriptors taken out of their slots with everything they hold (R98, R468). -/
def State.dropDescs (s : State) (drop : Desc → Bool) : State :=
  let ids := (s.work.descs.filter drop).map (·.id)
  let s1 := (s.dropWork ids.contains).dropDumps ids.contains
  { s1 with work := { s1.work with descs := s1.work.descs.filter (fun d => !(drop d))
                                   ra := s1.work.ra.filter fun b => !(ids.contains b.desc) } }

/-- Descriptors of other tiles that lose a part of their work await an end of it that never comes (log entry 104): only their
retirement, a hold or a reset of their own block ends them. -/
def State.strand (s : State) (ids : List Nat) : State :=
  { s with work := { s.work with descs := s.work.descs.map fun d => { d with acks := d.acks + (ids.filter (· == d.id)).length } } }

/-- Class 0: a tile's Palm; every context idle, OUTSTANDING 0. Its contexts' stores that wait for a slot or a ring are dropped, and
responses to their requests are discarded. -/
def execBlockResetPalm (i : Nat) (s : State) : Host.Outcome State Fault Refusal :=
  s.clocked <| .next
    (if i < s.core.active then
      let own := fun (b : Option (Nat × Nat)) => b.any fun k => k.1 == i
      { s with core := (s.core.resetRegs (tileCtl i) (tileCtl i + 0x2000)).disown (· == i)
               palm := s.palm.filter fun x => x.t != i
               work := { s.work with stores := s.work.stores.filter (fun w => !(own w.by_)),
                                     direct := s.work.direct.filter (fun w => !(own w.by_)) } }
     else s)

/-- Class 1: a tile's Mitt. The descriptors of its tile are dropped, and the shares that it holds of others. -/
def execBlockResetMitt (i : Nat) (s : State) : Host.Outcome State Fault Refusal :=
  s.clocked <| .next
    (if i < s.core.active then
      let s0 := s.dropDescs fun d => d.tile == i && d.engine == 0
      let s1 := s0.strand ((s0.work.shares.filter fun h => h.tile == i).map (·.desc))
      { s1 with core := s1.core.resetRegs (tileCtl i + 0x2000) (tileCtl i + 0x3000),
                work := { s1.work with arrays := s1.work.arrays.filter (fun a => a.tile != i)
                                       shares := s1.work.shares.filter fun h => h.tile != i } }
     else s)

/-- Class 2: a tile's Cuff. The descriptors of its tile are dropped, and the jobs that it holds of others; a share of a gradient
product whose job is gone has no more blocks turned for it (`State.hasJob`). -/
def execBlockResetCuff (i : Nat) (s : State) : Host.Outcome State Fault Refusal :=
  s.clocked <| .next
    (if i < s.core.active then
      let s0 := s.dropDescs fun d => d.tile == i && d.engine == 1
      let s1 := s0.strand ((s0.work.jobs.filter fun j => j.tile == i).map (·.desc))
      { s1 with core := s1.core.resetRegs (tileCtl i + 0x3000) (tileCtl i + 0x4000),
                work := { s1.work with bufs := s1.work.bufs.filter (fun b => b.tile != i)
                                       jobs := s1.work.jobs.filter fun j => j.tile != i } }
     else s)

/-- Class 3: a tile's Glove. -/
def execBlockResetGlove (i : Nat) (s : State) : Host.Outcome State Fault Refusal :=
  s.clocked <| .next
    (if i < s.core.active then
      let s1 := s.dropDescs fun d => d.tile == i && d.engine == 2
      { s1 with core := s1.core.resetRegs (tileCtl i + 0x4000) (tileCtl i + 0x5000),
                work := { s1.work with ra := s1.work.ra.filter fun b => b.tile != i } }
     else s)

/-- Class 4: a tile's Sizer, with its reservations released; the descriptors that wait in it are dropped. -/
def execBlockResetSizer (i : Nat) (s : State) : Host.Outcome State Fault Refusal :=
  s.clocked <| .next
    (if i < s.core.active then
      let s1 := s.dropDescs fun d => d.tile == i && d.phase == .reserving
      { s1 with core := s1.core.resetRegs (tileCtl i + 0x5000) (tileCtl i + 0x6000),
                work := { s1.work with resv := s1.work.resv.filter fun r => r.tile != i } }
     else s)

/-- Class 5: a tile's counter block. -/
def execBlockResetCounters (i : Nat) (s : State) : Host.Outcome State Fault Refusal :=
  s.clocked <| .next
    (if i < s.core.active then { s with core := s.core.resetRegs (tileCtl i + 0x6000) (tileCtl i + 0x7000) } else s)

/-- Class 6: an Ethernet port. EP_MAC, a fuse register, keeps its fused value. -/
def execBlockResetEthPort (i : Nat) (s : State) : Host.Outcome State Fault Refusal :=
  s.clocked <| .next
    (if i < 2 then
      { s with core := (s.core.resetRegs (Reg.epCtrl i) (Reg.epCtrl i + 0x1000)).wr (Reg.epMac i) (s.core.rd (Reg.epMac i)),
               net := { s.net with rxUp := s.net.rxUp.filter (fun u => u.port != i), ptp := s.net.ptp.filter (fun x => x.port != i)} }
     else s)

/-- Class 7: a Quiras link. -/
def execBlockResetQuirasLink (i : Nat) (s : State) : Host.Outcome State Fault Refusal :=
  s.clocked <| .next
    (if i < 12 then
      { s with core := s.core.resetRegs (Reg.qlCtrl i) (Reg.qlCtrl i + 0x100), links := s.links.set i Link.initial }
     else s)

/-- BLK_IDLE.IDLE: the block that RST_BLOCK names holds no work (R469). -/
def State.blkIdle (s : State) : Bool :=
  let i := s.core.fld Reg.rstBlock 15 4
  let eng := fun e => !(s.work.descs.any fun d => d.tile == i && d.engine == e)
  match s.core.fld Reg.rstBlock 3 0 with
  | 0 => !(s.palm.any fun x => x.t == i && (s.core.ctxState i x.n == 1 || s.core.ctxState i x.n == 2)) &&
      s.core.disown (· == i) == s.core
  | 1 => eng 0 && !(s.work.shares.any fun h => h.tile == i)
  | 2 => eng 1 && !(s.work.jobs.any fun j => j.tile == i)
  | 3 => eng 2
  | 4 => !(s.work.resv.any fun r => r.tile == i) && !(s.work.descs.any fun d => d.tile == i && d.phase == .reserving)
  | 5 => true
  | 6 => !(s.net.rxUp.any fun u => u.port == i)
  | 7 => (s.links.getD i Link.initial).retry.isEmpty && (s.links.getD i Link.initial).forward.isEmpty
  | _ => true

/-! ## The I2C target (R513) -/

/-- The register an index of the I2C target selects (R513). -/
def i2cReg (idx : Nat) : Option Nat :=
  match idx with
  | 0 => some Reg.startStatus
  | 1 => some Reg.rstCause
  | 2 => some Reg.thermStatus
  | 3 => some Reg.plStatus
  | 4 => some Reg.sleepStatus
  | 5 => some Reg.secSerial
  | n => if 8 ≤ n ∧ n < 38 then some (Reg.temp (n - 8)) else none

/-- An I2C transaction (R513): at the fused address and while VDD_AON is up, one index byte and then eight bytes of the indexed register,
zero for any other index; `more` bytes written after the index are answered with NACK, and nothing is changed. -/
def execI2cRead (x : I2cCall) (s : State) : Host.Outcome State Fault Refusal :=
  .next
    (if s.pwr.powered && x.addr == s.part.fuses.i2cAddr then
      (if x.more = 0 then { s with core := s.core.emit (.i2c x.idx (match i2cReg x.idx with
        | some o => s.core.rd o
        | none => 0)) }
       else { s with core := s.core.emit .i2cNack })
     else s)

end Sys2Proof.Machine
end

