-- ==== Sys2Proof/Machine/Engine.lean ====
section
/-! DEFINITION. What every engine does with a descriptor: finding and changing it, reading and writing for it, the
conditions that strike it (R103, R104), and its completion (R95, R98, R99, R105). -/

namespace Sys2Proof.Machine

/-! ## Descriptors in their slots -/

/-- The descriptor with an identity. -/
def State.desc? (s : State) (id : Nat) : Option Desc := s.work.descs.find? fun d => d.id == id

/-- The earliest-admitted descriptor that a test picks (R348, R350). -/
def State.firstAdmitted (s : State) (p : Desc → Bool) : Option Desc :=
  (s.work.descs.filter p).foldl (fun (m : Option Desc) d => match m with
    | none => some d
    | some e => if d.adm < e.adm then some d else some e) none

/-- One descriptor changed. -/
def State.updDesc (s : State) (id : Nat) (f : Desc → Desc) : State :=
  { s with work := { s.work with descs := s.work.descs.map fun d => if d.id = id then f d else d } }

/-- A descriptor's phase set. -/
def State.setPhase (s : State) (id : Nat) (p : Phase) : State := s.updDesc id fun d => { d with phase := p }

/-- GEN's domain window (R92): 0 live, 1 ahead, 2 retired. -/
def Core.genState (c : Core) (gen : Nat) : Nat :=
  let r := c.rd (Reg.genDomain (gen / 4096 % 16))
  let cur := getF r 11 0
  let floor := getF r 27 16
  let s := gen % 4096
  if (s + 4096 - floor) % 4096 ≤ (cur + 4096 - floor) % 4096 then 0
  else if 1 ≤ (s + 4096 - cur) % 4096 ∧ (s + 4096 - cur) % 4096 ≤ 1023 then 1
  else 2

/-- Whether a PERMUTE is an in-place transpose (R161). -/
def Desc.inPlace (d : Desc) : Bool :=
  let a := d.record 0
  let b := d.record 1
  let size := fmtBits a.fmt / 8
  d.opcode == 0x21 && d.arg == 0x4681 && a.base == b.base && a.fmt == b.fmt && a.strides == b.strides &&
  decide (size ≤ 4) && a.stride 0 == 1 && d.n == d.m && d.m % 64 == 0 && a.stride 1 % 64 == 0 &&
  decide ((d.n : Int) ≤ a.stride 1)

/-- Whether an in-place transpose is past its first write (R162). -/
def Desc.pastFirst (d : Desc) : Bool := d.inPlace && d.wrote && d.phase == .running

/-- Whether an engine still works on a descriptor: its generation has not retired (R95), or it is an in-place transpose past its
first write (R162). -/
def State.works (s : State) (d : Desc) : Bool := s.core.genState d.gen != 2 || d.pastFirst

/-- A stage of an engine's work on a descriptor: none once its generation has retired; what it reads of other modules comes first
(R76, R95). -/
def State.stage (s : State) (d : Desc) (f : State → State) : State := if s.works d then s.withFetch (.desc d.id) f else s

/-- Whether a descriptor is guarded while a step is held (R413). -/
def Core.guarded (c : Core) (gen : Nat) : Bool := c.held && c.bit Reg.detGuard (gen / 4096 % 16)

/-- The hold status: NONFINITE_VETO when VETO is set, else SPIKE_HOLD (R413). -/
def Core.holdStatus (c : Core) : Nat := if c.bit Reg.detStatus 1 then 0x20 else 0x21

/-- Whether a condition leaves the outputs undefined (R103); ADDR_RANGE at run leaves the outputs that R181, R184 and R215
give. -/
def Desc.undefined (d : Desc) : Bool :=
  d.conds.any fun x => [0x20, 0x21, 0x22, 0x30, 0x40, 0x41].contains x.code

/-- A condition noted on a descriptor, once for each code (R104). The writes of a dispatch to its receive areas, whose waiters carry
0x100 and more as their record, report RECORD 2 (R215). -/
def State.strike (s : State) (id code addr rec_ : Nat) : State :=
  s.updDesc id fun d =>
    if d.conds.any (fun x => x.code == code) then d
    else { d with conds := d.conds ++ [{ code := code, addr := addr, rec_ := if 0x100 ≤ rec_ then 2 else rec_ }] }

/-- Acknowledgements that a descriptor's outputs for a record still await: of requests, and of operations that memory holds. -/
def Core.owed (c : Core) (id rec_ : Nat) : Nat :=
  (c.reqs.filter fun r => r.waiter == .desc id rec_).length + (c.late.filter fun l => l.who == .desc id rec_).length +
    (c.cow.filter fun o => o.who == .desc id rec_).length

/-! ## Reads and writes for a descriptor -/

/-- The lines of a global range that hold an uncorrectable error in this module's memory. -/
def Core.ueLines (c : Core) (ga n : Nat) : List Nat :=
  if c.isLocal ga then (linesOf (gaLocal ga) n).filter c.isUe else []

/-- Lines of an uncorrectable error that a descriptor met, by global address over 64; each counts once (R105). -/
def State.sawUe (s : State) (id : Nat) (lines : List Nat) : State :=
  s.updDesc id fun d => { d with ueSeen := lines.foldl (fun l x => if l.contains x then l else l ++ [x]) d.ueSeen }

/-- Lines of this module's memory in which a read or a partial write of a descriptor met an uncorrectable error: counted and
noted (R105, R320), and the first strikes MEM_UE. -/
def State.meetUe (s : State) (id rec_ : Nat) (bad : List Nat) : State :=
  match bad with
  | [] => s
  | l :: _ =>
    let s1 := s.onCore fun c => bad.foldl (fun c l => c.countMemErr (l * 64) true) c
    (s1.strike id 0x22 (s1.core.global (l * 64)) rec_).sawUe id (bad.map fun l => s1.core.global (l * 64) / 64)

/-- The bytes fetched of another module for a range: each response other than good strikes with its status (R76, R391). READ_RESP
names no line (R388): DESIGN CHOICE (log entry 105), a MEM_UE answer counts one line, the first of its request. -/
def State.meetFetched (s : State) (id rec_ : Nat) (r : Nat × Nat) : State :=
  (s.core.mine.filter fun f => f.status != 0 && rangesMeet (f.ga, f.n) r).foldl (fun s f =>
    let s1 := s.strike id f.status f.ga rec_
    if f.status = 0x22 then s1.sawUe id [f.ga / 64] else s1) s

/-- One range read for a descriptor by tile `t` over plane `p`: counted (R473), its uncorrectable lines counted and noted
(R105, R320). Bytes of another module are fetched by READ_REQ, in class D for plane D (R388); a lost route is noted (R391), and
an address that is not mapped, or before MODULE_NO is set (R77, R78). -/
def State.readOne (s : State) (id t p rec_ : Nat) (r : Nat × Nat) : State :=
  let c := s.core.countAccess t p .rd r.1 r.2
  let s1 : State := { s with core := c }
  if c.isLocal r.1 then
    if c.memRange (gaLocal r.1) r.2 then s1.meetUe id rec_ (c.ueLines r.1 r.2) else s1.strike id 0x15 r.1 rec_
  else if !c.isSet then s1.strike id 0x15 r.1 rec_
  else if (c.gaps r.1 r.2).isEmpty then s1.meetFetched id rec_ r
  else if c.reachable (gaModule r.1) then { s with core := c.wantRead rec_ (if p = 0 then 0 else 1) r.1 r.2 }
  else s1.strike id 0x40 r.1 rec_

/-- Ranges read for record `rec_` of a descriptor. -/
def State.readFor (s : State) (id t p rec_ : Nat) (rs : List (Nat × Nat)) : State :=
  rs.foldl (fun s r => s.readOne id t p rec_ r) s

/-- Bytes of another module that a stage needs beside those it counts: they are fetched if they have not come, in class `cls`, that of
the requester's plane (R388). -/
def State.needFor (s : State) (cls rec_ : Nat) (rs : List (Nat × Nat)) : State :=
  s.onCore fun c => rs.foldl (fun c r =>
    if c.isLocal r.1 || !c.isSet || !(c.reachable (gaModule r.1)) then c else c.wantRead rec_ cls r.1 r.2) c

/-- One write for a descriptor. A partial write of a line with an uncorrectable error strikes MEM_UE (R320); a lost route LINK_DOWN
(R391); before MODULE_NO is set ADDR_RANGE (R77). Each message, and each line that waits for its page's copy, awaits its
acknowledgement (R98, R422). -/
def State.putOne (s : State) (id t p rec_ : Nat) (w : Nat × List Byte) : State :=
  let e := s.core.writeG t p w.1 w.2 (.desc id rec_)
  let out := e.core.reqs.length + e.core.heldOps - (s.core.reqs.length + s.core.heldOps)
  let s1 := ({ s with core := e.core } : State).updDesc id fun d =>
    { d with acks := d.acks + out, wrote := d.wrote || !(e.down || e.unset) }
  let s2 := s1.meetUe id rec_ e.lost
  if e.down then s2.strike id 0x40 w.1 rec_ else if e.unset then s2.strike id 0x15 w.1 rec_ else s2

/-- Writes for record `rec_` of a descriptor, in order, whatever has struck it. -/
def State.putFor (s : State) (id t p rec_ : Nat) (ws : List (Nat × List Byte)) : State :=
  ws.foldl (fun s w => s.putOne id t p rec_ w) s

/-- One write for a descriptor: issued unless a condition has left the outputs undefined (R103). -/
def State.writeOne (s : State) (id t p rec_ : Nat) (w : Nat × List Byte) : State :=
  if (s.desc? id).any Desc.undefined then s else s.putOne id t p rec_ w

/-- Writes for record `rec_` of a descriptor, in order. -/
def State.writeFor (s : State) (id t p rec_ : Nat) (ws : List (Nat × List Byte)) : State :=
  ws.foldl (fun s w => s.writeOne id t p rec_ w) s

/-- Writes for record `rec_` of a descriptor, in order, with the number of bytes that were issued. -/
def State.writeCounted (s : State) (id t p rec_ : Nat) (ws : List (Nat × List Byte)) : State × Nat :=
  ws.foldl (fun r w => (r.1.writeOne id t p rec_ w, r.2 + if (r.1.desc? id).any Desc.undefined then 0 else w.2.length)) (s, 0)

/-- One element to write: bit address, width and pattern. -/
structure OutEl where
  bit : Int
  bits : Nat
  val : Nat
  deriving DecidableEq, Repr

/-- The byte that pending chunks, latest first, give an address, if any. -/
def chunkByte (cs : List (Nat × List Byte)) (a : Nat) : Option Byte :=
  match cs with
  | [] => none
  | (b, bs) :: r => if b ≤ a ∧ a < b + bs.length then bs[a - b]? else chunkByte r a

/-- One element put behind pending chunks, latest first; half a byte is merged with the other half. -/
def Core.addEl (c : Core) (cs : List (Nat × List Byte)) (o : OutEl) : List (Nat × List Byte) :=
  let a := (o.bit / 8).toNat
  let new : List Byte :=
    if o.bits < 8 then
      let old := ((chunkByte cs a).getD (c.gByte a)).toNat
      let sh := (o.bit % 8).toNat
      leBytes 1 (old - (old >>> sh % 16) * 2 ^ sh + o.val % 16 * 2 ^ sh)
    else leBytes (o.bits / 8) o.val
  match cs with
  | (b, bs) :: r =>
    if a = b + bs.length then (b, bs ++ new) :: r
    else if o.bits < 8 ∧ a + 1 = b + bs.length then (b, bs.dropLast ++ new) :: r
    else (a, new) :: cs
  | [] => [(a, new)]

/-- Two runs of elements in rising address order made one; equal addresses keep their order. -/
def mergeEls : Nat → List OutEl → List OutEl → List OutEl
  | 0, xs, ys => xs ++ ys
  | n + 1, x :: xs, y :: ys => if x.bit ≤ y.bit then x :: mergeEls n xs (y :: ys) else y :: mergeEls n (x :: xs) ys
  | _ + 1, [], ys => ys
  | _ + 1, xs, [] => xs

/-- Elements in rising address order, those of one address in the order given. -/
def sortEls : Nat → List OutEl → List OutEl
  | 0, l => l
  | n + 1, l =>
    if l.length ≤ 1 then l
    else mergeEls l.length (sortEls n (l.take (l.length / 2))) (sortEls n (l.drop (l.length / 2)))

/-- The writes that elements make: by rising address, neighbours joined. -/
def Core.chunksOf (c : Core) (els : List OutEl) : List (Nat × List Byte) :=
  ((sortEls 64 els).foldl c.addEl []).reverse

/-- Elements written for record `rec_` of a descriptor. -/
def State.writeEls (s : State) (id t p rec_ : Nat) (els : List OutEl) : State :=
  s.writeFor id t p rec_ (s.core.chunksOf els)

/-- An element of a tensor to write. -/
def Tensor.el (t : Tensor) (i : List Nat) (v : Nat) : OutEl := { bit := t.bitAddr i, bits := fmtBits t.r.fmt, val := v }

/-- The scale byte of a stored index to write. -/
def Tensor.scaleEl (t : Tensor) (i : List Nat) (v : Nat) : OutEl := { bit := 8 * t.scaleAddr i, bits := 8, val := v }

/-- One adder operation for a descriptor, at this module's adder or by message to another's (R324, R388). OP: 0 ADD,
1 BITSET, 2 ZERO. A refusal strikes ADDR_RANGE, an uncorrectable line MEM_UE (R326, R327). A message, and an operation that the
adder holds back, awaits its acknowledgement (R98). -/
def State.adderOne (s : State) (id t op ga rank : Nat) (mask : BitVec 16) (bs : List Byte) (rec_ : Nat := 0xFF) : State :=
  if (s.desc? id).any Desc.undefined then s
  else
    let c0 := s.core.countAccess t 2 .acc ga 64
    let who := Waiter.desc id rec_
    if c0.isLocal ga then
      let r := match op with
        | 0 => c0.adderAdd (gaLocal ga) rank mask (lanesOf bs) who
        | 1 => c0.adderBitset (gaLocal ga) bs who
        | _ => c0.adderZero (gaLocal ga) mask who
      let s1 := ({ s with core := r.1 } : State).updDesc id fun d => { d with acks := d.acks + (r.1.heldOps - c0.heldOps) }
      if r.2 = 0 then s1
      else if r.2 = 0x22 then (s1.strike id r.2 ga rec_).sawUe id [ga / 64]
      else s1.strike id r.2 ga rec_
    else if !c0.isSet then ({ s with core := c0 } : State).strike id 0x15 ga rec_
    else if c0.reachable (gaModule ga) then
      ({ s with core := c0.request (gaModule ga) 2 who fun tag => msgAccum op tag rank mask.toNat ga bs } : State).updDesc
        id fun d => { d with acks := d.acks + 1 }
    else ({ s with core := c0 } : State).strike id 0x40 ga rec_

/-- A held operation of a descriptor has been carried out: one acknowledgement fewer, and an error strikes (R327, R422). -/
def State.heldDesc (s : State) (id rec_ st ga : Nat) : State :=
  let s1 := s.updDesc id fun d => { d with acks := d.acks - 1 }
  if st = 0 then s1
  else if st = 0x22 then (s1.strike id st ga rec_).sawUe id [ga / 64]
  else s1.strike id st ga rec_

/-- A store or accumulate of context `n` of tile `t`. -/
def Waiter.isStoreOf (w : Waiter) (t n : Nat) : Bool := match w with
  | .store a b _ => a == t && b == n
  | _ => false

/-- Whether a context has a store that is not yet acknowledged: one to another module, or one that memory holds back (R422). -/
def State.storesOut (s : State) (t n : Nat) : Bool :=
  (s.core.reqs.any fun r => r.waiter.isStoreOf t n) || (s.core.cow.any fun o => o.who.isStoreOf t n) ||
  (s.core.late.any fun l => l.who.isStoreOf t n)

/-! ## Completion (R98, R99, R104 to R107) -/

/-- The order in which run-time conditions are reported, with their bit in OTHER (R104, R106). -/
def condOrder : List (Nat × Nat) := [(0x22, 0), (0x15, 1), (0x40, 2), (0x41, 3), (0x20, 4), (0x21, 5), (0x30, 6)]

/-- The status a descriptor completes with: the first condition in the order of R104, else the first noted, else DONE. -/
def Desc.status (d : Desc) : Nat :=
  match condOrder.find? fun p => d.conds.any fun x => x.code == p.1 with
  | some p => p.1
  | none => (d.conds.head?.map (·.code)).getD 0

/-- The further conditions, as OTHER marks them. -/
def Desc.others (d : Desc) : Nat :=
  ((condOrder.filter fun p => p.1 != d.status && d.conds.any fun x => x.code == p.1).map fun p => 2 ^ p.2).sum

/-- Statuses that send an error entry (R103). -/
def statusReports (st : Nat) : Bool := !([0x00, 0x01, 0x30, 0x31].contains st)

/-- The error entry of a descriptor (R106). -/
def Desc.errInfo (d : Desc) (st : Nat) : ErrInfo :=
  let x := (d.conds.find? fun x => x.code == st).getD { code := st, addr := 0, rec_ := 0xFF }
  { type := 1, status := st, engine := d.engine, context := d.context, tile := d.tile, gen := d.gen, cookie := d.cookie,
    other := d.others, ueCount := min d.ueSeen.length 0xFFFF, addr := x.addr,
    tensor := if x.rec_ < 4 then (d.record x.rec_).tid else 0, record := x.rec_, queue := d.queueNo, head := d.raw.take 16 }

/-- The 16 bytes of a completion record (R99). -/
def Desc.complBytes (d : Desc) (st : Nat) : List Byte :=
  leBytes 1 st ++ leBytes 1 (d.engine + 0x80) ++ leBytes 2 d.gen ++ leBytes 4 d.cookie ++ leBytes 6 d.step ++ leBytes 2 d.detail

/-- Everything of a descriptor taken out of the engines: its slot, shares, partials, jobs, Glove work, reservations. -/
def State.removeDesc (s : State) (id : Nat) : State := s.dropDescs fun d => d.id == id

/-- RESERVED of every tile brought up to date (R252). -/
def State.showReserved (s : State) (tiles : List Nat) : State :=
  s.onCore fun c => tiles.foldl (fun c t => c.setFld (Reg.sizerStatus t) 17 8
    ((s.work.resv.filter fun r => r.tile == t).map (·.units.length)).sum) c

/-- Whether a descriptor of the same tile that was admitted earlier waits at the Sizer (R249). -/
def State.sizerQueue (s : State) (d : Desc) : Bool :=
  s.work.descs.any fun e => e.tile == d.tile && e.phase == .reserving && decide (e.adm < d.adm)

/-- BUSY and WAITING of a tile's Sizer (R252): a descriptor is planned and its reservation not yet attempted; a descriptor waits for
area, its attempt having failed. -/
def State.showWaiting (s : State) (t : Nat) : State :=
  let here := s.work.descs.filter fun d => d.tile == t && d.phase == .reserving
  s.onCore fun c => (c.setBit (Reg.sizerStatus t) 0 (here.any fun d => !d.tried && !(s.sizerQueue d))).setBit (Reg.sizerStatus t) 1
    (here.any (·.tried))

/-- RED_STATUS brought up to date (R362). -/
def State.showRed (s : State) : State :=
  let st := fun (b : Bucket) => s.core.fld (Reg.bktState b.idx) 2 0
  let live := (s.red.buckets.filter fun b => decide (1 ≤ st b) && decide (st b ≤ 4)).length
  let closed := (s.red.buckets.filter fun b => st b == 5).length
  s.onCore fun c => c.wr Reg.redStatus (BitVec.ofNat 64 (live + 2 ^ 8 * closed))

/-- STATE of a bucket-table entry set; one that closes holds no window any more (R354, R362). -/
def State.setBucket (s : State) (b st : Nat) : State :=
  (s.onCore fun c =>
    let c1 := c.setFld (Reg.bktState b) 2 0 st
    if st = 5 then c1.setFld (Reg.bktState b) 7 3 0 else c1).showRed

/-- A bucket closes when its descriptor completes, with any status (R354). -/
def State.closeBucket (s : State) (id : Nat) : State :=
  match s.red.buckets.find? fun b => b.desc == id && s.core.fld (Reg.bktState b.idx) 2 0 != 5 with
  | some b => s.setBucket b.idx 5
  | none => s

/-- A descriptor completes with a status (R98, R99): its record is written when `record` and CWRITE say so, its error
entry sent, CANCELLED, MEM_UE and hold completions counted, OUTSTANDING lowered and its slot freed. -/
def State.complete (s : State) (d : Desc) (st : Nat) (record : Bool) : State :=
  let c1 := if record && d.cwrite && d.compl % 16 == 0 && s.core.okRange d.compl 16 then
      let e := s.core.writeG d.tile 3 d.compl (d.complBytes st) .nobody
      e.lost.foldl (fun c l => c.countMemErr (l * 64) true) e.core
    else s.core
  let c2 := if statusReports st then c1.err (d.errInfo st) else c1
  let c3 := if st = 0x30 then c2.bump Reg.cancelledCount 1 else c2
  let c4 : Core := if st = 0x22 then { c3 with events := c3.events ++ [2] } else c3
  let t := d.tile
  let g := if d.engine = 2 then 1 else 0
  let can := if st = 0x30 then g else 0
  let c4 := ((c4.bump (Reg.gloveOps t) g).bump (Reg.gloveCancelled t) can).bump (Reg.expAnsDropped t)
    (if d.opcode = 0x42 ∧ bitOf d.arg 0 = true then can else 0)
  let unused := ((s.work.ra.filter fun b => b.desc == d.id).map (·.bytes)).sum
  let c4 := c4.bump (Reg.gloveRaDiscard t) unused
  let c5 := if st = 0x20 ∨ st = 0x21 then c4.bump Reg.detStopped 1 else c4
  let c6 := match d.src with
    | .port n => c5.setFld (Reg.ctxStatus d.tile n) 31 16 (c5.fld (Reg.ctxStatus d.tile n) 31 16 - 1)
    | .queue _ => c5
  let c6 := if d.opcode = 0x60 ∧ d.engine = 3 ∧ bitOf d.arg 6 = true ∧ st ≤ 1 then
      c6.setFld (Reg.fillCnt (d.argF 5 0)) 15 0 (c6.fld (Reg.fillCnt (d.argF 5 0)) 15 0 + 1) else c6
  let tiles := (s.work.resv.filter fun r => r.desc == d.id).map (·.tile)
  (((({ s with core := c6 } : State).closeBucket d.id).removeDesc d.id).showReserved tiles).showWaiting d.tile

/-- The global ranges of a descriptor's output elements, by its opcode. Chains and expert opcodes name theirs over the
whole of their written records. -/
def Desc.outTensors (d : Desc) (p : Pat) : List Tensor :=
  let t := fun i =>
    let r := d.record i
    ({ r := r, ext := d.roleExt i, block := if isNarrow r.fmt then p.blockSize (d.kindOf i) else 0, wide := false,
       mask := false } : Tensor)
  match d.opcode with
  | 0x01 => if d.nrec = 4 then [t 2, t 3] else [t 2]
  | 0x02 => [t 2]
  | 0x03 => [{ t 2 with mask := d.argF 5 4 != 0 }]
  | 0x04 => if d.nrec = 3 then [t 1, t 2] else [t 1]
  | 0x20 => [t 1]
  | 0x21 => [t 1]
  | 0x22 => [{ t 1 with wide := bitOf d.arg 0 }]
  | 0x23 => [t 1]
  | 0x24 =>
    -- the words alone: bytes or 2-byte words without scale bytes (R169)
    [{ t 1 with r := { (d.record 1) with fmt := if fmtBits (d.record 1).fmt = 16 then 2 else 11 } }]
  | 0x40 =>
    if (d.latch.chain.getLast?.getD 0) % 16 = 5 then []
    else [t 2] ++ (if d.argF 6 5 = 3 ∨ (d.argF 6 5 = 2 ∧ d.argF 8 7 = 2) then [t 3] else [])
  | 0x41 => if d.nrec = 4 then [t 3] else [t 0]
  | 0x42 => [t 2] ++ (if d.nrec = 4 then [t 3] else [])
  | _ => []

/-- The outputs of a struck descriptor left undefined (R95, R103). -/
def State.scrambleOutputs (s : State) (d : Desc) : State :=
  let rs := (d.outTensors s.pat).flatMap fun t => t.ranges t.all
  s.onCore fun c => rs.foldl (fun c r => if c.isLocal r.1 then c.scramble (gaLocal r.1) r.2 else c) c

/-- A descriptor's outputs as it leaves them: undefined, once, where a condition or R240 makes them so. -/
def State.leaveOutputs (s : State) (d : Desc) : State :=
  if (d.undefined || d.mixed) && !d.left then (s.scrambleOutputs d).updDesc d.id fun e => { e with left := true } else s

/-- A descriptor stopped while a dump must still read its outputs (R485): its work is gone, and it completes behind the dump. -/
def State.park (s : State) (d : Desc) : State :=
  let tiles := (s.work.resv.filter fun r => r.desc == d.id).map (·.tile)
  (((s.dropWork (· == d.id)).updDesc d.id fun _ => { d with phase := .finished }).showReserved tiles).showWaiting d.tile

/-- A descriptor that has finished and whose outputs are acknowledged completes (R98); outputs that a condition or R240 leaves
undefined are. -/
def State.completeDone (s : State) (d : Desc) : State := (s.leaveOutputs d).complete d d.status true

end Sys2Proof.Machine
end

