-- ==== Sys2Proof/Machine/Sizer.lean ====
section
/-! DEFINITION. The Sizer (spec/08_sizer_shapes_strides.md): the spread set, the cut along K, shares, loop orders, and the
reservation of combine and spill area. -/

namespace Sys2Proof.Machine

/-! ## Records in their roles -/

/-- MASK of a Mitt descriptor (R114). -/
def Desc.maskF (d : Desc) : Nat := if d.opcode ≤ 3 then d.argF 5 4 else 0

/-- Record `i` with its role's extents, its recipe's block size, and its mask or wide words (R129, R154, R155). -/
def State.tensor (s : State) (d : Desc) (i : Nat) : Tensor :=
  let r := d.record i
  let wide := r.layout == 3 && i == 0 &&
    ((d.opcode == 1 && d.maskF != 0) || (d.opcode == 2 && d.maskF == 2))
  let masked := r.layout == 1 && d.maskF != 0 && ((decide (d.opcode ≤ 2) && i == 1) || (d.opcode == 3 && i == 2))
  { r := r, ext := d.roleExt i, block := if isNarrow r.fmt then s.pat.blockSize (d.kindOf i) else 0, wide := wide,
    mask := masked }

/-- Record 1 of a Cuff descriptor, its destination. -/
def State.dest (s : State) (d : Desc) : Tensor := { s.tensor d 1 with wide := d.opcode == 0x22 && bitOf d.arg 0 }

/-- Record `i` as admission measures it: words of a packed stream carry no scale bytes (R165). -/
def State.measured (s : State) (d : Desc) (i : Nat) : Tensor :=
  let t := if d.opcode = 0x22 ∧ i = 1 then s.dest d else s.tensor d i
  if (d.opcode = 0x23 ∨ d.opcode = 0x24) ∧ isNarrow t.r.fmt = true then { t with r := { t.r with fmt := 11 } } else t

/-- The parts of global ranges that lie in the spans of a descriptor's records. -/
def State.inSpans (s : State) (rs : List (Nat × Nat)) (e : Desc) : List (Nat × Nat) :=
  if e.phase = .waiting then []
  else
    rs.flatMap fun r => (List.range e.nrec).filterMap fun i =>
      let sp := (s.measured e i).span
      let lo := max r.1 sp.1.toNat
      let hi := min (r.1 + r.2) sp.2.toNat
      if lo < hi then some (lo, hi - lo) else none

/-! ## The spread set (R241) -/

/-- The logical numbers of the tiles that a multicast group marks for local delivery, ascending; the group names physical
tiles by the image's own tile map, and a logical number stays valid across a replacement (R51, R52, R241). -/
def State.groupMembers (s : State) (g : Nat) : List Nat :=
  match s.pat.run with
  | none => []
  | some i =>
    let m := sectionMap s.part.fuses (i.section 1)
    match (groupRecords (i.section 2)).find? fun r => leField r 0 1 == g with
    | none => []
    | some r => (List.range s.core.active).filter fun t =>
        (List.range 96).any fun p => m.getD p 0xFF == t && bitOf (leField r (16 + p) 1) 0

/-- The spread set of an admitting tile, and whether SIZER_GROUP named no usable group (R241). -/
def State.spreadSet (s : State) (t : Nat) : List Nat × Bool :=
  if s.core.bit (Reg.sizerGroup t) 7 then
    (match s.groupMembers (s.core.fld (Reg.sizerGroup t) 5 0) with
    | [] => ([t], true)
    | l => (l, false))
  else ([t], false)

/-! ## Cutting K (R242) -/

/-- Output rows and columns, the contracted extent, the span of one pass, and the output batch entries (R241 to R242). -/
structure Dims where
  rows : Nat
  cols : Nat
  x : Nat
  span : Nat
  bt : Nat
  deriving DecidableEq, Repr

/-- Whether a record that a statistics descriptor writes holds the left statistic (R305). -/
def Desc.statLeft (d : Desc) (out : Nat) : Bool := out == 1 && (d.nrec == 3 || !(bitOf d.arg 0))

/-- The records that a product's shares write: record 2, of MM_STATS each of its statistics (R305). -/
def Desc.outs (d : Desc) : List Nat := if d.opcode = 4 then (if d.nrec = 3 then [1, 2] else [1]) else [2]

/-- The dimensions of a product, and of the statistic in record `out` of MM_STATS (R305). -/
def Desc.dims (d : Desc) (out : Nat := 2) : Dims :=
  match d.opcode with
  | 0x04 => if d.statLeft out then { rows := d.m, cols := d.m, x := d.n, span := 64, bt := d.b0 * d.b1 }
    else { rows := d.n, cols := d.n, x := d.m, span := 64, bt := d.b0 * d.b1 }
  | 0x02 => { rows := d.m, cols := d.k, x := d.n, span := if d.maskF = 2 then 128 else 64, bt := d.b0 * d.b1 }
  | 0x03 => { rows := d.k, cols := d.n, x := d.m * d.b0 * d.b1, span := 64, bt := 1 }
  | _ => { rows := d.m, cols := d.n, x := d.k,
           span := 64 * slotV (d.record 0).fmt * (if d.maskF = 0 then 1 else 2), bt := d.b0 * d.b1 }

/-- Row and column blocks. -/
def Dims.rb (x : Dims) : Nat := ceilDiv x.rows 64
/-- See `Dims.rb`. -/
def Dims.cb (x : Dims) : Nat := ceilDiv x.cols 64
/-- Passes of the whole contraction, KP. -/
def Dims.kp (x : Dims) : Nat := ceilDiv x.x x.span

/-- Whether ALIAS_ACC is in force for a product (R237). -/
def Desc.aliasAcc (d : Desc) : Bool := d.flag 2 && decide (d.opcode ≤ 2)

/-- The number of pieces S (R242). -/
def Desc.pieces (d : Desc) : Nat :=
  let x := d.dims
  let o := x.rb * x.cb * x.bt
  if bitOf d.arg 6 || d.aliasAcc || decide (32 ≤ o) || d.opcode == 4 then 1
  else
    let s := min (min (x.kp / 4) (32 / max o 1)) 8
    if s < 2 then 1 else s

/-- Passes [lo, hi) of piece `p` (R242). -/
def Desc.pieceOf (d : Desc) (p : Nat) (out : Nat := 2) : Nat × Nat :=
  (p * (d.dims out).kp / d.pieces, (p + 1) * (d.dims out).kp / d.pieces)

/-- The first batch entry of each unit: under ALIAS_ACC the entries of an aliasing dimension form one unit (R244). -/
def Desc.units (d : Desc) : List Nat :=
  if d.dims.bt ≤ 1 then [0]
  else
    let r := d.record 2
    let n0 := if d.aliasAcc && r.stride 2 == 0 then 1 else d.b0
    let n1 := if d.aliasAcc && r.stride 3 == 0 then 1 else d.b1
    (List.range n1).flatMap fun b1 => (List.range n0).map fun b0 => b0 + d.b0 * b1

/-- The batch entries that belong to the unit that starts at entry `b`, ascending. -/
def Desc.unitEntries (d : Desc) (b : Nat) : List Nat :=
  if d.dims.bt ≤ 1 then [0]
  else if d.aliasAcc then
    let r := d.record 2
    (List.range d.dims.bt).filter fun e =>
      (r.stride 2 == 0 || e % d.b0 == b % d.b0) && (r.stride 3 == 0 || e / d.b0 == b / d.b0)
  else [b]

/-! ## Shares (R244 to R246) -/

/-- The strips of `n` blocks cut in `k` parts. -/
def strips (n k : Nat) : List (Nat × Nat) := (List.range k).map fun i => (i * n / k, (i + 1) * n / k)

/-- The cells of the output of record `out` that are shares: its number, unit, piece, column strip and row strip, in list order
(R244). -/
def Desc.cells (d : Desc) (g out : Nat) : List (Nat × Nat × Nat × (Nat × Nat) × (Nat × Nat)) :=
  let x := d.dims out
  let q := ceilDiv g (d.units.length * d.pieces)
  let c := min x.cb q
  let r := min x.rb (ceilDiv q (max c 1))
  d.units.flatMap fun b => (List.range d.pieces).flatMap fun p =>
    (strips x.cb c).flatMap fun cs => (strips x.rb r).map fun rs => (out, b, p, cs, rs)

/-- The shares of a product over the members (R244), each with its loop order and spill (R245, R246). The shares of MM_STATS with two
statistics are those of its first record and then those of its second. -/
def State.planShares (s : State) (d : Desc) (ms : List Nat) : List Share :=
  let cells := d.outs.flatMap (d.cells ms.length)
  (cells.zip (List.range cells.length)).map fun z =>
    let t := ms.getD (z.2 % ms.length) 0
    let cs := z.1.2.2.2.1
    let rs := z.1.2.2.2.2
    let n := rs.2 - rs.1
    let fits := decide (n ≤ 32 ∨ n - 30 ≤ 4 * s.core.fld (Reg.sizerArea t) 15 8)
    { desc := d.id, no := z.2, out := z.1.1, tile := t, piece := z.1.2.2.1, batch := z.1.2.1, rb0 := rs.1, rb1 := rs.2,
      cb0 := cs.1, cb1 := cs.2, orderR := !fits, spill := if fits && decide (32 < n) then n - 30 else 0, slot0 := 0,
      started := false, pass := 0, acc := [] }

/-- Row blocks of a share. -/
def Share.rows (h : Share) : Nat := h.rb1 - h.rb0

/-- The 16 KiB units of area that a plan needs on a tile: the larger of its combine slots and its largest spill (R249). -/
def areaNeed (pieces : Nat) (hs : List Share) (t : Nat) : Nat :=
  let mine := hs.filter fun h => h.tile == t
  let split := ((mine.filter fun h => h.piece == 0).map fun h => (h.rb1 - h.rb0) * (h.cb1 - h.cb0)).sum * (pieces - 1)
  max split ((mine.map (·.spill)).foldl max 0)

/-- SIZER_STATUS and SIZER_LAST of a plan (R252). -/
def Core.notePlan (c : Core) (t s : Nat) (bad : Bool) (g : Nat) (hs : List Share) : Core :=
  let most := hs.foldl (fun (m : Nat) h => max m h.rows) 0
  let top := (hs.filter fun h => h.rows == most).getLast?
  let c1 := (c.bump (Reg.sizerPlans t) 1).bump (Reg.sizerKsplit t) (if 1 < s then 1 else 0)
  let c2 := (c1.setBit (Reg.sizerStatus t) 2 bad).setFld (Reg.sizerStatus t) 31 24 g
  c2.wr (Reg.sizerLast t) (BitVec.ofNat 64
    (s + 16 * (top.any (·.orderR)).toNat + 32 * (hs.any fun h => h.spill != 0).toNat + 2 ^ 8 * min hs.length 0xFFFF +
      2 ^ 24 * min most 255))

/-- The members of a plan, each once. -/
def State.planTiles (s : State) (id : Nat) : List Nat :=
  ((s.work.shares.filter fun h => h.desc == id).map (·.tile)).eraseDups

/-- The local addresses of the free units of 16 KiB in a tile's area, ascending (R249, R253). -/
def State.freeUnits (s : State) (t : Nat) : List Nat :=
  let held := (s.work.resv.filter fun r => r.tile == t).flatMap (·.units)
  ((List.range (4 * s.core.fld (Reg.sizerArea t) 15 8)).map fun k =>
    0x400_0000_0000 + t * 0x80_0000 + s.core.fld (Reg.sizerArea t) 6 0 * 0x1_0000 + k * 0x4000).filter fun a => !(held.contains a)

/-- The shares of a plan with their first slot in their tile's reservation: the combine slots of the piece-0 shares of a tile follow
one another in plan order (R248); a spill starts at slot 0. -/
def slotShares (pieces : Nat) (hs : List Share) : List Share :=
  hs.map fun h =>
    let before := hs.filter fun o => o.tile == h.tile && o.piece == 0 && decide (o.no < h.no)
    { h with slot0 := if h.piece = 0 then ((before.map fun o => (o.rb1 - o.rb0) * (o.cb1 - o.cb0)).sum) * (pieces - 1) else 0 }

/-- The shares and jobs of a descriptor handed on: they come behind those handed on before (R111, R144). -/
def State.issue_ (s : State) (d : Desc) : State :=
  let hs := slotShares d.pieces (s.work.shares.filter fun h => h.desc == d.id)
  { s with work := { s.work with
      shares := (s.work.shares.filter fun h => h.desc != d.id) ++ hs
      jobs := (s.work.jobs.filter fun j => j.desc != d.id) ++ s.work.jobs.filter fun j => j.desc == d.id } }

/-- A reservation attempt for a descriptor at the Sizer (R249): refused with SHAPE_OVER when a member's area is too small,
kept waiting while it does not fit or an earlier descriptor waits, else made whole; its shares are then issued. The
reserved area holds undefined data while the engines use it. A retired generation issues nothing (R251). -/
def State.reserve (s : State) (id : Nat) : State :=
  match s.desc? id with
  | none => s
  | some d =>
    if d.phase ≠ .reserving ∨ s.sizerQueue d = true ∨ s.works d = false then s
    else
      let hs := s.work.shares.filter fun h => h.desc == id
      let needs := (s.planTiles id).map fun t => (t, areaNeed d.pieces hs t)
      let size := fun t => 4 * s.core.fld (Reg.sizerArea t) 15 8
      let held := fun t => ((s.work.resv.filter fun r => r.tile == t).map (·.units.length)).sum
      if needs.any fun p => decide (size p.1 < p.2) then
        ((s.strike id 0x10 (if d.flag 3 then d.shapePtr else 0) 0xFF).updDesc id fun d => { d with detail := 2, phase := .finished }).showWaiting d.tile
      else if needs.all fun p => decide (held p.1 + p.2 ≤ size p.1) then
        let rs := (needs.filter fun p => p.2 != 0).map fun p =>
          ({ desc := id, tile := p.1, units := (s.freeUnits p.1).take p.2 } : Resv)
        let c1 := (rs.flatMap (·.units)).foldl (fun c a => c.scramble a 0x4000) s.core
        let jobs := if d.opcode < 0x20 then 0 else (s.work.jobs.filter fun j => j.desc == id).length
        let c2 := c1.bump (Reg.sizerShares d.tile) (hs.length + jobs)
        let s1 : State := { s with core := c2, work := { s.work with resv := s.work.resv ++ rs } }
        (((s1.issue_ d).setPhase id .ready).showReserved (rs.map (·.tile))).showWaiting d.tile
      else ((s.onCore fun c => (c.bump (Reg.sizerAreaWait d.tile) (Config.freeNat c.freeCtr)).fresh.2).updDesc id fun d =>
        { d with tried := true }).showWaiting d.tile

/-- AREA_RESERVE: the Sizer's reservation for a waiting descriptor (R249). A descriptor that it refuses completes at
DESCRIPTOR_COMPLETE. -/
def execAreaReserve (id : Nat) (s : State) : Host.Outcome State Fault Refusal := s.clocked <| .next (s.reserve id)

/-- Whether a share uses its tile's reservation: it combines, or it spills (R249). -/
def Share.usesArea (h : Share) (pieces : Nat) : Bool := (h.piece == 0 && decide (1 < pieces)) || h.spill != 0

/-- Records whose spans hold reserved area that is given back (R240): the values there are undefined, and the outputs of the
descriptors that the records belong to. -/
def State.areaMix (s : State) (units : List Nat) : State :=
  let rs := units.map fun u => (s.core.global u, 0x4000)
  let hit := s.work.descs.flatMap (s.inSpans rs)
  let s1 := s.onCore fun c => hit.foldl (fun c r => c.scramble (gaLocal r.1) r.2) c
  s.work.descs.foldl (fun s' e => if (s.inSpans rs e).isEmpty then s' else s'.updDesc e.id fun x => { x with mixed := true }) s1

/-- Reservations of a descriptor that no share of it uses any more are released (R249, R251). -/
def State.releaseArea (s : State) (d : Desc) : State :=
  let gone := fun (r : Resv) => r.desc == d.id &&
    !(s.work.shares.any fun h => h.desc == d.id && h.tile == r.tile && h.usesArea d.pieces)
  let out := s.work.resv.filter gone
  let s1 := s.areaMix (out.flatMap (·.units))
  ({ s1 with work := { s1.work with resv := s1.work.resv.filter fun r => !(gone r) } } : State).showReserved (out.map (·.tile))

/-- The local address of a slot of a share's reservation on its tile. -/
def State.slotAt (s : State) (h : Share) (k : Nat) : Nat :=
  (((s.work.resv.find? fun r => r.desc == h.desc && r.tile == h.tile).map (·.units)).getD []).getD k 0

/-- FP32 sums read back from a slot of reserved area (R246, R248): what the engine stored there, free once something else has been
stored there meanwhile, which makes the results undefined (R240, R249). -/
def Core.areaSums (c : Core) (a : Nat) (sums : List Lane) : List Lane :=
  if c.rdBytes a (4 * sums.length) = lanesBytes sums then sums
  else (List.range sums.length).map fun k => BitVec.ofNat 32 (leNat ((List.range 4).map fun b => Config.freeByte c.freeCtr (a + 4 * k + b)))

end Sys2Proof.Machine
end

