-- ==== Sys2Proof/Machine/Mitt.lean ====
section
/-! DEFINITION. The Mitt (spec/04_mitt_dense_engine.md, and the gradient products of spec/05_cuff_backward_path.md): the
fixed K order, passes, partial pieces, the combine step, the drain and the fused derivative. -/

namespace Sys2Proof.Machine

/-! ## Elements in their roles -/

/-- The index of an element of records 0 to 3 at batch entry `b`. -/
def Desc.at (d : Desc) (i0 i1 b : Nat) : List Nat := [i0, i1, b % max d.b0 1, b / max d.b0 1, 0]

/-! ## The product along K (R119, R120) -/

/-- One product: exact, its scales included, rounded once to FP32; +0 where the mask drops the weight. A product of two INT8 values
is an exact integer, so that a zero has no sign (R119). -/
def product (a : Held) (w : Option Held) : Lane :=
  match w with
  | none => 0
  | some w =>
    match vMul a.val w.val with
    | .fin n m e => toLane (.fin (n && !(a.fmt == 6 && w.fmt == 6 && m == 0)) m e)
    | v => toLane v

/-- One level of the tree of R120. -/
def treeLevel : List Lane → List Lane
  | a :: b :: r => fAdd a b :: treeLevel r
  | l => l

/-- The 64 leaves of a chunk added over the fixed tree. -/
def treeSum (l : List Lane) : Lane :=
  (treeLevel (treeLevel (treeLevel (treeLevel (treeLevel (treeLevel l)))))).getD 0 0

/-- One chunk added to a running sum; the first chunk stands for itself. -/
def chunkAdd (acc : Option Lane) (p : Lane) : Option Lane :=
  match acc with
  | none => some p
  | some a => some (fAdd a p)

/-- The record that stands in the cells: record 1, of MM_STATS record 0 (R305). -/
def Desc.heldRec (d : Desc) : Nat := if d.opcode = 4 then 0 else 1

/-- The streamed operand at a contracted index `x`, for output row `m` of batch entry `b`: an index of record 0. -/
def Desc.streamed (d : Desc) (out m x b : Nat) : List Nat :=
  match d.opcode with
  | 0x03 => d.at m (x % max d.m 1) (x / max d.m 1)
  | 0x04 => if d.statLeft out then d.at x m b else d.at m x b
  | _ => d.at x m b

/-- The operand in the cells at a contracted index `x`, for output column `n` of batch entry `b`. -/
def Desc.heldAt (d : Desc) (out n x b : Nat) : List Nat :=
  match d.opcode with
  | 0x02 => d.at x n b
  | 0x03 => d.at n (x % max d.m 1) (x / max d.m 1)
  | 0x04 => if d.statLeft out then d.at x n b else d.at n x b
  | _ => d.at n x b

/-- The sums of one 64 by 64 block after a pass, row-major: `rows` are its 64 vectors and `cols` the 64 columns of weights, both along
the pass's contracted values; `old` is empty before the first chunk. -/
def blockSums (rows : List (List Held)) (cols : List (List (Option Held))) (chunks : Nat) (old : List Lane) : List Lane :=
  (List.range chunks).foldl (fun (acc : List Lane) j =>
    let new := rows.flatMap fun r => cols.map fun c =>
      treeSum (List.zipWith product ((r.drop (64 * j)).take 64) ((c.drop (64 * j)).take 64))
    if acc.isEmpty then new else List.zipWith fAdd acc new) old

/-! ## Passes (R110, R245) -/

/-- Row blocks [lo, hi), column block, batch entry and pass of the whole contraction for pass index `i` of a share: row
groups of 32 in order R, then columns, then the entries of an aliasing unit, then passes (R237, R245). -/
structure PassAt where
  r0 : Nat
  r1 : Nat
  cb : Nat
  entry : Nat
  pass : Nat
  first : Bool
  last : Bool
  lastEntry : Bool
  deriving DecidableEq, Repr

/-- Passes of a share: for each row group, column block and entry, the passes of its piece. -/
def Share.passCount (h : Share) (d : Desc) : Nat :=
  let p := d.pieceOf h.piece h.out
  (if h.orderR then ceilDiv h.rows 32 else 1) * (h.cb1 - h.cb0) * (d.unitEntries h.batch).length * (p.2 - p.1)

/-- See `PassAt`. -/
def Share.passAt (h : Share) (d : Desc) (i : Nat) : PassAt :=
  let p := d.pieceOf h.piece h.out
  let n := max (p.2 - p.1) 1
  let es := d.unitEntries h.batch
  let k := i % n
  let e := i / n % max es.length 1
  let c := i / (n * max es.length 1)
  let g := c / max (h.cb1 - h.cb0) 1
  let r0 := if h.orderR then h.rb0 + 32 * g else h.rb0
  { r0 := r0, r1 := if h.orderR then min h.rb1 (r0 + 32) else h.rb1, cb := h.cb0 + c % max (h.cb1 - h.cb0) 1,
    entry := es.getD e 0, pass := p.1 + k, first := k == 0, last := k + 1 == n, lastEntry := e + 1 == es.length }

/-- The chunks [lo, hi) of a pass. -/
def Desc.passChunks (d : Desc) (p : Nat) (out : Nat := 2) : Nat × Nat :=
  let x := d.dims out
  (p * x.span / 64, min ((p + 1) * x.span) x.x / 64)

/-- The contracted indices of a pass of a share, ascending. -/
def Share.passXs (h : Share) (d : Desc) (q : PassAt) : List Nat :=
  let ch := d.passChunks q.pass h.out
  (List.range (64 * (ch.2 - ch.1))).map (64 * ch.1 + ·)

/-- The indices of record 0 that row block `rb` of a pass streams, row by row. -/
def Share.rowIdx (h : Share) (d : Desc) (q : PassAt) (rb : Nat) : List (List (List Nat)) :=
  (List.range 64).map fun m => (h.passXs d q).map fun x => d.streamed h.out (64 * rb + m) x q.entry

/-- The logical indices of the operand in the cells in a pass, column by column. -/
def Share.colIdx (h : Share) (d : Desc) (q : PassAt) : List (List (List Nat)) :=
  (List.range 64).map fun n => (h.passXs d q).map fun x => d.heldAt h.out (64 * q.cb + n) x q.entry

/-- Whether some unit that stored indices touch does not start on a 512-byte boundary (R156). -/
def Tensor.misaligned (t : Tensor) (is : List (List Nat)) : Bool :=
  is.any fun i =>
    let bit := if t.r.tiled then t.originBit 2 i + ((8 * ((t.unitPlace i).1 * t.unitBytes) : Nat) : Int) else t.originBit 1 i
    bit / 8 % 512 != 0

/-! ## Shared operand blocks (R247) -/

/-- The operand blocks that a share needs, as record and stored index of the block's start, in the order of its passes. -/
def State.blockNeeds (s : State) (d : Desc) (h : Share) : List (Nat × List Nat) :=
  let t0 := s.tensor d 0
  let t1 := s.tensor d d.heldRec
  let start := fun (t : Tensor) (i : List Nat) => t.blockStart (if t.mask then i.set 1 (i.getD 1 0 / 2) else i)
  ((List.range (h.passCount d)).flatMap fun i =>
    let q := h.passAt d i
    let ch := d.passChunks q.pass h.out
    let xs := (List.range (ch.2 - ch.1)).map fun c => 64 * (ch.1 + c)
    (xs.map fun x => (d.heldRec, start t1 (d.heldAt h.out (64 * q.cb) x q.entry))) ++
      (List.range (q.r1 - q.r0)).flatMap fun r => xs.map fun x => (0, start t0 (d.streamed h.out (64 * (q.r0 + r)) x q.entry))).eraseDups

/-- The global address of a block of a record. -/
def State.blockAddr (s : State) (d : Desc) (b : Nat × List Nat) : Nat := ((s.tensor d b.1).bitAddr b.2 / 8).toNat

/-- The blocks that two or more shares need, each once, in plan order (R247); `needed` gives for each share its blocks in the order
it needs them. -/
def State.fillsOf (s : State) (d : Desc) (needed : List (List (Nat × List Nat))) : List Fill :=
  let needs := needed.map fun bs => (bs.map fun b => (s.blockAddr d b, b)).foldl
    (fun (l : List (Nat × Nat × List Nat)) p => if l.any fun q => q.1 == p.1 then l else l ++ [p]) []
  let all := needs.flatten.foldl (fun (l : List (Nat × Nat × List Nat)) p => if l.any fun q => q.1 == p.1 then l else l ++ [p]) []
  (all.filter fun p => decide (1 < (needs.filter fun n => n.any fun q => q.1 == p.1).length)).map fun p =>
    { desc := d.id, rec_ := p.2.1, idx := p.2.2, addr := p.1, sent := false }

/-- The multicast fills of a product's plan: a plan of one share has none. -/
def State.planFills (s : State) (d : Desc) (hs : List Share) : List Fill :=
  if hs.length ≤ 1 then [] else s.fillsOf d (hs.map (s.blockNeeds d))

/-- One multicast fill: the admitting tile's Sizer fetches the block once and counts the fill; what it fetches of another module
serves every share. -/
def State.sendFill (s : State) (d : Desc) (f : Fill) : State :=
  let t := s.tensor d f.rec_
  let rs := t.reads (t.blockAll f.idx)
  let keep := fun (g : Fetch) =>
    if g.owner = .desc d.id ∧ rs.any (rangesMeet (g.ga, g.n)) = true then { g with owner := .fill d.id } else g
  let s1 := (s.readFor d.id d.tile 0 f.rec_ rs).onCore fun c =>
    { (c.bump (Reg.sizerMcastFills d.tile) 1) with fetched := c.fetched.map keep }
  { s1 with work := { s1.work with fills := s1.work.fills.map fun x => if x = f then { f with sent := true } else x } }

/-- The fills of a descriptor up to the last of the given blocks go out, one at a time in plan order. -/
def State.sendFills (s : State) (d : Desc) (addrs : List Nat) : State :=
  let mine := s.work.fills.filter fun f => f.desc == d.id
  let last := (mine.zip (List.range mine.length)).foldl (fun n p => if addrs.contains p.1.addr then p.2 + 1 else n) 0
  ((mine.take last).filter fun f => !f.sent).foldl (fun s f => s.sendFill d f) s

/-- Operand elements read for a share on tile `tile`: blocks that other shares need too come by multicast, the others by unicast to its
tile (R247, R473). -/
def State.readOperand (s : State) (d : Desc) (tile : Nat) (i : Nat) (is : List (List Nat)) : State :=
  let t := s.tensor d i
  let shared := (s.work.fills.filter fun f => f.desc == d.id).map (·.addr)
  let addr := fun j => s.blockAddr d (i, t.blockStart j)
  let s1 := s.sendFills d ((is.map addr).eraseDups)
  s1.readFor d.id tile 0 i (t.reads (is.filter fun j => !(shared.contains (addr j))))

/-! ## The Cuff's buffers (R140 to R143) -/

/-- A tile's buffers. -/
def State.bufsOf (s : State) (t : Nat) : CuffBufs :=
  (s.work.bufs.find? fun b => b.tile == t).getD
    { tile := t, turn := false, slots0 := [], slots1 := [], full0 := false, full1 := false }

/-- A tile's buffers replaced. -/
def State.putBufs (s : State) (b : CuffBufs) : State :=
  { s with work := { s.work with bufs := b :: s.work.bufs.filter fun x => x.tile != b.tile } }

/-- A fill: the slots go into the buffer whose turn it is, which is then full. -/
def CuffBufs.fill (b : CuffBufs) (slots : List (Option Held)) : CuffBufs :=
  if b.turn then { b with turn := false, slots1 := slots, full1 := true } else { b with turn := true, slots0 := slots, full0 := true }

/-- Whether a buffer is full. -/
def CuffBufs.anyFull (b : CuffBufs) : Bool := b.full0 || b.full1

/-- The buffer that was filled first of those that are full: buffer 1? -/
def CuffBufs.oldest (b : CuffBufs) : Bool := if b.full0 && b.full1 then b.turn else b.full1

/-- The oldest full buffer emptied by columns: its 64 columns of 64 slots, and the buffers after it. -/
def CuffBufs.empty (b : CuffBufs) : List (List (Option Held)) × CuffBufs :=
  let sl := if b.oldest then b.slots1 else b.slots0
  ((List.range 64).map fun c => (List.range 64).map fun r => sl.getD (64 * r + c) none,
   if b.oldest then { b with full1 := false } else { b with full0 := false })

/-- The Cuff blocks of a pass of a gradient product, as the indices of the operand that it turns, fill row by fill row: for MM_DGRAD
each chunk of the weights of the cells, rows k of columns n; for MM_WGRAD each row block of A, rows m of columns k (R141). -/
def Share.cuffBlocks (h : Share) (d : Desc) (q : PassAt) : List (List (List Nat)) :=
  if d.opcode = 2 then
    let ch := d.passChunks q.pass h.out
    (List.range (ch.2 - ch.1)).map fun c => (List.range 64).flatMap fun r => (List.range 64).map fun n =>
      d.heldAt h.out (64 * q.cb + r) (64 * (ch.1 + c) + n) q.entry
  else if d.opcode = 3 then
    (List.range (q.r1 - q.r0)).map fun b => (h.passXs d q).flatMap fun x => (List.range 64).map fun k =>
      d.streamed h.out (64 * (q.r0 + b) + k) x q.entry
  else []

/-- One buffer filled with a block: its elements are read and widened (R143), and the fill is counted (R156, R172, R268). A dropped
position fills with none, which stands for +0. DESIGN CHOICE (log entry 103): a fill that touches misaligned units counts once in
CUFF_HALF_RATE. -/
def State.fillBuf (s : State) (d : Desc) (h : Share) (is : List (List Nat)) : State :=
  let i := if d.opcode = 2 then 1 else 0
  let t := s.tensor d i
  let sts := is.map (s.core.stored t)
  let real := sts.filterMap id
  let s1 := s.readOperand d h.tile i real
  let n := ((t.ranges real).map (·.2)).sum
  let w := if isNarrow t.r.fmt then real.length else 0
  let s2 := s1.onCore fun c => ((((c.bump (Reg.cuffFills h.tile) 1).bumpUnits (Reg.cuffWidened h.tile) w 4096).bump
    (Reg.cuffBytesIn h.tile) n).bump (Reg.cuffHalfRate h.tile) (if t.misaligned real then 1 else 0)).bump Reg.numFbReads
    (s.core.fallbacks t real).length
  s2.putBufs ((s2.bufsOf h.tile).fill (sts.map fun o => o.map (s.core.element t)))

/-- The next block leaves the Cuff by columns (R141, R172); one that is not in a buffer yet is filled first. -/
def State.nextColumns (s : State) (d : Desc) (h : Share) (is : List (List Nat)) : State × List (List (Option Held)) :=
  let s1 := if (s.bufsOf h.tile).anyFull then s else s.fillBuf d h is
  let e := (s1.bufsOf h.tile).empty
  ((s1.putBufs e.2).onCore fun c => c.bump (Reg.cuffTransposed h.tile) 1, e.1)

/-! ## The cells (R109, R116) -/

/-- A tile's array. -/
def State.arrayOf (s : State) (t : Nat) : Array64 :=
  (s.work.arrays.find? fun a => a.tile == t).getD { tile := t, tag := false, bank0 := Bank.zero, bank1 := Bank.zero }

/-- A tile's array replaced. -/
def State.putArray (s : State) (a : Array64) : State :=
  { s with work := { s.work with arrays := a :: s.work.arrays.filter fun x => x.tile != a.tile } }

/-- The bank that a tag names. -/
def Array64.bank (a : Array64) (tag : Bool) : Bank := if tag then a.bank1 else a.bank0

/-- A load into the bank that the vectors' tag does not name. -/
def Array64.load (a : Array64) (b : Bank) : Array64 := if a.tag then { a with bank0 := b } else { a with bank1 := b }

/-- The swap: vectors take the other tag (R116). -/
def Array64.swap (a : Array64) : Array64 := { a with tag := !a.tag }

/-- Whether a bank holds the weights of a pass of a share. -/
def Bank.holds (b : Bank) (h : Share) (pass : Nat) : Bool := b.pass == some (h.desc, h.no, pass)

/-- The blocks of a pass that has them taken through the Cuff, one after another: while one empties, the next fills, of the next
pass after the last (R140, R171). `more` are the blocks that follow. -/
def State.turnBlocks (s : State) (d : Desc) (h : Share) (bs more : List (List (List Nat))) :
    State × List (List (List (Option Held))) :=
  bs.foldl (fun (acc : State × List (List (List (Option Held)))) is =>
    let k := acc.2.length
    let r := acc.1.nextColumns d h is
    let s1 := match (bs ++ more)[k + 1]? with
      | some nx => if (r.1.bufsOf h.tile).anyFull then r.1 else r.1.fillBuf d h nx
      | none => r.1
    (s1, acc.2 ++ [r.2])) (s, [])

/-- The malformed groups that a load of weights meets (R130), and the 4 by 4 blocks that are not doubly structured (R132).
DESIGN CHOICE (log entry 85): a malformed group, and a block that is not doubly structured, counts at each load that meets it. -/
def State.maskCounts (s : State) (d : Desc) (q : PassAt) : Nat × Nat :=
  let t := s.tensor d 1
  if !t.mask then (0, 0)
  else
    let ch := d.passChunks q.pass
    let ks := if d.opcode = 2 then (64 * q.cb, 64) else (64 * ch.1, 64 * (ch.2 - ch.1))
    let ns := if d.opcode = 2 then (64 * ch.1, 64 * (ch.2 - ch.1)) else (64 * q.cb, 64)
    let bad := (List.range ns.2).flatMap fun n => (List.range (ks.2 / 4)).filter fun g =>
      s.core.groupBad t (d.at (ns.1 + n) (ks.1 + 4 * g) q.entry)
    let kept := fun n k => (s.core.stored t (d.at n k q.entry)).isSome
    let fall := if d.opcode = 2 ∧ d.maskF = 2 then
        (List.range (ns.2 / 4)).flatMap fun a => (List.range (ks.2 / 4)).filter fun b =>
          (List.range 4).any fun k =>
            ((List.range 4).filter fun n => kept (ns.1 + 4 * a + n) (ks.1 + 4 * b + k)).length != 2
      else []
    (bad.length, fall.length)

/-- The shadow load of a pass of a share: its weights go into the bank not in use (R109), those of MM_DGRAD through the Cuff
(R141). -/
def State.loadBank (s : State) (d : Desc) (h : Share) (i : Nat) : State :=
  if h.passCount d ≤ i then s
  else
    let q := h.passAt d i
    let r : State × List (List (Option Held)) :=
      if d.opcode = 2 then
        let more := if i + 1 < h.passCount d then h.cuffBlocks d (h.passAt d (i + 1)) else []
        let x := s.turnBlocks d h (h.cuffBlocks d q) more
        -- column c of the array takes row c of each block, along n
        (x.1, (List.range 64).map fun c => x.2.flatMap fun cols => cols.map fun col => col.getD c none)
      else
        let t := s.tensor d d.heldRec
        let sts := (h.colIdx d q).map fun col => col.map (s.core.stored t)
        let real := sts.flatten.filterMap id
        let s1 := (s.readOperand d h.tile d.heldRec real).onCore fun c => c.bump Reg.numFbReads (s.core.fallbacks t real).length
        (s1, sts.map fun col => col.map fun o => o.map (s.core.element t))
    let mc := s.maskCounts d q
    let s2 := r.1.onCore fun c => (c.bump (Reg.mittMaskBad h.tile) mc.1).bump (Reg.mittMaskFallback h.tile) mc.2
    s2.putArray ((s2.arrayOf h.tile).load { pass := some (h.desc, h.no, i), cols := r.2 })

/-- Whether the next load of a share is already in the shadow bank. -/
def State.loaded (s : State) (h : Share) (i : Nat) : Bool :=
  let a := s.arrayOf h.tile
  (a.bank (!a.tag)).holds h i

/-! ## Counting a pass -/

/-- The counts of one pass over the vectors `rows` and the columns `cols` (R117, R128, R131, R132, R138, R156, R268). `kept` says
which outputs are computed: all, or those a masked gradient keeps (R131). DESIGN CHOICE (log entry 84): a
multiply gated by a zero operand still counts in MITT_MAC. -/
def State.countPass (s : State) (d : Desc) (h : Share) (q : PassAt) (rows : List (List Held)) (cols : List (List (Option Held)))
    (kept : Nat → Nat → Bool) : State :=
  let t := h.tile
  let t0 := s.tensor d 0
  let t1 := s.tensor d d.heldRec
  let r0 := ((List.range (q.r1 - q.r0)).flatMap fun b => (h.rowIdx d q (q.r0 + b)).flatten)
  let r1 := (h.colIdx d q).flatten.filterMap (s.core.stored t1)
  let half := t0.misaligned r0 || t1.misaligned r1
  let fb := !(s.core.fallbacks t0 r0).isEmpty || !(s.core.fallbacks t1 r1).isEmpty
  let mc := s.maskCounts d q
  let vec := rows.length
  let base := if d.opcode = 3 ∧ d.maskF ≠ 0 then vec / 2 else if mc.2 ≠ 0 then 2 * vec else vec
  let issue := base * (if half then 2 else 1) * (if fb && d.opcode == 1 then slotV t1.r.fmt else 1)
  let zero := fun (v : Held) => match v.val with
    | .fin _ m _ => m == 0
    | _ => false
  let fin := fun (v : Held) => match v.val with
    | .fin _ _ _ => true
    | _ => false
  let gated := fun (a : Held) (w : Option Held) => match w with
    | none => false
    | some w => (zero a && fin w) || (zero w && fin a)
  let pairs := (rows.zip (List.range rows.length)).flatMap fun r => ((cols.zip (List.range 64)).filter fun c => kept r.2 c.2).map fun c => (r.1, c.1)
  let macs := (pairs.map fun p => (p.2.filter Option.isSome).length).sum
  let skips := if s.core.bit (Reg.mittCtrl t) 0 then
      (pairs.map fun p => ((List.zipWith gated p.1 p.2).filter id).length).sum else 0
  let c1 := (s.core.bump (Reg.mittIssue t) issue).bumpUnits (Reg.mittMac t) macs 4096
  let c2 := (c1.bumpUnits (Reg.mittZskip t) skips 1024).bump (Reg.mittPasses t) 1
  let c3 := (c2.bump (Reg.mittMaskPasses t) (if d.maskF ≠ 0 then 1 else 0)).bump (Reg.mittHalfRate t) (if half then 1 else 0)
  let c4 := (c3.bump (Reg.mittOpwait t) (Config.freeNat c3.freeCtr)).bump (Reg.mittShwait t) (Config.freeNat (c3.freeCtr + 1))
  { s with core := { c4 with freeCtr := c4.freeCtr + 2 } }

/-! ## Shares in the array -/

/-- A share replaced. -/
def State.putShare (s : State) (old new : Share) : State :=
  { s with work := { s.work with shares := s.work.shares.map fun h => if h = old then new else h } }

/-- A share taken away. -/
def State.dropShare (s : State) (old : Share) : State :=
  { s with work := { s.work with shares := s.work.shares.filter (· ≠ old) } }

/-- Accumulator tiles in use on a tile (R138); a spilled share never holds more than 32. -/
def State.accUsed (s : State) (t : Nat) : Nat :=
  ((s.work.shares.filter fun h => h.tile == t).map fun h => min h.acc.length 32).sum

/-- A descriptor whose last share has ended has issued its outputs. -/
def State.sharesDone (s : State) (d : Desc) : State :=
  let s1 := s.releaseArea d
  if s1.work.shares.any fun h => h.desc == d.id then s1
  else
    match s1.desc? d.id with
    | some e => if e.phase = .ready ∨ e.phase = .running then s1.setPhase d.id .finished else s1
    | none => s1

/-- Whether a job is that of a gradient share (R144); the pieces of one block have jobs that are alike. -/
def CuffJob.isOf (j : CuffJob) (h : Share) : Bool :=
  j.desc == h.desc && j.tile == h.tile && j.batch == h.batch && j.rb0 == h.rb0 && j.rb1 == h.rb1 && j.cb0 == h.cb0 && j.cb1 == h.cb1

/-- Whether a share has a job in the Cuff, or needs none. -/
def State.hasJob (s : State) (d : Desc) (h : Share) : Bool :=
  (d.opcode != 2 && d.opcode != 3) || s.work.jobs.any fun j => j.started && j.isOf h

/-- The end of a share whose passes are all run and whose accumulator tiles are empty: MITT_SHARES. Its job in the Cuff ends with
it. -/
def State.shareEnd (s : State) (d : Desc) (h : Share) : State :=
  if h.started && h.acc.isEmpty && h.pass == h.passCount d then
    let s1 := (s.dropShare h).onCore fun c => c.bump (Reg.mittShares h.tile) 1
    let job := s1.work.jobs.find? fun j => j.started && j.isOf h
    let s2 : State := match job with
      | some j => { s1 with work := { s1.work with jobs := s1.work.jobs.erase j } }
      | none => s1
    s2.sharesDone d
  else s

/-- Whether a row block of a share takes turns in the spill space (R246). -/
def Share.spilled (h : Share) (rb : Nat) : Bool := h.spill != 0 && decide (h.rb0 + 30 ≤ rb)

/-- The accumulator tile of a block in a share, empty when it is not yet in use; a spilled one is read back from the area. -/
def State.tileAt (s : State) (h : Share) (rb cb : Nat) : AccTile :=
  match h.acc.find? fun a => a.rb == rb && a.cb == cb with
  | none => { rb := rb, cb := cb, next := 1, full := false, sums := [], before := [] }
  | some a => if h.spilled rb then { a with sums := s.core.areaSums (s.slotAt h (rb - h.rb0 - 30)) a.sums } else a

/-- The spilled tiles of a pass written back (R246), through a port of the tile's own. -/
def State.spillOut (s : State) (h : Share) (done : List AccTile) : State :=
  let out := done.filter fun a => h.spilled a.rb
  s.onCore fun c => (out.foldl (fun c a => (c.store (s.slotAt h (a.rb - h.rb0 - 30)) (lanesBytes a.sums)).1) c).bump
    (Reg.sizerSpillTiles h.tile) out.length

/-- The sum of two entries of an aliasing unit; the first stands for itself (R238). -/
def addEntries (before new : List Lane) : List Lane := if before.isEmpty then new else List.zipWith fAdd before new

/-- One row block of a pass: the block's sums move on by the pass's chunks; after the piece's last pass the entry is added
to the unit's sum, and after the last entry the tile is full. -/
def passBlock (a : AccTile) (q : PassAt) (rows : List (List Held)) (cols : List (List (Option Held))) (chunks : Nat) : AccTile :=
  let sums := blockSums rows cols chunks a.sums
  if q.last then
    (if q.lastEntry then { a with sums := addEntries a.before sums, before := [], full := true }
     else { a with sums := [], before := addEntries a.before sums })
  else { a with sums := sums }

/-- The share that combines a block: its unit's piece 0 (R244). -/
def State.combiner (s : State) (h : Share) (a : AccTile) : Option Share :=
  s.work.shares.find? fun o => o.desc == h.desc && o.batch == h.batch && o.piece == 0 &&
    decide (o.rb0 ≤ a.rb) && decide (a.rb < o.rb1) && decide (o.cb0 ≤ a.cb) && decide (a.cb < o.cb1)

/-- One partial block of a piece above 0 exported (R248): its sums go over plane A as plain writes to slot piece - 1 of the block in the
combiner's area. -/
def State.exportTile (s : State) (d : Desc) (h : Share) (a : AccTile) : State :=
  match s.combiner h a with
  | none => s
  | some o =>
    let at_ := s.slotAt o (o.slot0 + ((a.rb - o.rb0) * (o.cb1 - o.cb0) + (a.cb - o.cb0)) * (d.pieces - 1) + h.piece - 1)
    let c := (s.core.writeG h.tile 2 (s.core.global at_) (lanesBytes a.sums) .nobody).core
    { s with core := c, work := { s.work with parts := s.work.parts ++
        [{ desc := h.desc, slot := at_, batch := h.batch, piece := h.piece, rb := a.rb, cb := a.cb, sums := a.sums }] } }

/-- The vectors of a pass, row block by row block: streamed from memory, those of MM_WGRAD out of the Cuff (R141). -/
def State.passRows (s : State) (d : Desc) (h : Share) (i : Nat) : State × List (List (List Held)) :=
  let q := h.passAt d i
  if d.opcode = 3 then
    let more := if i + 1 < h.passCount d then h.cuffBlocks d (h.passAt d (i + 1)) else []
    let r := s.turnBlocks d h (h.cuffBlocks d q) more
    (r.1, r.2.map fun b => b.map fun col => col.map fun o => o.getD { fmt := 2, pat := 0, scale := 127 })
  else
    let t := s.tensor d 0
    let bs := (List.range (q.r1 - q.r0)).map fun b => h.rowIdx d q (q.r0 + b)
    let all := bs.flatten.flatten
    let s1 := (s.readOperand d h.tile 0 all).onCore fun c => c.bump Reg.numFbReads (s.core.fallbacks t all).length
    (s1, bs.map fun b => b.map fun row => row.map (s.core.element t))

/-- One pass of a share run (R110, R116, R117, R120): the bank loaded for it takes over, its vectors stream, its blocks' sums move on
and its counts are made, while the next pass's weights are loaded into the other bank; a finished piece above 0 is exported. -/
def State.runPass (s : State) (d : Desc) (h : Share) : State :=
  let q := h.passAt d h.pass
  let s0 := if s.loaded h h.pass then s else s.loadBank d h h.pass
  let s1 := s0.putArray (s0.arrayOf h.tile).swap
  let a := s1.arrayOf h.tile
  let cols := (a.bank a.tag).cols
  let v0 := s1.passRows d h h.pass
  let t2 := s.tensor d h.out
  let v := (if t2.mask then v0.1.needFor 0 2 (t2.posRanges ((List.range 64).flatMap fun c =>
      (List.range (32 * (q.r1 - q.r0))).map fun r => d.at (64 * q.cb + c) (32 * q.r0 + r) h.batch)) else v0.1, v0.2)
  let kept := fun r c => (v.1.core.stored t2 (d.at (64 * q.cb + c) (64 * q.r0 + r) h.batch)).isSome
  let s2 := v.1.countPass d h q v.2.flatten cols kept
  let chunks := (h.passXs d q).length / 64
  let done := (v.2.zip ((List.range (q.r1 - q.r0)).map (q.r0 + ·))).map fun p => passBlock (s.tileAt h p.2 q.cb) q p.1 cols chunks
  let s3 := s2.spillOut h done
  let group := h.orderR && q.cb == h.cb0 && q.first && q.entry == (d.unitEntries h.batch).getD 0 0
  let s4 := s3.onCore fun c => (c.bump (Reg.sizerRowgroups h.tile) (if group then 1 else 0)).fresh.2
  let s5 := s4.loadBank d h (h.pass + 1)
  let rest := h.acc.filter fun a => !(a.cb == q.cb && decide (q.r0 ≤ a.rb) && decide (a.rb < q.r1))
  let h1 : Share := { h with pass := h.pass + 1, started := true, acc := rest ++ done }
  if h.piece = 0 then s5.putShare h h1
  else
    let h2 : Share := { h1 with acc := h1.acc.filter fun a => !a.full }
    let s6 := ((h1.acc.filter (·.full)).foldl (fun s a => s.exportTile d h a) s5).putShare h h2
    s6.shareEnd d h2

/-- The tile's share in the array that has passes left to run. -/
def State.inArray (s : State) (t : Nat) : Option (Desc × Share) :=
  match s.work.shares.find? fun h => h.tile == t && h.started &&
      (s.desc? h.desc).any fun d => decide (h.pass < h.passCount d) && d.phase == .running && s.hasJob d h with
  | some h => (s.desc? h.desc).map fun d => (d, h)
  | none => none

/-- Whether the tile has accumulator tiles for the next pass of a share: it needs new ones only when the pass begins an
output block column (R245). -/
def State.accFree (s : State) (d : Desc) (h : Share) : Bool :=
  let q := h.passAt d h.pass
  let fresh := ((List.range (q.r1 - q.r0)).filter fun i => !(h.acc.any fun a => a.rb == q.r0 + i && a.cb == q.cb)).length
  fresh == 0 || decide (s.accUsed h.tile + min fresh 32 ≤ 32)

/-- Whether a gradient share's job is the Cuff's to take: no job of another descriptor comes before it on the tile (R144). -/
def State.cuffTurn (s : State) (h : Share) : Bool :=
  (s.work.jobs.any fun j => j.isOf h) &&
  match s.work.jobs.find? fun j => j.tile == h.tile && (s.desc? j.desc).any fun d => d.phase == .ready || d.phase == .running with
  | some j => j.desc == h.desc
  | none => false

/-! ## The combine step (R248) -/

/-- The first block on a tile whose own last add is done and whose next partial has arrived. -/
def State.combinable (s : State) (t : Nat) : Option (Desc × Share × AccTile × Partial) :=
  (s.work.shares.filter fun h => h.tile == t && h.piece == 0).findSome? fun h =>
    match s.desc? h.desc with
    | none => none
    | some d => if s.works d then (h.acc.filter fun a => a.full && decide (a.next < d.pieces)).findSome? fun a =>
        (s.work.parts.find? fun p => p.desc == d.id && p.batch == h.batch && p.piece == a.next && p.rb == a.rb && p.cb == a.cb).map
          fun p => (d, h, a, p)
      else none

/-- One arrived partial, read from its slot, added into its block, in ascending piece order (R243, R248). -/
def State.combine (s : State) (t : Nat) : State :=
  match s.combinable t with
  | none => s
  | some (d, h, a, p) =>
    let a1 : AccTile := { a with sums := List.zipWith fAdd a.sums (s.core.areaSums p.slot p.sums), next := a.next + 1 }
    let h1 : Share := { h with acc := h.acc.map fun x => if x = a then a1 else x }
    let s1 := (s.putShare h h1).meetUe d.id 0xFF (s.core.ueLines (s.core.global p.slot) 16384)
    { s1 with core := s1.core.fresh.2.bump (Reg.sizerCombines t) 1,
              work := { s1.work with parts := s1.work.parts.erase p } }

/-- The first accumulator tile on a tile that may drain: full, of piece 0, with every partial added, its generation not retired
(R137). -/
def State.drainable (s : State) (t : Nat) : Option (Desc × Share × AccTile) :=
  (s.work.shares.filter fun h => h.tile == t && h.piece == 0).findSome? fun h =>
    match s.desc? h.desc with
    | none => none
    | some d => if s.works d then (h.acc.find? fun a => a.full && a.next == d.pieces).map fun a => (d, h, a) else none

/-! ## Shares start -/

/-- Whether a share is handed on to its Mitt and has not started. -/
def State.shareWaits (s : State) (h : Share) : Bool :=
  !h.started && (s.desc? h.desc).any fun d => d.phase == .ready || d.phase == .running

/-- The shares whose partials a combiner's full blocks still lack (R248). -/
def State.suppliers (s : State) (w : Share) : List Share :=
  s.work.shares.filter fun x => x.desc == w.desc && x.batch == w.batch && decide (0 < x.piece) && w.acc.any fun a =>
    a.full && decide (a.next ≤ x.piece) && decide (x.rb0 ≤ a.rb) && decide (a.rb < x.rb1) && decide (x.cb0 ≤ a.cb) && decide (a.cb < x.cb1) &&
    !(s.work.parts.any fun p => p.desc == x.desc && p.batch == x.batch && p.piece == x.piece && p.rb == a.rb && p.cb == a.cb)

/-- What must come before the shares `xs`: of each that has not started, the shares before it on its tile, and what the combiners
of that tile lack. -/
def State.sharesBefore (s : State) (xs : List Share) : List Share :=
  xs.flatMap fun x => if x.started then [] else
    ((s.work.shares.takeWhile (· != x)).filter fun o => o.tile == x.tile && s.shareWaits o) ++
    (s.work.shares.filter fun o => o.tile == x.tile && o.started).flatMap s.suppliers

/-- Whether one of the shares `xs`, or what must come before it, is a share of tile `t` that has not started. -/
def State.needsTile (s : State) (t : Nat) : Nat → List Share → Bool
  | 0, xs => xs.any fun x => x.tile == t && !x.started
  | n + 1, xs => (xs.any fun x => x.tile == t && !x.started) ||
      (let ys := (xs ++ s.sharesBefore xs).eraseDups
       decide (xs.length < ys.length) && s.needsTile t n ys)

/-- Whether the tile's Mitt still has a share that keeps later ones from starting (R111): one with a pass left, a block to drain or
one to combine, or a combiner that lacks partials, unless these cannot come before a share of this tile starts (log entry 90). -/
def State.mittHeld (s : State) (t : Nat) : Bool :=
  (s.inArray t).isSome || (s.drainable t).isSome || (s.combinable t).isSome ||
  (s.work.shares.any fun w => w.tile == t && w.started && w.piece == 0 && !w.acc.isEmpty && (s.desc? w.desc).any s.works &&
    !(s.needsTile t s.work.shares.length (s.suppliers w)))

/-- The tile's next share that may start: the first handed on that has not started, once nothing of the shares before it keeps it
(R111), its gradient job being first at the Cuff (R144). -/
def State.nextShare (s : State) (t : Nat) : Option (Desc × Share) :=
  if s.mittHeld t then none
  else
    match s.work.shares.find? fun h => h.tile == t && s.shareWaits h with
    | none => none
    | some h =>
      match s.desc? h.desc with
      | none => none
      | some d => if (d.opcode == 1 || d.opcode == 4 || s.cuffTurn h) && s.accFree d h then some (d, h) else none

/-- The first of the jobs like `j` that has not started is started. -/
def startFirst (j : CuffJob) : List CuffJob → List CuffJob
  | [] => []
  | x :: xs => if x = { j with started := false } then { x with started := true } :: xs else x :: startFirst j xs

/-- The Cuff takes a gradient share's job with both buffers empty (R144). -/
def State.startJob (s : State) (j : CuffJob) : State :=
  ({ s with work := { s.work with jobs := startFirst j s.work.jobs } } : State).putBufs { s.bufsOf j.tile with full0 := false, full1 := false }

/-- The job of a gradient share that starts: the one that the Cuff has taken for it, else it takes it now. -/
def State.shareJob (s : State) (h : Share) : State :=
  let taken := (s.work.jobs.filter fun j => j.started && j.isOf h).length
  let used := (s.work.shares.filter fun o => o.started && (s.work.jobs.any fun j => j.isOf h && j.isOf o)).length
  if used < taken then s
  else match s.work.jobs.find? fun j => !j.started && j.isOf h with
    | some j => s.startJob j
    | none => s

/-- A share's start as one stage: its descriptor runs, a gradient share's job is taken, and its first pass runs. -/
def State.firstPass (s : State) (d : Desc) (h : Share) : State :=
  ((s.setPhase d.id .running).shareJob h).runPass { d with phase := .running } h

/-- A tile's next share started: its first weights are loaded and its first pass runs. -/
def State.startShare (s : State) (t : Nat) : State :=
  match s.nextShare t with
  | none => s
  | some (d, h) => s.stage d fun s => s.firstPass d h

/-- The bank swap: the next pass of the share in the array runs (R116). -/
def State.swapPass (s : State) (t : Nat) : State :=
  match s.inArray t with
  | none => s
  | some (d, h) => if s.accFree d h then s.stage d fun s => s.runPass d h else s

/-! ## The drain (R124 to R127, R149 to R151, R238) -/

/-- FUNC of the drain (R126): its special values, and the fixed method's value, within 2 ulp, elsewhere. -/
def drainFunc (f : Nat) (y : Lane) : Lane :=
  if f = 0 then y
  else
    match valOf y with
    | .nan => nanLane
    | .inf neg =>
      if neg then (if f = 6 then 0xBF80_0000 else 0)
      else if f = 5 ∨ f = 6 then 0x3F80_0000 else 0x7F80_0000
    | .fin neg m _ =>
      if f = 1 then (if neg ∨ m = 0 then 0 else y)
      else if f = 7 ∧ fLt 0x41A0_0000 y = true then y
      else drainFree f y

/-- The fused derivative (R150). -/
def derivFunc (f : Nat) (x : Lane) : Lane :=
  match valOf x with
  | .nan => nanLane
  | .inf neg => if neg then 0 else if f = 5 ∨ f = 6 then 0 else 0x3F80_0000
  | .fin neg m _ =>
    if f = 1 then (if neg ∨ m = 0 then 0 else 0x3F80_0000)
    else if f = 7 ∧ fLt 0x41A0_0000 x = true then 0x3F80_0000
    else derivFree f x

/-- An FP32 value converted to FP32, FP16 or BF16 (R127, R255). -/
def convTo (code : Nat) (z : Lane) : Nat := fencode code (valOf z)

/-- Whether ACC reads the existing output: it is set and BETA is not a zero (R125). -/
def Desc.readsOld (d : Desc) : Bool := d.flag 1 && fAbs d.beta != 0

/-- u after the fused derivative (R149), for an element whose pre-activation is `x`. -/
def Desc.derive (d : Desc) (acc x : Lane) : Lane :=
  if d.opcode = 2 ∧ d.argF 3 0 ≠ 0 then fMul acc (derivFunc (d.argF 3 0) x) else acc

/-- y: the accumulate step (R124, R149, R238). -/
def Desc.accumulate (d : Desc) (u old : Lane) : Lane := if d.readsOld then fFma d.beta old u else u

/-- FUNC applies to MM_FWD alone. -/
def Desc.func (d : Desc) : Nat := if d.opcode = 1 then d.argF 3 0 else 0

/-- The output elements of an accumulator tile: logical index, stored index of the record written, and its place in the sums. A
masked gradient writes kept positions alone (R134). -/
def State.drainCells (s : State) (d : Desc) (h : Share) (a : AccTile) : List (List Nat × List Nat × Nat) :=
  let t2 := s.tensor d h.out
  (List.range 4096).filterMap fun x =>
    let i := d.at (64 * a.cb + x % 64) (64 * a.rb + x / 64) h.batch
    (s.core.stored t2 i).map fun st => (i, st, x)

/-- The error fields of a narrowing event. -/
def Desc.eventInfo (d : Desc) (rec_ : Nat) : ErrInfo :=
  { type := 3, engine := d.engine, context := d.context, tile := d.tile, gen := d.gen, cookie := d.cookie,
    tensor := (d.record rec_).tid, record := rec_, queue := d.queueNo }

/-- Values narrowed block by block in order (R264): the elements and scale bytes to write, and for each element its index, wide value
and what a reader gets of it, in the order of the elements. -/
def State.narrowRun (s : State) (d : Desc) (t : Tensor) (tile kind rec_ : Nat) (cells : List (List Nat × Lane)) :
    State × List OutEl × List (List Nat × Lane × Lane) :=
  let head := (s.pat.recipe kind).2.2
  let keys := (cells.map fun c => t.scaleAddr c.1).eraseDups
  let r := keys.foldl (fun (acc : State × List OutEl × List (List Nat × Lane × Lane)) a =>
    let mine := cells.filter fun c => t.scaleAddr c.1 == a
    let xs := mine.map (·.2)
    let r := ladder t.r.fmt head (xs.map fun x => (Rounding.nearest, x))
    let b := acc.1.core.finishBlock tile 0 d.latch.numCtrl kind t.r.fmt a.toNat (d.eventInfo rec_) r xs (.desc d.id rec_)
    let els := (List.zipWith (fun (c : List Nat × Lane) w => t.el c.1 w) mine b.pats) ++
      [({ bit := 8 * a, bits := 8, val := b.scale } : OutEl)]
    let s1 := ({ acc.1 with core := b.core } : State).updDesc d.id fun e =>
      { e with acks := e.acks + (b.core.heldOps - acc.1.core.heldOps) }
    (s1, acc.2.1 ++ els, acc.2.2 ++ (mine.map (·.1)).zip (xs.zip (b.widen t.r.fmt xs)))) (s, [], [])
  (r.1, r.2.1, cells.filterMap fun c => r.2.2.find? fun p => p.1 == c.1)

/-- The reads of a drain: the pre-activation (R149), the positions of a masked output (R134) with its malformed groups (R130), and the
existing output (R124). -/
def State.drainReads (s : State) (d : Desc) (h : Share) (cells : List (List Nat × List Nat × Nat)) (der : Bool) : State :=
  let t2 := s.tensor d h.out
  let t3 := s.tensor d 3
  let rs3 := t3.ranges (cells.map (·.1))
  let s1 := if der then (s.readFor d.id h.tile 0 3 rs3).onCore fun c => c.bump (Reg.cuffBytesIn h.tile) (rs3.map (·.2)).sum else s
  let s2 := if t2.mask then
      let bad := (cells.map fun c => c.1.set 1 (c.1.getD 1 0 / 4 * 4)).eraseDups.filter fun i => s.core.groupBad t2 i
      (s1.readFor d.id h.tile 0 2 (t2.posRanges (cells.map (·.2.1)))).onCore fun c => c.bump (Reg.mittMaskBad h.tile) bad.length
    else s1
  if d.readsOld then
    (s2.readFor d.id h.tile 0 h.out (t2.elRanges (cells.map (·.2.1)))).onCore fun c =>
      c.bump Reg.numFbReads (s.core.fallbacks t2 (cells.map (·.2.1))).length
  else s2

/-- The drain of one finished accumulator tile (R124, R149, R238): record 3 first, then the output record converted or narrowed,
with the counts of R127 and R138 and the sampled check of R272. DESIGN CHOICE (log entry 101): MITT_NONFINITE counts what a reader
gets of a narrowed block, so every element of a lost block and none that a fallback keeps finite. -/
def State.drainTile (s : State) (d : Desc) (h : Share) (a : AccTile) : State :=
  let t2 := s.tensor d h.out
  let t3 := s.tensor d 3
  let cells := s.drainCells d h a
  let sums := if h.spilled a.rb then s.core.areaSums (s.slotAt h (a.rb - h.rb0 - 30)) a.sums else a.sums
  let der := d.opcode == 2 && d.argF 3 0 != 0
  let s1 := s.drainReads d h cells der
  let ys := cells.map fun c =>
    let x := if der then s.core.lane t3 c.1 else 0
    let old := if d.readsOld then s.core.lane t2 c.2.1 else 0
    (c, d.accumulate (d.derive (sums.getD c.2.2 0) x) old)
  let s2 := s1.onCore fun c => c.fresh.2
  let s3 := if d.opcode = 1 ∧ d.nrec = 4 then
      s2.writeEls d.id h.tile 0 3 (ys.map fun p => t3.el p.1.1 (convTo t3.r.fmt p.2)) else s2
  let zs := ys.map fun p => (p.1, drainFunc d.func p.2)
  let nonfinite := fun (s : State) (n : Nat) => s.onCore fun c =>
    { (c.bump (Reg.mittNonfinite h.tile) (if h.out = 2 then n else 0)) with nfTotal := c.nfTotal + (if h.out = 2 then n else 0) }
  let s4 :=
    if isNarrow t2.r.fmt then
      let r := s3.narrowRun d t2 h.tile 1 2 (zs.map fun p => (p.1.2.1, p.2))
      let x := d.dims
      let u := a.cb + x.cb * (a.rb + x.rb * h.batch)
      let first := (t2.bitAddr (d.at (64 * a.cb) (64 * a.rb) h.batch) / 8).toNat
      let pairs := r.2.2.map (·.2)
      nonfinite ((r.1.writeEls d.id h.tile 0 2 r.2.1).onCore fun c =>
        c.checkUnit d.latch.numCtrl d.latch.numThresh 1 t2.r.tid d.step u first (d.eventInfo 2) pairs)
        (pairs.filter fun p => !(isFinL p.2)).length
    else
      nonfinite (s3.writeEls d.id h.tile 0 h.out (zs.map fun p => t2.el p.1.2.1 (convTo t2.r.fmt p.2)))
        (zs.filter fun p => !(isFinL (toLane (fdecode t2.r.fmt (convTo t2.r.fmt p.2))))).length
  if der then s4.onCore fun c => c.bumpUnits (Reg.cuffDeriv h.tile) 4096 4096 else s4

/-- A drain as one stage: the tile drains, its accumulator is freed, and the share ends with its last. -/
def State.drainEnd (s : State) (d : Desc) (h : Share) (a : AccTile) : State :=
  ((s.drainTile d h a).putShare h { h with acc := h.acc.filter (· ≠ a) }).shareEnd d { h with acc := h.acc.filter (· ≠ a) }

/-- One tile drained, and its accumulator freed. -/
def State.drain (s : State) (t : Nat) : State :=
  match s.drainable t with
  | none => s
  | some (d, h, a) => s.stage d fun s => s.drainEnd d h a

/-! ## Rows -/

/-- MITT_SHARE: the tile's Mitt starts its next share, and its first pass runs; each later pass follows its bank swap. -/
def execMittShare (t : Nat) (s : State) : Host.Outcome State Fault Refusal := s.clocked <| .next (s.startShare t).settle

/-- MITT_PASS_SWAP: the swap to the next pass, which runs. -/
def execMittPassSwap (t : Nat) (s : State) : Host.Outcome State Fault Refusal := s.clocked <| .next (s.swapPass t).settle

/-- MITT_DRAIN: one finished accumulator tile drains. -/
def execMittDrain (t : Nat) (s : State) : Host.Outcome State Fault Refusal := s.clocked <| .next (s.drain t).settle

/-- COMBINE_ADD: the combiner adds one arrived partial. -/
def execCombineAdd (t : Nat) (s : State) : Host.Outcome State Fault Refusal := s.clocked <| .next (s.combine t).settle

/-- The next multicast fill of a descriptor (R247), if it is its `blk`-th: one at a time, in plan order. -/
def State.mcastFill (s : State) (id blk : Nat) : State :=
  match s.desc? id with
  | none => s
  | some d =>
    let mine := s.work.fills.filter fun f => f.desc == id
    match mine[blk]? with
    | none => s
    | some f =>
      if (d.phase = .ready ∨ d.phase = .running) ∧ f.sent = false ∧ (mine.take blk).all (·.sent) = true then
        s.stage d fun s => s.sendFill d f
      else s

/-- MULTICAST_FILL. -/
def execMulticastFill (id blk : Nat) (s : State) : Host.Outcome State Fault Refusal := s.clocked <| .next (s.mcastFill id blk).settle

/-- Every remaining step of a product, in an order that the spec allows: shares start, passes run, partials are combined and
tiles drain, tile by tile, until no share of the descriptor is left or nothing moves. -/
def State.runProduct (s : State) (id : Nat) : Nat → State
  | 0 => s
  | n + 1 =>
    let ts := s.planTiles id
    if ts.isEmpty then s
    else (ts.foldl (fun s t => ((s.drain t).combine t |>.swapPass t).startShare t) s).runProduct id n

/-- The work left in a product: passes, partial adds and drains of every share on its tiles, an upper bound of the rounds
that `runProduct` takes. -/
def State.productFuel (s : State) (id : Nat) : Nat :=
  let ts := s.planTiles id
  let hs := s.work.shares.filter fun h => ts.contains h.tile
  (hs.map fun h => match s.desc? h.desc with
    | some d => h.passCount d + (h.rb1 - h.rb0) * (h.cb1 - h.cb0) * (d.pieces + 1) + 2
    | none => 0).sum + 2

/-- A Mitt product with the given opcode run to its end: reserved if it still waits for area, then every share. -/
def State.product (s : State) (id op : Nat) : State :=
  match s.desc? id with
  | none => s
  | some d =>
    if d.opcode ≠ op then s
    else
      let s1 := if d.phase = .reserving then s.reserve id else s
      match s1.desc? id with
      | some d1 => if d1.phase = .ready ∨ d1.phase = .running then s1.runProduct id (s1.productFuel id) else s1
      | none => s1

/-! ## Planning (R231) -/

/-- A Mitt descriptor planned (R231, R242 to R245): its shares are formed, and they are issued at once when the plan needs no
area and nothing of its tile waits; else it waits at the Sizer. -/
def State.plan (s : State) (id : Nat) : State :=
  match s.desc? id with
  | none => s
  | some d =>
    let m := s.spreadSet d.tile
    let hs := s.planShares d m.1
    let jobs := if d.opcode = 2 ∨ d.opcode = 3 then hs.map fun h =>
        ({ desc := id, tile := h.tile, batch := h.batch, rb0 := h.rb0, rb1 := h.rb1, cb0 := h.cb0, cb1 := h.cb1,
           started := false, done := 0 } : CuffJob) else []
    let s1 : State := { s with core := s.core.notePlan d.tile d.pieces m.2 m.1.length hs,
                               work := { s.work with shares := s.work.shares ++ hs, jobs := s.work.jobs ++ jobs,
                                                     fills := s.work.fills ++ s.planFills d hs } }
    let s2 := (s1.setPhase id .reserving)
    if (hs.map (·.tile)).eraseDups.all fun t => areaNeed d.pieces hs t == 0 then s2.reserve id
    else s2.showWaiting d.tile

/-- MM_FWD run to its end (R120, R124). -/
def execMmFwd (id : Nat) (s : State) : Host.Outcome State Fault Refusal := s.clocked <| .next (s.product id 1).settle

/-- MM_DGRAD run to its end (R149). -/
def execMmDgrad (id : Nat) (s : State) : Host.Outcome State Fault Refusal := s.clocked <| .next (s.product id 2).settle

/-- MM_WGRAD run to its end (R148). -/
def execMmWgrad (id : Nat) (s : State) : Host.Outcome State Fault Refusal := s.clocked <| .next (s.product id 3).settle

end Sys2Proof.Machine
end

