-- ==== Sys2Proof/Machine/Cuff.lean ====
section
/-! DEFINITION. The Cuff as an engine (spec/05_cuff_backward_path.md, R157 to R169): copies, permutes, the in-place
transpose, skewed copies, and the packing of block inputs. -/

namespace Sys2Proof.Machine

/-! ## Planning a Cuff descriptor (R244, R262) -/

/-- Whether a COPY runs under ALIAS_ACC (R237). -/
def Desc.copyAlias (d : Desc) : Bool := d.opcode == 0x20 && d.flag 2

/-- Whether a Cuff descriptor's shares hold whole recipe blocks (R262): a narrowing copy's. -/
def Desc.wholeBlocks (d : Desc) : Bool := d.opcode == 0x20 && d.argF 1 0 == 2

/-- The column and row units of a destination: its blocks, its runs in L-S64, or 64-element runs in L-ROW and L-P4; `whole` makes
them whole recipe blocks (R244, R262). -/
def Tensor.cuffGrid (t : Tensor) (whole : Bool) : Nat × Nat :=
  match t.r.layout with
  | 1 => (ceilDiv (t.e 0) 64, t.kUnits)
  | 2 => (t.kUnits, ceilDiv (t.e 1) 64)
  | 3 => (t.kUnits, 1)
  | _ => if whole && isNarrow t.r.fmt then (if t.block = 0 then (1, t.e 1) else (ceilDiv (t.e 0) (max 64 t.block), t.e 1))
         else (ceilDiv (t.e 0) 64, t.e 1)

/-- The grid place of a stored index of a destination: column and row unit. -/
def Tensor.cuffCell (t : Tensor) (whole : Bool) (i : List Nat) : Nat × Nat :=
  match t.r.layout with
  | 1 => (i.getD 0 0 / 64, i.getD 1 0 / t.unitK)
  | 2 => (i.getD 0 0 / t.unitK, i.getD 1 0 / 64)
  | 3 => (i.getD 0 0 / t.unitK, 0)
  | _ => if whole && isNarrow t.r.fmt then ((if t.block = 0 then 0 else i.getD 0 0 / max 64 t.block), i.getD 1 0)
         else (i.getD 0 0 / 64, i.getD 1 0)

/-- The batch entry of a destination index, flattened over dimensions 2 to 4. -/
def Tensor.entryOf (t : Tensor) (i : List Nat) : Nat := i.getD 2 0 + t.e 2 * (i.getD 3 0 + t.e 3 * i.getD 4 0)

/-- The dimensions along which a destination aliases: zero stride with more than one index (R237). -/
def Tensor.aliasDims (t : Tensor) : List Nat := (List.range 5).filter fun d => t.r.stride d == 0 && decide (1 < t.e d)

/-- The dimensions whose indices one share keeps together (R238, R244): those that alias under ALIAS_ACC. -/
def State.togetherDims (s : State) (d : Desc) : List Nat := if d.copyAlias then (s.dest d).aliasDims else []

/-- The index of a batch entry over dimensions 2 to 4. -/
def Tensor.entryIdx (t : Tensor) (b : Nat) : List Nat := [0, 0, b % max (t.e 2) 1, b / max (t.e 2) 1 % max (t.e 3) 1, b / max (t.e 2 * t.e 3) 1]

/-- A stored index with the coordinates that a share keeps together set to zero. -/
def zeroDims (al : List Nat) (i : List Nat) : List Nat := al.foldl (fun i k => i.set k 0) i

/-- The jobs of a Cuff descriptor over its spread set (R244), as shares of a product are placed, with the destination's blocks or
64-element runs in place of output blocks; packing and unpacking are one job on the admitting tile. Under ALIAS_ACC the entries of an
aliasing dimension form one unit, and an aliasing dimension 0 or 1 is not cut, so that one share has every index that maps to one
element (R238). -/
def State.planJobs (s : State) (d : Desc) (ms : List Nat) : List CuffJob :=
  let t := s.dest d
  if d.opcode = 0x23 ∨ d.opcode = 0x24 then
    [{ desc := d.id, tile := d.tile, batch := 0, rb0 := 0, rb1 := 0, cb0 := 0, cb1 := 0, started := false, done := 0 }]
  else
    let al := s.togetherDims d
    let units := (List.range (t.e 2 * t.e 3 * t.e 4)).filter fun b => zeroDims al (t.entryIdx b) == t.entryIdx b
    let g := ms.length
    let q := ceilDiv g units.length
    let grid := t.cuffGrid d.wholeBlocks
    let c := if al.contains 0 then 1 else min grid.1 q
    let r := if al.contains 1 then 1 else min grid.2 (ceilDiv q (max c 1))
    let cells := units.flatMap fun b => (strips grid.1 c).flatMap fun cs => (strips grid.2 r).map fun rs => (b, cs, rs)
    (cells.zip (List.range cells.length)).map fun z =>
      { desc := d.id, tile := ms.getD (z.2 % g) 0, batch := z.1.1, rb0 := z.1.2.2.1, rb1 := z.1.2.2.2, cb0 := z.1.2.1.1,
        cb1 := z.1.2.1.2, started := false, done := 0 }

/-! ## Copies (R157, R238) -/

/-- Whether a stored index of the destination lies in a job's part. -/
def Tensor.inPart (t : Tensor) (whole : Bool) (al : List Nat) (j : CuffJob) (i : List Nat) : Bool :=
  let c := t.cuffCell whole i
  t.entryOf (zeroDims al i) == j.batch && decide (j.cb0 ≤ c.1) && decide (c.1 < j.cb1) && decide (j.rb0 ≤ c.2) && decide (c.2 < j.rb1)

/-- The stored indices of a job's part of the destination, in flattened order. -/
def Tensor.part (t : Tensor) (whole : Bool) (al : List Nat) (j : CuffJob) : List (List Nat) := t.all.filter (t.inPart whole al j)

/-- Source dimension that becomes destination dimension `i`; ARG 0 is the identity (R158). -/
def Desc.perm (d : Desc) (i : Nat) : Nat := if d.arg = 0 then i else bitsOf d.arg (3 * i + 2) (3 * i)

/-- The source index of a destination index. -/
def Desc.unpermute (d : Desc) (i : List Nat) : List Nat :=
  (List.range 5).map fun k => ((List.range 5).find? fun j => d.perm j == k).elim 0 fun j => i.getD j 0

/-- The source indices of the elements of a job. -/
def Desc.sources (d : Desc) (is : List (List Nat)) : List (List Nat) := if d.opcode = 0x21 then is.map d.unpermute else is

/-- The destination elements of a COPY, PERMUTE or SKEW_COPY job. -/
def State.jobPart (s : State) (d : Desc) (j : CuffJob) : List (List Nat) := (s.dest d).part d.wholeBlocks (s.togetherDims d) j

/-- The multicast fills of a Cuff descriptor's plan: the source blocks that two or more of its jobs need (R247). -/
def State.jobFills (s : State) (d : Desc) (js : List CuffJob) : List Fill :=
  let t0 := s.tensor d 0
  if js.length ≤ 1 then [] else s.fillsOf d (js.map fun j => ((d.sources (s.jobPart d j)).map fun i => (0, t0.blockStart i)).eraseDups)

/-- A Cuff descriptor planned (R231): its jobs are formed and handed on, behind what waits at the Sizer. -/
def State.planCuff (s : State) (id : Nat) : State :=
  match s.desc? id with
  | none => s
  | some d =>
    let m := s.spreadSet d.tile
    let js := s.planJobs d m.1
    let most := js.foldl (fun (x : Nat) j => max x (j.rb1 - j.rb0)) 0
    let c1 := (s.core.bump (Reg.sizerPlans d.tile) 1).setBit (Reg.sizerStatus d.tile) 2 m.2
    let c2 := (c1.setFld (Reg.sizerStatus d.tile) 31 24 m.1.length).wr (Reg.sizerLast d.tile)
      (BitVec.ofNat 64 (1 + 2 ^ 8 * min js.length 0xFFFF + 2 ^ 24 * min most 255))
    let s1 : State := { s with core := c2, work := { s.work with jobs := s.work.jobs ++ js, fills := s.work.fills ++ s.jobFills d js } }
    ((s1.setPhase id .reserving).reserve id).showWaiting d.tile

/-- The tile pairs (a, b), a ≤ b, of an in-place transpose that a job exchanges, ascending (R161): those whose tile (a, b) begins in
its part. -/
def Desc.tilePairs (d : Desc) (t : Tensor) (j : CuffJob) : List (Nat × Nat) :=
  (List.range (d.m / 64)).flatMap fun a => ((List.range (d.m / 64)).filter fun b =>
    decide (a ≤ b) && t.inPart false [] j ((t.entryIdx j.batch).set 0 (64 * b) |>.set 1 (64 * a))).map fun b => (a, b)

/-- The destination indices of a tile pair. -/
def Tensor.pairAll (t : Tensor) (j : CuffJob) (p : Nat × Nat) : List (List Nat) :=
  (([(p.1, p.2), (p.2, p.1)] : List (Nat × Nat)).eraseDups).flatMap fun q => (List.range 64).flatMap fun y => (List.range 64).map fun x =>
    ((t.entryIdx j.batch).set 0 (64 * q.2 + x)).set 1 (64 * q.1 + y)

/-- The pattern that CONV 1 makes of a value: one rounding to the destination (R157). -/
def widenTo (code : Nat) (v : FVal) : Nat := fencode code v

/-- The scale bytes that CONV 0 copies: a block's own scale byte, with the part that holds the block's first element, free where source
and destination run their recipe blocks along different dimensions. -/
def State.copyScales (s : State) (t0 t1 : Tensor) (is : List (List Nat)) : List OutEl :=
  if isNarrow t1.r.fmt then
    (((is.filter fun i => i.getD t1.kdim 0 % (if t1.block = 0 then max 1 (t1.e t1.kdim) else t1.block) == 0).map fun i => (t1.scaleAddr i, i)).foldl
      (fun (acc : List (Int × List Nat)) p => if acc.any fun q => q.1 == p.1 then acc else p :: acc) []).reverse.map fun p =>
        { bit := 8 * p.1, bits := 8,
          val := if t0.kdim = t1.kdim then s.core.scaleOf t0 p.2 else (Config.freeByte s.core.freeCtr p.1.toNat).toNat }
  else []

/-- The place of a stored index in the flattened order. -/
def Tensor.place_ (t : Tensor) (i : List Nat) : Nat :=
  i.getD 0 0 + t.e 0 * (i.getD 1 0 + t.e 1 * (i.getD 2 0 + t.e 2 * (i.getD 3 0 + t.e 3 * i.getD 4 0)))

/-- A copy's job: the elements it writes. What CONV 2 narrows is kept, wide and as a reader gets it, for the sampled check (R273). -/
def State.copyEls (s : State) (d : Desc) (is : List (List Nat)) (tile : Nat) : State × List OutEl :=
  let t0 := s.tensor d 0
  let t1 := s.dest d
  match d.argF 1 0 with
  | 0 => (s, is.map (fun i => t1.el i (s.core.pattern t0 i)) ++ s.copyScales t0 t1 is)
  | 1 => (s, is.map fun i => t1.el i (widenTo t1.r.fmt (s.core.value t0 i)))
  | _ =>
    let wides := is.map fun i => (i, s.core.lane t0 i)
    let keep := fun (s : State) (xs : List (List Nat × Lane × Lane)) => ({ s with work := { s.work with
      narrows := s.work.narrows ++ xs.map fun x => { desc := d.id, place := t1.place_ x.1, wide := x.2.1, read := x.2.2 } } } : State)
    if isNarrow t1.r.fmt then
      let r := s.narrowRun d t1 tile (d.argF 3 2) 1 wides
      (keep r.1 r.2.2, r.2.1)
    else
      let els := wides.map fun p => (p.1, p.2, convTo t1.r.fmt p.2)
      (keep s (els.map fun p => (p.1, p.2.1, toLane (fdecode t1.r.fmt p.2.2))), els.map fun p => t1.el p.1 p.2.2)

/-- The elements of a copy under ALIAS_ACC (R238): every value that reaches an element is summed in ascending flattened
order, then the existing element is added under ACC, and the sum is rounded once to the destination. -/
def State.aliasEls (s : State) (d : Desc) (is : List (List Nat)) : List OutEl :=
  let t0 := s.tensor d 0
  let t1 := s.dest d
  let al := t1.aliasDims
  (is.filter fun i => zeroDims al i == i).map fun i =>
    let vs := (is.filter fun j => zeroDims al j == i).map fun j => s.core.lane t0 j
    let sum := (vs.drop 1).foldl fAdd (vs.getD 0 0)
    t1.el i (convTo t1.r.fmt (d.accumulate sum (s.core.lane t1 i)))

/-! ## Permutes and skewed copies (R158 to R161) -/

/-- The elements of a skewed copy's job: every word of its runs, zero where no row stands, and the scale bytes (R152,
R159). -/
def State.skewEls (s : State) (d : Desc) (j : CuffJob) : List OutEl :=
  let t0 := s.tensor d 0
  let t1 := s.dest d
  let b := fmtBits t1.r.fmt
  let per := if t1.wide then 2 * slotV t1.r.fmt else slotV t1.r.fmt
  let e0 := t1.e 0
  let e1 := t1.e 1
  let o := t1.originBit 2 [0, 0, j.batch % max (t1.e 2) 1, j.batch / max (t1.e 2) 1 % max (t1.e 3) 1, 0]
  let ix := fun k m => [k, m, j.batch % max (t1.e 2) 1, j.batch / max (t1.e 2) 1 % max (t1.e 3) 1, 0]
  let words := ((List.range (j.cb1 - j.cb0)).map (j.cb0 + ·)).flatMap fun u => (List.range (e1 + 64)).flatMap fun w =>
    (List.range 64).flatMap fun g => (List.range per).map fun v =>
      let k := u * t1.unitK + 64 * v + g
      let bit : Nat := 8 * u * t1.unitBytes + w * (if t1.wide then 2048 else 1024) + g * (if t1.wide then 32 else 16) + v * b
      ({ bit := o + (bit : Int), bits := b,
         val := if g ≤ w ∧ w - g < e1 ∧ k < e0 then s.core.pattern t0 (ix k (w - g)) else 0 } : OutEl)
  let scales := if isNarrow t1.r.fmt then
      ((List.range e1).flatMap fun m => ((List.range e0).filter fun k =>
        k % t1.block == 0 && decide (j.cb0 ≤ k / t1.unitK) && decide (k / t1.unitK < j.cb1)).map fun k =>
          t1.scaleEl (ix k m) (s.core.scaleOf t0 (ix k m)))
    else []
  words ++ scales

/-! ## Packing (R165 to R169) -/

/-- Bytes of a packed word: 2 for BF16 and FP16, 1 otherwise. -/
def wordBytes (code : Nat) : Nat := if fmtBits code = 16 then 2 else 1

/-- The worst-case length of a packed stream of `m` words of `w` bytes (R165). -/
def packWorst (m w : Nat) : Nat := roundUp (64 + 64 * w * ceilDiv m 64 + ceilDiv m 64) 64

/-- z of a difference of two words of `bits` bits (R167). -/
def zigzag (bits a b : Nat) : Nat :=
  let d := signedOf bits ((b + 2 ^ bits - a % 2 ^ bits) % 2 ^ bits)
  if 0 ≤ d then (2 * d).toNat else (-2 * d - 1).toNat

/-- The differences of a block, as z1 to z63. -/
def deltas (bits : Nat) : List Nat → List Nat
  | a :: b :: r => zigzag bits a b :: deltas bits (b :: r)
  | _ => []

/-- The least width that holds a number, at least 1. -/
def widthOf (n : Nat) : Nat := if n = 0 then 1 else Nat.log2 n + 1

/-- Numbers of `b` bits packed from bit 0 up, as one number. -/
def packBits (b : Nat) (zs : List Nat) : Nat := zs.foldr (fun z acc => z % 2 ^ b + 2 ^ b * acc) 0

/-- The code of one block that is not all zero: the shortest of ZERO_MASK, DELTA and RAW (R168). -/
def blockCode (w : Nat) (ws : List Nat) : List Byte :=
  let nz := ws.filter (· != 0)
  let zs := deltas (8 * w) ws
  let b := widthOf (zs.foldl max 0)
  let lm := 9 + nz.length * w
  let ld := 1 + w + ceilDiv (63 * b) 8
  let lr := 1 + 64 * w
  if lm ≤ ld ∧ lm ≤ lr then
    leBytes 1 0x40 ++ leBytes 8 (packBits 1 (ws.map fun x => if x = 0 then 0 else 1)) ++ nz.flatMap (leBytes w)
  else if ld ≤ lr then
    leBytes 1 (0x80 + (b - 1)) ++ leBytes w (ws.getD 0 0) ++ leBytes (ceilDiv (63 * b) 8) (packBits b zs)
  else leBytes 1 0xC0 ++ ws.flatMap (leBytes w)

/-- All-zero blocks at the front of a list. -/
def zeroRun : List (List Nat) → Nat
  | [] => 0
  | b :: bs => if b.all (· == 0) then 1 + zeroRun bs else 0

/-- The codes of blocks in order (R168). -/
def packBlocks (w : Nat) : Nat → List (List Nat) → List Byte
  | 0, _ => []
  | n + 1, bs =>
    match bs with
    | [] => []
    | b :: r =>
      let z := min (zeroRun bs) 64
      if 0 < z then leBytes 1 (z - 1) ++ packBlocks w n (bs.drop z) else blockCode w b ++ packBlocks w n r

/-- A packed stream: header, codes, zeros up to PACKED_LEN (R166). -/
def packStream (w : Nat) (ws : List Nat) : List Byte :=
  let nb := ceilDiv ws.length 64
  let blocks := (List.range nb).map fun b => (List.range 64).map fun i => ws.getD (64 * b + i) 0
  let codes := packBlocks w nb blocks
  let len := roundUp (64 + codes.length) 64
  leBytes 4 0x4B43_4150 ++ leBytes 1 w ++ leBytes 3 0 ++ leBytes 8 ws.length ++ leBytes 8 len ++
  leBytes 4 (crc32 (ws.flatMap (leBytes w))) ++ leBytes 4 nb ++ leBytes 32 0 ++ codes ++
  List.replicate (len - 64 - codes.length) 0

/-- The words that z values restore from word 0. -/
def undelta (bits : Nat) (w0 : Nat) : List Nat → List Nat
  | [] => [w0]
  | z :: zs =>
    let w1 := if z % 2 = 0 then (w0 + z / 2) % 2 ^ bits else (w0 + 2 ^ bits - (z + 1) / 2 % 2 ^ bits) % 2 ^ bits
    w0 :: undelta bits w1 zs

/-- The words of the non-zero positions of a mask, taken in order from payload words. -/
def unmask (mask : Nat) (ws : List Nat) : Nat → List Nat
  | 0 => []
  | n + 1 =>
    if mask % 2 = 1 then ws.getD 0 0 :: unmask (mask / 2) (ws.drop 1) n else 0 :: unmask (mask / 2) ws n

/-- Blocks restored from codes: `left` blocks to come, `m` words of the record, `i` the index of the next block; none for
a failed check (R169). -/
def unpackBlocks (w m : Nat) : Nat → Nat → Nat → List Byte → Option (List Nat)
  | 0, left, _, _ => if left = 0 then some [] else none
  | fuel + 1, left, i, bs =>
    if left = 0 then some []
    else
      let h := leField bs 0 1
      let par := h % 64
      let rest := bs.drop 1
      let go := fun (used : Nat) (ws : List Nat) (blocks : Nat) =>
        if rest.length < used then none
        else (unpackBlocks w m fuel (left - blocks) (i + blocks) (rest.drop used)).map (ws ++ ·)
      if bs.isEmpty then none
      else match h / 64 with
      | 0 => if left < par + 1 then none else go 0 (List.replicate (64 * (par + 1)) 0) (par + 1)
      | 1 =>
        let mask := leField rest 0 8
        let nz := ((List.range 64).filter fun k => bitOf mask k).length
        if (List.range 64).any (fun k => bitOf mask k && decide (m ≤ 64 * i + k)) then none
        else go (8 + nz * w) (unmask mask ((List.range nz).map fun k => leField rest (8 + k * w) w) 64) 1
      | 2 =>
        let b := par + 1
        if 8 * w < b then none
        else
          let zs := leField rest w (ceilDiv (63 * b) 8)
          go (w + ceilDiv (63 * b) 8) (undelta (8 * w) (leField rest 0 w) ((List.range 63).map fun k => zs / 2 ^ (k * b) % 2 ^ b)) 1
      | _ => go (64 * w) ((List.range 64).map fun k => leField rest (k * w) w) 1

/-- The words of a stream of capacity `n` for a record of `m` words of `w` bytes, or none for a failed check (R169). The codes make
the header's BLOCKS blocks; a stream whose blocks do not reach word `m` fails too (log entry 79). -/
def unpackStream (w m n : Nat) (bs : List Byte) : Option (List Nat) :=
  let len := leField bs 16 8
  let blocks := leField bs 28 4
  if leField bs 0 4 ≠ 0x4B43_4150 ∨ leField bs 4 1 ≠ w ∨ leField bs 8 8 ≠ m ∨ n < len ∨ blocks < ceilDiv m 64 then none
  else
    match unpackBlocks w m len blocks 0 ((bs.take len).drop 64) with
    | none => none
    | some ws => if crc32 ((ws.take m).flatMap (leBytes w)) = leField bs 24 4 then some (ws.take m) else none

/-! ## Jobs -/

/-- The bytes of elements to write; two of 4 bits are one. -/
def elBytes (els : List OutEl) : Nat := ((els.map (·.bits)).sum + 7) / 8

/-- The counts of a copying job (R172): bytes in and out, buffer fills, misaligned units. -/
def State.countCopy (s : State) (t bytesIn bytesOut n bits : Nat) (turned : Bool) (half : Nat) : State :=
  let fills := ceilDiv (n * max 1 (bits / 16)) 4096
  s.onCore fun c => ((((c.bump (Reg.cuffBytesIn t) bytesIn).bump (Reg.cuffBytesOut t) bytesOut).bump (Reg.cuffFills t) fills).bump
    (Reg.cuffTransposed t) (if turned then fills else 0)).bump (Reg.cuffHalfRate t) half

/-- The units of a tensor that elements touch and that are misaligned (R156). DESIGN CHOICE (log entry 103): a copy counts each of them
once in CUFF_HALF_RATE. -/
def Tensor.badUnits (t : Tensor) (is : List (List Nat)) : Nat :=
  (((is.map fun i => (if t.r.tiled then t.originBit 2 i + ((8 * ((t.unitPlace i).1 * t.unitBytes) : Nat) : Int)
    else t.originBit 1 i) / 8).eraseDups).filter fun a => a % 512 != 0).length

/-- Elements taken through a tile's buffers, buffer by buffer, each filled and emptied in its turn (R140): the slots keep what they
held last. -/
def State.throughBufs (s : State) (t per : Nat) (els : List (Option Held)) : State :=
  (List.range (ceilDiv els.length per)).foldl (fun s k =>
    s.putBufs (((s.bufsOf t).fill ((els.drop (per * k)).take per)).empty).2) s

/-- The destination elements `is` of a COPY, PERMUTE or SKEW_COPY job: the source is read, the destination written. -/
def State.copyPart (s : State) (d : Desc) (j : CuffJob) (is : List (List Nat)) : State :=
  let t0 := s.tensor d 0
  let t1 := s.dest d
  let src := d.sources is
  let rs := t0.ranges src
  let wide := d.opcode == 0x20 && d.argF 1 0 == 1
  let s1 := (s.readOperand d j.tile 0 src).onCore fun c => c.bump Reg.numFbReads (if wide then (s.core.fallbacks t0 src).length else 0)
  let s1' := if d.copyAlias && d.readsOld then s1.readFor d.id j.tile 0 1 (t1.elRanges (is.map (zeroDims t1.aliasDims)).eraseDups) else s1
  let raw := fun i => ({ fmt := t0.r.fmt, pat := s.core.pattern t0 i, scale := s.core.scaleOf t0 i } : Held)
  let s2 := s1'.throughBufs j.tile (4096 / max 1 (fmtBits t0.r.fmt / 16)) (src.map fun i => some (if wide then s.core.element t0 i else raw i))
  let r : State × List OutEl :=
    if d.copyAlias then (s2, s2.aliasEls d is)
    else if d.opcode = 0x20 then s2.copyEls d is j.tile
    else if d.opcode = 0x21 then (s2, is.map fun i => t1.el i (s.core.pattern t0 (d.unpermute i)))
    else (s2, s2.skewEls d j)
  let s3 := (r.1.onCore fun c => c.fresh.2).writeEls d.id j.tile 0 1 r.2
  let turned := (d.opcode == 0x20 && t0.kdim != t1.kdim) || (d.opcode == 0x21 && d.perm 0 != 0)
  let s4 := s3.countCopy j.tile ((rs.map (·.2)).sum) (elBytes r.2) is.length (fmtBits t0.r.fmt) turned (t0.badUnits src + t1.badUnits is)
  if wide && isNarrow t0.r.fmt && t1.r.fmt == 2 then s4.onCore fun c => c.bumpUnits (Reg.cuffWidened j.tile) is.length 4096 else s4

/-- How many steps a job takes: an in-place transpose exchanges one tile pair at a time (R161), any other job is one step. -/
def State.jobSteps (s : State) (d : Desc) (j : CuffJob) : Nat := if d.inPlace then (d.tilePairs (s.dest d) j).length else 1

/-- The next step of a COPY, PERMUTE or SKEW_COPY job. -/
def State.copyJob (s : State) (d : Desc) (j : CuffJob) : State :=
  let t1 := s.dest d
  if d.inPlace then
    match (d.tilePairs t1 j)[j.done]? with
    | none => s
    | some p => (s.copyPart d j (t1.pairAll j p)).onCore fun c => c.bump (Reg.cuffInplaceUnits j.tile) 1
  else s.copyPart d j (s.jobPart d j)

/-- Records of one run each that do not start on a 512-byte boundary (R156). -/
def halfRuns (bases : List Nat) : Nat := (bases.filter fun b => b % 512 != 0).length

/-- A PACK_INPUT run (R168): the stream is written whole. -/
def State.packJob (s : State) (d : Desc) (t : Nat) : State :=
  let r0 := d.record 0
  let w := wordBytes r0.fmt
  let n := d.m * w
  let s1 := s.readFor d.id t 0 0 [(r0.base, n)]
  let bs := s.core.gBytes r0.base n
  let st := packStream w ((List.range d.m).map fun i => leField bs (w * i) w)
  let s2 := (s1.onCore fun c => c.fresh.2).writeFor d.id t 0 1 [((d.record 1).base, st)]
  s2.onCore fun c => ((((c.bump (Reg.cuffPackWords t) n).bump (Reg.cuffPackStream t) st.length).bump (Reg.cuffBytesIn t) n).bump
    (Reg.cuffBytesOut t) st.length).bump (Reg.cuffHalfRate t) (halfRuns [r0.base, (d.record 1).base])

/-- An UNPACK_INPUT run (R169): the words are written, or a failed check strikes MEM_UE with the stream's BASE. -/
def State.unpackJob (s : State) (d : Desc) (t : Nat) : State :=
  let r0 := d.record 0
  let w := wordBytes (d.record 1).fmt
  let s0 := s.needFor 0 0 [(r0.base, 64)]
  if s0.core.want ≠ [] then s0
  else
    let len := min d.n (max 64 (leField (s.core.gBytes r0.base 64) 16 8))
    let bs := s.core.gBytes r0.base len
    let s1 := (s.readFor d.id t 0 0 [(r0.base, len)]).onCore fun c =>
      ((c.fresh.2.bump (Reg.cuffPackStream t) len).bump (Reg.cuffBytesIn t) len).bump (Reg.cuffHalfRate t) (halfRuns [r0.base])
    match unpackStream w d.m d.n bs with
    | none => (s1.strike d.id 0x22 r0.base 0).onCore fun c => c.bump (Reg.cuffPackBad t) 1
    | some ws =>
      let out := ws.flatMap (leBytes w)
      (s1.writeFor d.id t 0 1 [((d.record 1).base, out)]).onCore fun c =>
        ((c.bump (Reg.cuffPackWords t) out.length).bump (Reg.cuffBytesOut t) out.length).bump (Reg.cuffHalfRate t)
          (halfRuns [(d.record 1).base])

/-- The sampled checks of a narrowing copy, once its last job has ended: runs of 4,096 destination elements (R272), each over the
values that were narrowed. -/
def State.copyChecks (s : State) (d : Desc) : State :=
  if d.opcode = 0x20 ∧ d.argF 1 0 = 2 then
    let t1 := s.dest d
    let is := t1.all
    let mine := s.work.narrows.filter fun x => x.desc == d.id
    let s1 := (List.range (ceilDiv is.length 4096)).foldl (fun s u =>
      let part := mine.filter fun x => x.place / 4096 == u
      let xs := (List.range 4096).filterMap fun k => (part.find? fun x => x.place == 4096 * u + k).map fun x => (x.wide, x.read)
      s.onCore fun c => c.checkUnit d.latch.numCtrl d.latch.numThresh (d.argF 3 2) t1.r.tid d.step u
        ((t1.bitAddr (is.getD (4096 * u) [])) / 8).toNat (d.eventInfo 1) xs) s
    { s1 with work := { s1.work with narrows := s1.work.narrows.filter fun x => x.desc != d.id } }
  else s

/-- The next step of a Cuff descriptor's job; at its last the job ends, and the descriptor has issued its outputs when no job of it
is left. -/
def State.runJob (s : State) (d : Desc) (j : CuffJob) : State :=
  let s0 := s.setPhase d.id .running
  let s1 := match d.opcode with
    | 0x23 => s0.packJob d j.tile
    | 0x24 => s0.unpackJob d j.tile
    | _ => s0.copyJob d j
  if j.done + 1 < s.jobSteps d j then
    { s1 with work := { s1.work with jobs := s1.work.jobs.map fun o => if o = j then { j with started := true, done := j.done + 1 } else o } }
  else
    let s2 := ({ s1 with work := { s1.work with jobs := s1.work.jobs.erase j } } : State).onCore fun c => c.bump (Reg.cuffOps j.tile) 1
    if s2.work.jobs.any fun o => o.desc == d.id then s2 else (s2.copyChecks d).setPhase d.id .finished

/-- The tile's first job among those handed on (R144). -/
def State.firstJob (s : State) (t : Nat) : Option (Desc × CuffJob) :=
  (s.work.jobs.filter fun j => j.tile == t).findSome? fun j =>
    (s.desc? j.desc).bind fun d => if d.phase = .ready ∨ d.phase = .running then some (d, j) else none

/-- The Cuff's next job (R144): a Cuff descriptor's job runs; a gradient share's job is taken, and its buffers fill
as the share's passes run. -/
def State.cuffJob (s : State) (t : Nat) : State :=
  match s.firstJob t with
  | none => s
  | some (d, j) =>
    if 0x20 ≤ d.opcode then s.stage d fun s => s.runJob d j
    else if j.started ∨ s.works d = false then s
    else s.startJob j

/-- CUFF_JOB. -/
def execCuffJob (t : Nat) (s : State) : Host.Outcome State Fault Refusal := s.clocked <| .next (s.cuffJob t).settle

/-- One step of a descriptor's job on a tile, if it is the tile's turn for it. -/
def State.cuffStep (s : State) (id t : Nat) : State :=
  match s.firstJob t with
  | some (d, _) => if d.id = id then s.cuffJob t else s
  | none => s

/-- Every job of a Cuff descriptor with the given opcode run to its end, each once it is its tile's turn. -/
def State.runCuff (s : State) (id op : Nat) : State :=
  match s.desc? id with
  | none => s
  | some d =>
    let s1 := if d.opcode = op ∧ d.phase = .reserving then s.reserve id else s
    let js := s1.work.jobs.filter fun j => j.desc == id
    if d.opcode = op then
      (List.range (js.map fun j => s1.jobSteps d j + 1).sum).foldl (fun s _ =>
        ((js.map (·.tile)).eraseDups).foldl (fun s t => s.cuffStep id t) s) s1
    else s1

/-- COPY run to its end (R157). -/
def execCopy (id : Nat) (s : State) : Host.Outcome State Fault Refusal := s.clocked <| .next (s.runCuff id 0x20).settle

/-- PERMUTE run to its end (R158, R161). -/
def execPermute (id : Nat) (s : State) : Host.Outcome State Fault Refusal := s.clocked <| .next (s.runCuff id 0x21).settle

/-- SKEW_COPY run to its end (R159). -/
def execSkewCopy (id : Nat) (s : State) : Host.Outcome State Fault Refusal := s.clocked <| .next (s.runCuff id 0x22).settle

/-- PACK_INPUT run to its end (R168). -/
def execPackInput (id : Nat) (s : State) : Host.Outcome State Fault Refusal := s.clocked <| .next (s.runCuff id 0x23).settle

/-- UNPACK_INPUT run to its end (R169). -/
def execUnpackInput (id : Nat) (s : State) : Host.Outcome State Fault Refusal := s.clocked <| .next (s.runCuff id 0x24).settle

end Sys2Proof.Machine
end

