-- ==== Sys2Proof/Machine/Checks.lean ====
section
/-! DEFINITION. The checks of admission (R97): the descriptor's own fields (R84 to R87), the rules of records that do and do
not depend on extents (R88 to R91, R155, R257), alignment (R232), addresses, write aliases (R236, R237) and overlap
(R239), with what each opcode's chapter adds. -/

namespace Sys2Proof.Machine

/-- How a check ends a descriptor: status, DETAIL and the address at fault. -/
structure Reject where
  code : Nat
  detail : Nat
  addr : Nat
  deriving DecidableEq, Repr

/-! ## The descriptor's own fields (R84 to R87) -/

/-- ENGINE, least and greatest NREC of an opcode (R87, R345). -/
def opcodeRow (op : Nat) : Option (Nat × Nat × Nat) :=
  match op with
  | 0x01 => some (0, 3, 4)
  | 0x02 => some (0, 3, 4)
  | 0x03 => some (0, 3, 3)
  | 0x04 => some (0, 2, 3)
  | 0x20 => some (1, 2, 2)
  | 0x21 => some (1, 2, 2)
  | 0x22 => some (1, 2, 2)
  | 0x23 => some (1, 2, 2)
  | 0x24 => some (1, 2, 2)
  | 0x40 => some (2, 3, 4)
  | 0x41 => some (2, 3, 4)
  | 0x42 => some (2, 3, 4)
  | 0x43 => some (2, 1, 1)
  | 0x60 => some (3, 2, 2)
  | 0x61 => some (3, 2, 2)
  | 0x62 => some (3, 3, 4)
  | 0x63 => some (3, 1, 1)
  | _ => none

/-- The flags that an opcode uses (R85): the others must be zero. -/
def flagMask (d : Desc) : Nat :=
  match d.opcode with
  | 0x01 => 0x1F
  | 0x02 => 0x1F
  | 0x03 => 0x1F
  | 0x04 => 0x1A
  | 0x20 => if d.flag 2 then 0x1E else 0x18
  | 0x40 => 0x78
  | 0x42 => if bitOf d.arg 0 then 0x18 else 0x1A
  | _ => 0x18

/-- Whether every reserved bit of the 64 bytes is zero (R84). -/
def Desc.reservedZero (d : Desc) : Bool :=
  !(bitOf (leField d.raw 1 1) 7) && leField d.raw 15 1 == 0 && leField d.raw 0x2F 1 / 2 == 0 &&
  leField d.raw 0x34 4 == 0 && leField d.raw 0x3F 1 == 0

/-- The kinds of a Glove chain's stages, in order. -/
def Desc.kinds (d : Desc) : List Nat := d.latch.chain.map (· % 16)

/-- Whether the five fields of a PERMUTE's ARG name 0 to 4 once each, or ARG is the identity (R158). -/
def permOk (arg : Nat) : Bool :=
  arg == 0 || (!(bitOf arg 15) &&
    (List.range 5).all fun x => ((List.range 5).map fun i => bitsOf arg (3 * i + 2) (3 * i)).contains x)

/-- Whether ARG, NREC and the flags together are ones that the opcode takes (R114, R142, R146, R157 to R159, R177, R180,
R190, R207, R216, R217, R237, R305, R345). The opcodes whose chapter gives ARG no field take only zero (log 41). -/
def Desc.argOk (d : Desc) : Bool :=
  let func := d.argF 3 0
  let mask := d.argF 5 4
  match d.opcode with
  | 0x01 => decide (d.arg < 128) && decide (func ≤ 7) && mask != 3 && (d.nrec == 3 || func != 0) &&
      (!(d.flag 2) || (d.nrec == 3 && func == 0))
  | 0x02 => decide (d.arg < 128) && decide (func ≤ 7) && mask != 3 && (d.nrec == 4) == (func != 0) &&
      (!(d.flag 2) || (d.nrec == 3 && func == 0))
  | 0x03 => decide (d.arg < 128) && func == 0 && mask != 3 && d.flag 0
  | 0x04 => decide (d.arg < 2)
  | 0x20 => decide (d.arg < 16) && d.argF 1 0 != 3 && (!(d.flag 2) || decide (d.argF 1 0 ≤ 1))
  | 0x21 => permOk d.arg
  | 0x22 => decide (d.arg < 2)
  | 0x40 =>
    let aux := d.argF 6 5
    let cm := d.argF 8 7
    let g := bitOf d.arg 4
    let scat := d.kinds.getLast? == some 5
    decide (d.arg < 2 ^ 13) && d.latch.chain != [] && cm != 3 && (d.nrec == 4) == (aux != 0) &&
    !(scat && cm != 0) && !(cm == 2 && (g || d.kinds.contains 2 || d.kinds.contains 3)) && !(aux == 2 && g) &&
    !(aux == 3 && cm != 1) && !(bitOf d.arg 9 && !g) && !(bitOf d.arg 12 && (d.flag 3 || cm == 0))
  | 0x41 => decide (d.arg < 2 ^ 12)
  | 0x42 => decide (d.arg < 2) && !(bitOf d.arg 0 && d.nrec == 4)
  | 0x60 => decide (d.arg < 128)
  | 0x61 => true
  | 0x62 => true
  | _ => d.arg == 0

/-- The FORMAT step on the descriptor itself (R97): OPCODE, ENGINE, NREC, reserved fields, flags and ARG. -/
def Desc.ownOk (d : Desc) : Bool :=
  match opcodeRow d.opcode with
  | none => false
  | some (e, lo, hi) =>
    d.engine == e && decide (lo ≤ d.nrec) && decide (d.nrec ≤ hi) && d.reservedZero &&
    (leField d.raw 2 2 &&& flagMask d) == leField d.raw 2 2 && d.argOk

/-! ## Records: rules that do not depend on extents (R88 to R90) -/

/-- The rules that every record obeys (R88 to R90, R152), on its 32 bytes. -/
def recFormOk (bs : List Byte) : Bool :=
  let r := recOf bs
  let b := fmtBits r.fmt
  !(bitOf (leField bs 7 1) 7) && decide (leField bs 8 1 < 8) && decide (1 ≤ r.ndim) && decide (r.ndim ≤ 5) &&
  decide (r.fmt ≤ 11) &&
  (match r.layout with
  | 0 => b != 4
  | 1 => decide (b ≤ 16)
  | 2 => b == 8 || b == 16 || b == 32
  | 3 => b == 8 || b == 16
  | 4 => b == 4
  | _ => false) &&
  (!r.tiled || (r.stride 0 == 0 && r.stride 1 == 0)) &&
  (b != 4 || (r.strides.drop 1).all fun t => t % 2 == 0)

/-- A record in one of the given formats and layouts. -/
def Rec.isOneOf (r : Rec) (fmts lays : List Nat) : Bool := fmts.contains r.fmt && lays.contains r.layout

/-- A record of one of the given formats in L-ROW with STRIDE0 = 1. -/
def Rec.plain (r : Rec) (fmts : List Nat) : Bool := r.isOneOf fmts [0] && r.stride 0 == 1

/-- A plain record of one dimension. -/
def Rec.line (r : Rec) (fmts : List Nat) : Bool := r.plain fmts && r.ndim == 1

/-- A base of FP32 elements that R346 wants on a line: one off its element is left to R232's base rule, which comes later. -/
def Rec.lineBase (r : Rec) : Bool := r.base % 64 == 0 || r.base % 4 != 0

/-- The formats of words that PACK_INPUT takes (R165). -/
def packFmts : List Nat := [2, 1, 3, 4, 6, 11]

/-- Whether record `i` has a format and layout that its opcode allows in that role, with the agreement that the opcode asks
of its other records (R112, R113, R118, R145, R157 to R159, R165, R179, R190, R208, R217, R218, R237, R261, R305, R346). DESIGN CHOICE (log entry 86): record
3 of MM_DGRAD in L-ROW, whose tiles the Cuff fetches, is not asked for STRIDE0 = 1. -/
def Desc.roleOk (d : Desc) (p : Pat) (i : Nat) : Bool :=
  let r := d.record i
  let r0 := d.record 0
  let skew := d.flag 0
  let alias2 := !(d.flag 2) || r.layout == 0
  match d.opcode, i with
  | 0x01, 0 => (r.isOneOf [1, 2, 3, 4, 6] [2] && skew) || (r.isOneOf [5] [4] && skew) || (r.isOneOf [1, 2, 3, 4, 6] [3] && !skew)
  | 0x01, 1 => r.layout == 1 && (match r0.fmt with
      | 3 => r.fmt == 3 || r.fmt == 4
      | 4 => r.fmt == 3 || r.fmt == 4
      | f => r.fmt == f)
  | 0x01, 2 => r.isOneOf [0, 1, 2, 3, 4] [0, 2] && alias2 &&
      (!(isNarrow r.fmt) || (r.fmt == recipeFmt (p.recipe 1).1 && decide ((p.recipe 1).2.1 ≤ 1)))
  | 0x01, _ => r.isOneOf [0, 2] [0, 2]
  | 0x02, 0 => (r.isOneOf [2] [2] && skew) || (r.isOneOf [2] [3] && !skew)
  | 0x02, 1 => r.isOneOf [1, 2, 3, 4, 5, 6] [1]
  | 0x02, 2 => r.isOneOf [2] [0, 2] && alias2
  | 0x02, _ => r.isOneOf [0, 2] [0, 2]
  | 0x03, 0 => (r.isOneOf [1, 2, 3, 4, 6] [2]) || (r.plain [1, 2, 3, 4, 6]) || (r.isOneOf [5] [4] && r.stride 0 == 1)
  | 0x03, 1 => r.isOneOf [2] [2] || r.plain [2]
  | 0x03, _ => r.isOneOf [2] (if d.maskF = 0 then [0, 1] else [1]) && alias2
  | 0x04, 0 => r.isOneOf [2] [2] || r.plain [2]
  | 0x04, _ => r.isOneOf [0] [0]
  | 0x20, 0 => r.layout != 3 && (match d.argF 1 0 with
      | 0 => true
      | 1 => [1, 2, 3, 4, 5, 6].contains r.fmt
      | _ => [0, 1, 2].contains r.fmt)
  | 0x20, _ => r.layout != 3 && (match d.argF 1 0 with
      | 0 => r.fmt == r0.fmt
      | 1 => r.fmt == 0 || r.fmt == 2
      | _ => r.fmt == recipeFmt (p.recipe (d.argF 3 2)).1) && (!(d.flag 2) || r.isOneOf [0, 2] [0])
  | 0x21, 0 => r.isOneOf [0, 1, 2, 7, 8, 11] [0]
  | 0x21, _ => r.layout == 0 && r.fmt == r0.fmt
  | 0x22, 0 => r.isOneOf [1, 2, 3, 4, 6] [2]
  | 0x22, _ => r.layout == 3 && r.fmt == r0.fmt
  | 0x23, 0 => r.line packFmts
  | 0x23, _ => r.line [11]
  | 0x24, 0 => r.line [11]
  | 0x24, _ => r.line packFmts
  | 0x40, 0 => r.plain [7, 8]
  | 0x40, 1 => r.plain [0, 1, 2, 3, 4]
  | 0x40, 2 => if d.kinds.getLast? = some 5 then r.plain [0] else r.plain [0, 2] || r.isOneOf [0, 2] [2]
  | 0x40, _ => if d.argF 6 5 = 1 then r.plain [0, 2] else r.plain [r0.fmt]
  | 0x41, 0 => r.plain [8] && r.ndim == 2
  | 0x41, 1 => r.plain [0, 1, 2] && r.ndim == 2
  | 0x41, 2 => r.plain [11] && r.ndim == 2
  | 0x41, _ => r.plain [8] && r.ndim == 2
  | 0x42, 0 => if bitOf d.arg 0 then r.isOneOf [0, 2] [0] else r.fmt == 8
  | 0x42, 1 => if bitOf d.arg 0 then r.fmt == 7 else r.fmt == 0 || r.fmt == 2
  | 0x42, 2 => r.isOneOf [0, 2] (if bitOf d.arg 0 then [0] else [0, 2])
  | 0x42, _ => r.fmt == 11
  | 0x43, _ => r.line [11]
  | 0x60, 0 => r.line [0, 2]
  | 0x60, _ => r.line [0] && r.lineBase
  | 0x61, 0 => r.line [0, 2]
  | 0x61, _ => r.line [0] && r.lineBase
  | 0x62, 0 => r.line [0] && r.lineBase
  | 0x62, 1 => r.line [0, 2]
  | 0x62, 2 => r.line [11] && r.base % 64 == 0
  | 0x62, _ => r.line [11]
  | 0x63, _ => r.line [0] && r.lineBase
  | _, _ => false

/-- The first record that breaks a rule that does not depend on extents. -/
def Desc.formBad (d : Desc) (p : Pat) : Option Nat :=
  (List.range d.nrec).find? fun i => !(recFormOk (bytesAt d.recs (32 * i) 32)) || !(d.roleOk p i)

/-! ## Records with their extents -/

/-- The records that the steps from the extent checks on apply to: outputs alone when K is zero (R97, R234). -/
def Desc.checked (d : Desc) : List Nat :=
  if d.k = 0 ∧ d.opcode = 1 then (List.range d.nrec).drop 2 else List.range d.nrec

/-- The first record that breaks a rule that depends on extents (R89, R155, R209, R257); 0xFF for the touch map of R209. -/
def State.extentBad (s : State) (d : Desc) : Option Nat :=
  match d.checked.find? fun i =>
      let t := s.measured d i
      ((List.range 5).any fun k => decide (t.r.ndim ≤ k) && decide (1 < t.ext.getD k 1)) || !t.scalesFit ||
      (d.opcode == 0x41 && i == 2 && decide (t.r.stride 1 < ((256 * d.k : Nat) : Int))) with
  | some i => some i
  | none => if d.opcode = 0x41 ∧ bitOf d.arg 8 = true ∧ d.latch.tmapRows < d.k then some 0xFF else none

/-- Whether a record's blocks come out whole (R232, for COPY and SKEW_COPY). -/
def Tensor.blocksWhole (t : Tensor) : Bool :=
  match t.r.layout with
  | 1 => t.ext.getD 0 1 % 64 == 0 && t.ext.getD 1 1 % (64 * slotV t.r.fmt) == 0
  | 2 => t.ext.getD 0 1 % (64 * slotV t.r.fmt) == 0 && t.ext.getD 1 1 % 64 == 0
  | _ => true

/-- Whether the extents meet the alignment rules of the opcode (R180, R190, R209, R217, R218, R232, R305, R347). -/
def State.extentsAligned (s : State) (d : Desc) : Bool :=
  let v := slotV (d.record (if d.opcode = 2 then 1 else 0)).fmt
  let one := d.b0 == 1 && d.b1 == 1
  match d.opcode with
  | 0x01 => d.m % 64 == 0 && d.n % 64 == 0 && d.k % (64 * v) == 0
  | 0x02 => d.m % 64 == 0 && d.n % 64 == 0 && d.k % (64 * v) == 0
  | 0x03 => d.m % 64 == 0 && d.n % 64 == 0 && d.k % (64 * v) == 0
  | 0x04 => d.m % 64 == 0 && d.n % 64 == 0 && decide (d.m ≤ 256) && decide (d.n ≤ 256) && d.k == 1
  | 0x20 => (s.measured d 0).blocksWhole && (s.measured d 1).blocksWhole && d.k == 1
  | 0x21 => d.k == 1
  | 0x22 => (s.measured d 0).blocksWhole && d.k == 1
  | 0x23 => d.k == 1 && one
  | 0x24 => d.k == 1 && one
  | 0x40 => (d.b0 == 1 || d.argF 6 5 == 2) && d.b1 == 1
  | 0x41 => decide (d.k ≤ 1024) && decide (1 ≤ d.b0) && decide (d.b0 ≤ 8) && decide (d.b0 ≤ d.b1) && decide (d.b1 ≤ d.b0 + 4)
  | 0x42 => if bitOf d.arg 0 then one else d.k == 1
  | 0x43 => d.n == 1 && d.k == 1 && one
  | 0x60 => d.n == 1 && d.b1 == 1 && d.k == 1 && decide (d.b0 ≤ 32768)
  | 0x61 => d.n == 1 && d.b1 == 1 && decide (d.b0 ≤ 32768)
  | 0x62 => d.n == 1 && one && decide (d.k ≤ 32768) && decide (65536 ≤ d.m) && decide (d.m ≤ 1048576)
  | 0x63 => d.n == 1 && d.k == 1 && one
  | _ => true

/-- The alignment step (R232): extents, then bases, then the workspace of a sort (R180). -/
def State.alignBad (s : State) (d : Desc) : Option Reject :=
  if !(s.extentsAligned d) then some { code := 0x11, detail := 0xFF, addr := 0 }
  else if d.opcode = 0x23 ∧ d.n < packWorst d.m (if fmtBits (d.record 0).fmt = 16 then 2 else 1) then
    some { code := 0x11, detail := 1, addr := 0 }
  else
    match d.checked.find? fun i => (d.record i).base % max (fmtBits (d.record i).fmt / 8) 1 != 0 with
    | some i => some { code := 0x11, detail := i, addr := (d.record i).base }
    | none =>
      let size := d.latch.gloveWs / 2 ^ 8 % 256
      if d.opcode = 0x40 ∧ d.kinds.contains 2 = true ∧
          (size * 0x1_0000 < d.m * (16 + 4 * d.n) ∨ 128 < d.latch.gloveWs % 128 + size) then
        some { code := 0x10, detail := 0, addr := if d.flag 3 then d.shapePtr else 0 }
      else none

/-! ## Addresses -/

/-- The first byte of a record that lies outside mapped memory (R97): none when its whole span is mapped, else the first
of its elements, scale or index bytes that is not. -/
def State.unmappedAt (s : State) (t : Tensor) : Option Nat :=
  let sp := t.span
  if 0 ≤ sp.1 ∧ s.core.okRange sp.1.toNat (sp.2 - sp.1).toNat = true then none
  else if sp.1 < 0 then some 0
  else ((t.ranges t.all).find? fun r => !(s.core.okRange r.1 r.2)).map (·.1)

/-- A global range whose local part lies wholly in the HBM region, and in mapped memory where it is local (R526). -/
def Core.hbmWhole (c : Core) (ga n : Nat) : Bool := decide (gaLocal ga + n ≤ 0x120_0000_0000) && c.okRange ga n

/-- A local global range in HBM job space (R323, R346). -/
def Core.jobSpace (c : Core) (ga n : Nat) : Bool :=
  c.isLocal ga && decide (gaLocal ga + n ≤ 0x120_0000_0000) && c.memRange (gaLocal ga) n

/-- Bytes of a touch map for a count of rows (R188): summary and detail lines. -/
def touchBytes (rows : Nat) : Nat := 64 * ceilDiv rows 262144 + 64 * ceilDiv rows 512

/-- Where R346 lets record `i` of a reduction opcode lie. -/
def State.redPlace (s : State) (d : Desc) (i : Nat) : Bool :=
  let r := d.record i
  let n := (d.roleExt i).getD 0 1 * (fmtBits r.fmt / 8)
  match d.opcode, i with
  | 0x60, 1 => s.core.jobSpace r.base n
  | 0x61, 1 => true
  | 0x62, 0 => s.core.jobSpace r.base n
  | 0x62, 3 => s.core.jobSpace r.base n
  | 0x63, 0 => s.core.jobSpace r.base n
  | _, _ => s.core.isLocal r.base

/-- The address step (R97, R180, R183, R209, R347). A descriptor turned away here for its completion record's address
writes no record (R99). -/
def State.addrBad (s : State) (d : Desc) : Option Reject :=
  let bad := d.checked.findSome? fun i =>
    match s.unmappedAt (s.measured d i) with
    | some a => some ({ code := 0x15, detail := i, addr := a } : Reject)
    | none => if 0x60 ≤ d.opcode ∧ s.redPlace d i = false then
        some { code := 0x15, detail := i, addr := (d.record i).base } else none
  let own := fun (a : Nat) => some ({ code := 0x15, detail := 0xFF, addr := a } : Reject)
  match bad with
  | some r => some r
  | none =>
    let r2 := (s.measured d 2).span
    if d.opcode = 0x40 ∧ d.kinds.getLast? = some 5 ∧ s.core.hbmWhole r2.1.toNat (r2.2 - r2.1).toNat = false then
      some { code := 0x15, detail := 2, addr := r2.1.toNat }
    else if ((d.opcode = 0x40 ∧ bitOf d.arg 9 = true) ∨ (d.opcode = 0x41 ∧ bitOf d.arg 8 = true)) ∧
        s.core.hbmWhole d.latch.tmapBase (touchBytes d.latch.tmapRows) = false then own d.latch.tmapBase
    else if d.opcode = 0x41 ∧ bitOf d.arg 11 = true ∧ s.core.hbmWhole d.latch.expLoad (16 * d.k) = false then
      own d.latch.expLoad
    else if d.opcode = 0x40 ∧ bitOf d.arg 12 = true ∧ (d.shapePtr % 16 ≠ 0 ∨ s.core.okRange d.shapePtr 16 = false) then
      own d.shapePtr
    else if d.cwrite = true ∧ (d.compl % 16 ≠ 0 ∨ s.core.okRange d.compl 16 = false) then own d.compl
    else none

/-! ## Write aliases and overlap -/

/-- The written records that R236 checks. -/
def Desc.written (d : Desc) : List Nat :=
  match d.opcode with
  | 0x01 => (List.range d.nrec).drop 2
  | 0x02 => [2]
  | 0x03 => [2]
  | 0x04 => (List.range d.nrec).drop 1
  | 0x40 => [2] ++ (if d.argF 6 5 = 3 ∨ (d.argF 6 5 = 2 ∧ d.argF 8 7 = 2) then [3] else [])
  | 0x41 => if d.nrec = 3 then [0] else [3]
  | 0x42 => (List.range d.nrec).drop 2
  | 0x43 => [0]
  | op => if 0x20 ≤ op ∧ op ≤ 0x24 then [1] else []

/-- Whether a written record aliases (R236); under ALIAS_ACC a zero stride may, in the dimensions of R237. -/
def Tensor.aliases (t : Tensor) (free : Nat → Bool) : Bool :=
  if t.r.tiled then
    (((List.range 3).map (· + 2)).foldl (fun (acc : Nat × Bool) k =>
      let st := (t.r.stride k).natAbs * fmtBits t.r.fmt
      (acc.1 + st * (t.e k - 1), acc.2 || (decide (1 < t.e k) && decide (st < acc.1) && !(st == 0 && free k))))
      (8 * t.planeBytes, false)).2
  else
    ((List.range 5).foldl (fun (acc : Nat × Bool) k =>
      let st := (t.r.stride k).natAbs
      (acc.1 + st * (t.e k - 1),
       acc.2 || (decide (1 < t.e k) && decide (st < 1 + (if k = 0 then 0 else acc.1)) && !(st == 0 && free k)))) (0, false)).2

/-- The first written record that aliases (R236, R237). -/
def State.aliasBad (s : State) (d : Desc) : Option Nat :=
  let free := fun (k : Nat) => d.copyAlias || (d.aliasAcc && decide (2 ≤ k))
  (d.written.filter fun i => decide (i < d.nrec)).find? fun i => (s.measured d i).aliases free

/-- The pairs of records that must not overlap (R239, R347), by the higher number and then the lower. -/
def Desc.apart (d : Desc) : List (Nat × Nat) :=
  match d.opcode with
  | 0x01 => [(0, 2), (1, 2), (0, 3), (1, 3), (2, 3)]
  | 0x02 => [(0, 2), (1, 2), (2, 3)]
  | 0x03 => [(0, 2), (1, 2)]
  | 0x04 => [(0, 1), (0, 2), (1, 2)]
  | 0x21 => if d.inPlace then [] else [(0, 1)]
  | 0x40 => [(0, 2), (1, 2)] ++ (if d.argF 6 5 = 3 then [(0, 3), (1, 3)] else []) ++ [(2, 3)]
  | 0x41 => [(0, 3), (1, 3), (2, 3)]
  | 0x42 => [(0, 2), (1, 2), (0, 3), (1, 3), (2, 3)]
  | 0x43 => []
  | 0x62 =>
    let same := (d.record 0).base == (d.record 1).base && (d.record 1).fmt == 0
    (if same then [] else [(0, 1)]) ++ [(0, 2), (1, 2), (0, 3), (1, 3), (2, 3)]
  | _ => [(0, 1)]

/-- Whether the spans of two records meet. -/
def State.spansMeet (s : State) (d : Desc) (i j : Nat) : Bool :=
  let a := (s.measured d i).span
  let b := (s.measured d j).span
  decide (a.1 < b.2) && decide (b.1 < a.2)

/-- Whether a bucket of two ranges, landing area and staging, would be refused a window (R332, R347): as if an idle window
held them. -/
def Core.bucketWindowBad (c : Core) (land stage : Nat × Nat) : Bool :=
  !(c.winRangeOk land) || !(c.winRangeOk stage) || rangesMeet land stage ||
  (List.range 16).any fun m =>
    (decide (c.winState m ≠ 0) || c.bit (Reg.winCtrl m) 0) &&
    (rangesMeet land (c.winRange m) || rangesMeet land (c.winStage m) ||
     rangesMeet stage (c.winRange m) || rangesMeet stage (c.winStage m))

/-- The landing area and staging region of a BUCKET_ARM, as local ranges. -/
def Desc.landing (d : Desc) : Nat × Nat := (gaLocal (d.record 0).base, 64 * d.m)
/-- See `Desc.landing`. -/
def Desc.staging (d : Desc) : Nat × Nat := (gaLocal (d.record 3).base, (d.roleExt 3).getD 0 0)

/-- Whether a bucket-table entry in use is live: not yet closed (R354). -/
def Core.bucketLive (c : Core) (b : Nat) : Bool := c.fld (Reg.bktState b) 2 0 != 5

/-- The overlap step (R239, R347). -/
def State.overlapBad (s : State) (d : Desc) : Option Nat :=
  let ok := d.checked
  match d.apart.find? fun p => ok.contains p.1 && ok.contains p.2 && s.spansMeet d p.1 p.2 with
  | some p => some (max p.1 p.2)
  | none =>
    if d.opcode = 0x62 then
      if s.red.buckets.any fun b => s.core.bucketLive b.idx &&
          rangesMeet d.landing (gaLocal (s.core.fld (Reg.bktLanding b.idx) 55 0), 64 * b.lines) then some 0
      else if d.nrec = 4 ∧ s.core.bucketWindowBad d.landing d.staging = true then some 3
      else none
    else none

/-- The planned maxima (R97, R235): the first extent above its maximum. -/
def Desc.over (d : Desc) : Option Nat := (List.range 3).find? fun i => decide (64 * d.planned i < d.ext.getD i 0)

/-- Whether a zero K writes nothing (R234). -/
def Desc.zeroWritesNothing (d : Desc) : Bool := d.opcode != 1 && d.opcode != 0x61

/-- The steps of R97 from the planned maxima on. A status of 1 is DONE_ZERO. -/
def State.extentChecks (s : State) (d : Desc) : Option Reject :=
  match d.over with
  | some i => some { code := 0x10, detail := i, addr := if d.flag 3 then d.shapePtr else 0 }
  | none =>
    if d.m = 0 ∨ d.n = 0 ∨ d.b0 = 0 ∨ d.b1 = 0 ∨ (d.k = 0 ∧ d.zeroWritesNothing = true) then
      some { code := 0x01, detail := 0, addr := 0 }
    else
      match s.extentBad d with
      | some i => some { code := 0x14, detail := i, addr := 0 }
      | none =>
        match s.alignBad d with
        | some r => some r
        | none =>
          match s.addrBad d with
          | some r => some r
          | none =>
            match s.aliasBad d with
            | some i => some { code := 0x12, detail := i, addr := 0 }
            | none =>
              match s.overlapBad d with
              | some i => some { code := 0x13, detail := i, addr := 0 }
              | none => none

end Sys2Proof.Machine
end

