-- ==== Sys2Proof/Machine/Dump.lean ====
section
/-! DEFINITION. Tensor dumps (spec/16_observability.md, R483 to R487): matching at admission, and the copies. -/

namespace Sys2Proof.Machine

/-- Whether record `i` of a descriptor is read: every record is but a purely written one, an area only cleared (R349) included; the
output of an accumulating descriptor is both. -/
def Desc.isRead (d : Desc) (i : Nat) : Bool :=
  match d.opcode with
  | 0x01 => decide (i ≤ 1) || (i == 2 && d.readsOld)
  | 0x02 => i != 2 || d.readsOld
  | 0x03 => decide (i ≤ 1) || d.readsOld || d.maskF != 0
  | 0x04 => i == 0 || d.readsOld
  | 0x40 => decide (i ≤ 1) || (i == 3 && d.argF 6 5 != 3)
  | 0x41 => decide (i ≤ 2)
  | 0x42 => decide (i ≤ 1) || (i == 2 && d.readsOld)
  | 0x43 => true
  | 0x62 => i == 0
  | 0x63 => false
  | _ => i == 0

/-- Whether record `i` is written or accumulated into. -/
def Desc.isWritten (d : Desc) (i : Nat) : Bool :=
  match d.opcode with
  | 0x60 => i == 1
  | 0x61 => false
  | 0x62 => i == 1 || i == 2
  | 0x63 => true
  | _ => d.written.contains i

/-- The first record of a descriptor that request `i` matches (R483). -/
def Core.dumpMatch (c : Core) (d : Desc) (i : Nat) : Option Nat :=
  let sel := c.rd (Reg.dumpSel i)
  let step := c.fld (Reg.dumpStep i) 47 0
  if getF sel 26 26 = 1 ∧ getF sel 23 0 ≠ 0 ∧ (step = 2 ^ 48 - 1 ∨ step = d.step) then
    (List.range d.nrec).find? fun r => (d.record r).tid == getF sel 23 0 &&
      (if getF sel 24 24 = 1 then d.isRead r else d.isWritten r)
  else none

/-- Every armed request that an admitted descriptor matches is disarmed and its dump queued (R483): for one descriptor its dumps of
read roles before those of written ones, which wait for its end (log entry 106). -/
def State.matchDumps (s : State) (d : Desc) : State :=
  (((List.range 8).filter fun i => s.core.bit (Reg.dumpSel i) 24) ++ (List.range 8).filter fun i => !(s.core.bit (Reg.dumpSel i) 24)).foldl (fun s i =>
    match s.core.dumpMatch d i with
    | none => s
    | some r =>
      let j : DumpJob := { req := i, role := s.core.fld (Reg.dumpSel i) 24 24, dest := s.core.fld (Reg.dumpSel i) 25 25,
                           desc := d.id, record := r, begun := false, left := [] }
      { s with core := s.core.setBit (Reg.dumpSel i) 26 false, work := { s.work with dumps := s.work.dumps ++ [j] } }) s

/-- Whether a descriptor still awaits a dump of the given role. -/
def State.dumpsLeft (s : State) (id role : Nat) : Bool := s.work.dumps.any fun j => j.desc == id && j.role == role

/-- The dump's header (R484). -/
def Desc.dumpHeader (d : Desc) (j : DumpJob) (now : Word) (lo : Nat) (bytes : List Byte) : List Byte :=
  leBytes 4 0x504D_5544 ++ leBytes 1 j.req ++ leBytes 1 j.role ++ leBytes 2 d.tile ++ leBytes 8 d.step ++ leBytes 8 now.toNat ++
  leBytes 1 d.opcode ++ leBytes 1 j.record ++ leBytes 2 d.gen ++ leBytes 4 (crc32 bytes) ++ leBytes 8 bytes.length ++
  leBytes 8 lo ++ List.replicate 16 0 ++ bytesAt d.recs (32 * j.record) 32 ++ List.replicate 32 0

/-- A dump job replaced, or removed. -/
def State.putDump (s : State) (j : DumpJob) (new : Option DumpJob) : State :=
  { s with work := { s.work with dumps := s.work.dumps.flatMap fun x => if x = j then new.toList else [x] } }

/-- The dump written: its counters, BUSY and the DONE bit. -/
def Core.dumpEnd (c : Core) (j : DumpJob) : Core :=
  ((c.bump Reg.dumpDone 1).setBit Reg.dumpStatus 0 false).setBit Reg.dumpStatus (4 + j.req) true

/-- A write of DUMP_NEXT; while a copy runs it waits for the copy's end (R490). -/
def State.dumpNextWrite (s : State) (v : Nat) : State :=
  if s.core.bit Reg.dumpStatus 0 then { s with work := { s.work with dumpNext := some v } }
  else s.onCore fun c => c.setFld Reg.dumpNext 39 0 v

/-- Whether a queue may take and send: enabled, and bound to a context that is live (R394). -/
def Core.qLive (c : Core) (q : Nat) : Bool := c.qEn q && c.pcLive (c.fld (Reg.qCfg q) 19 8)

/-- As many entries of a dump as its queue takes and has room for (R394, R486); one that finds the ring full sets FULL (R407). -/
def State.pushDump (s : State) (j : DumpJob) : State :=
  let q := s.core.fld Reg.dumpQueue 13 0
  let n := if s.core.qLive q then min (s.core.qRoom q) (ceilDiv j.left.length 64) else 0
  let c0 := if s.core.qLive q && decide (n < ceilDiv j.left.length 64) then s.core.setBit (Reg.qStatus q) 0 true else s.core
  let c1 := (List.range n).foldl (fun c i => c.qPush q (j.left.drop (64 * i))) c0
  let rest := j.left.drop (64 * n)
  if rest.isEmpty then (({ s with core := c1.dumpEnd j } : State).putDump j none).dumpNextNow
  else ({ s with core := c1.setBit Reg.dumpStatus 0 true } : State).putDump j (some { j with left := rest })

/-- A dump that begins (R484, R486): to the region, to the queue, or skipped. It reads the span, whose uncorrectable lines are counted
(R320) and change no status. A written role is taken as the descriptor left it, undefined where a condition made it so (R485). -/
def State.beginDump (s00 : State) (d : Desc) (j : DumpJob) : State :=
  let s0 := if j.role = 0 then s00.leaveOutputs d else s00
  let sp := (s0.measured d j.record).span
  let lo := sp.1.toNat
  let s := s0.needFor 0 0 [(lo, (sp.2 - sp.1).toNat)]
  let bytes := s.core.gBytes lo (sp.2 - sp.1).toNat
  let all := d.dumpHeader j s.core.now lo bytes ++ bytes
  let region := s.pat.region 96
  let off := roundUp (s.core.fld Reg.dumpNext 39 0) 64
  let c0 := s.core.setFld Reg.dumpStatus 3 1 j.req
  let skip := ({ s with core := (s.core.bump Reg.dumpSkipped 1).blockEvent 0x70 j.req lo } : State).putDump j none
  let c1 := (c0.ueLines lo bytes.length).foldl (fun c l => c.countMemErr (l * 64) true) c0
  let c1 := ((if c0.isLocal lo then c1.countServed .rd (gaLocal lo) bytes.length else c1).bump Reg.dumpBytes bytes.length).fresh.2
  if j.dest = 0 then
    if region.2 < off + all.length then skip
    else
      let c2 := ((c1.put (region.1 + off) all).countServed .wr (region.1 + off) all.length).setFld Reg.dumpNext 39 0 (off + all.length)
      ({ s with core := c2.dumpEnd j } : State).putDump j none
  else if 2 ^ 20 < all.length then skip
  else
    let j1 : DumpJob := { j with begun := true, left := all }
    (({ s with core := c1 } : State).putDump j (some j1)).pushDump j1

/-- The dump to copy: the first match (R487), once its tensor is as it must be read (R485). -/
def State.dumpNow (s : State) : Option (Desc × DumpJob) :=
  match s.work.dumps.head? with
  | none => none
  | some j =>
    match s.desc? j.desc with
    | none => none
    | some d => if j.begun ∨ (j.role = 1 ∧ d.phase = .dumping) ∨ (j.role = 0 ∧ d.phase = .finished ∧ d.acks = 0) then some (d, j) else none

end Sys2Proof.Machine
end

