-- ==== Sys2Proof/Machine/Glove.lean ====
section
/-! DEFINITION. The Glove (spec/06_glove_sparse_engine.md): gather, sort, segment-merge, combine and scatter-accumulate, the
fixed summing orders, row-touch maps, the predictor's hint, run-ahead buffers, and the reset of a touch map. -/

namespace Sys2Proof.Machine

/-! ## Index entries (R181, R192) -/

/-- What an index entry is: a pad, dropped, or an entry with its key and the row of record 1 that it reads. -/
inductive IdxKind where
  | pad
  | dropped
  | entry (key row : Nat)
  deriving DecidableEq, Repr

/-- The segment that holds a position: the lowest whose range does (R181). -/
def segmentOf (offs : List Int) (n i : Nat) : Option Nat :=
  (List.range n).find? fun s => decide (offs.getD s 0 ≤ (i : Int)) && decide ((i : Int) < offs.getD (s + 1) 0)

/-- The sort key's width in bits, none without a sort stage (R53). -/
def Desc.sortWidth (d : Desc) : Option Nat :=
  (d.latch.chain.find? fun w => w % 16 == 2).map fun w => 16 * 2 ^ bitsOf w 10 9

/-- Index entry `v` at position `i`, with the segment of the position where record 3 holds offsets (R181, R192). -/
def Desc.classify (d : Desc) (seg : Option Nat) (i v : Nat) : IdxKind :=
  let w := fmtBits (d.record 0).fmt
  let x := if d.flag 6 then v % 2 ^ (w - 1) else v
  let neg := !(d.flag 6) && bitOf v (w - 1)
  if v = 2 ^ w - 1 ∨ (d.argF 6 5 = 2 ∧ seg = none) then .pad
  else
    let key := if d.argF 6 5 = 2 then seg.getD 0 else if bitOf d.arg 4 then x else i
    if neg ∨ 4096 * d.k ≤ x ∨ (d.sortWidth.any fun b => decide (2 ^ b ≤ key)) = true ∨
        (bitOf d.arg 9 = true ∧ d.latch.tmapRows ≤ key) then .dropped
    else .entry key (if bitOf d.arg 4 then i else x)

/-- The segment offsets of record 3 (AUX 2). -/
def State.offsets (s : State) (d : Desc) : List Int :=
  let t := s.tensor d 3
  (List.range (d.b0 + 1)).map fun i => signedOf (fmtBits t.r.fmt) (s.core.pattern t [i, 0, 0, 0, 0])

/-- The stored indices of a row of `n` elements. -/
def rowIdx (n r : Nat) : List (List Nat) := (List.range n).map fun j => [j, r, 0, 0, 0]

/-! ## Gather (R174, R185, R192, R195) -/

/-- The run-ahead buffer that a descriptor may use: both tags match (R195). -/
def State.raBuf (s : State) (d : Desc) : Option RaBuf :=
  s.work.ra.find? fun b => b.tile == d.tile && b.desc == d.id && b.gen == d.gen

/-- A run-ahead buffer taken by its descriptor, which consumes the index entries before `m` and the rows at the positions `rows`: the
errors met in them strike it now (R197). -/
def State.takeBuf (s : State) (d : Desc) (m : Nat) (rows : List Nat) : State :=
  match s.raBuf d with
  | none => s
  | some b =>
    let s1 : State := { s with work := { s.work with ra := s.work.ra.filter (· ≠ b) } }
    let bad := b.ue.filter fun x => if x.2.1 then rows.contains x.1 else decide (x.1 < m)
    bad.foldl (fun s x => (s.strike d.id 0x22 x.2.2 (if x.2.1 then 1 else 0)).sawUe d.id [x.2.2 / 64]) s1

/-- Bytes of ranges. -/
def rangeBytes (rs : List (Nat × Nat)) : Nat := (rs.map (·.2)).sum

/-- The gather stage: every index entry and row not already held by run-ahead is read over plane G, rows whose hint is 0 first and
those whose hint is 1 in a make-up pass (R192); the entries come out in position order, weighted when AUX is 1. The segment offsets
are passed on too. DESIGN CHOICE (log entry 87): GLOVE_PRED_WASTE tests a row after weighting, as GLOVE_PRED_MISS does. -/
def State.gather (s : State) (d : Desc) : State × List GEntry × List Int :=
  let buf := ((s.raBuf d).map (·.rows)).getD []
  let held := fun (i : Nat) => buf.find? fun r => r.1 == i
  let t0 := s.tensor d 0
  let t1 := s.tensor d 1
  let t3 := s.tensor d 3
  let offs := if d.argF 6 5 = 2 then s.offsets d else []
  let falls := ((List.range d.b0).filter fun k => d.argF 6 5 == 2 && decide (offs.getD (k + 1) 0 < offs.getD k 0)).length
  let vs := (List.range d.m).map fun i => (i, ((held i).map (·.2.1)).getD (s.core.pattern t0 [i, 0, 0, 0, 0]))
  let cls := vs.map fun p => (p.1, p.2, d.classify (segmentOf offs d.b0 p.1) p.1 p.2)
  let rows := cls.filterMap fun p => match p.2.2 with
    | .entry key row => some (p.1, p.2.1, key, row)
    | _ => none
  let drops := cls.filter fun p => p.2.2 == .dropped
  let rowOf := fun (p : Nat × Nat × Nat × Nat) =>
    match held p.1 with
    | some (_, _, x :: xs) => (true, x :: xs)
    | _ => (false, (rowIdx d.n p.2.2.2).map (s.core.lane t1))
  let got := rows.map fun p => (p, rowOf p)
  let hint := fun (v : Nat) => d.flag 6 && bitOf v (fmtBits t0.r.fmt - 1)
  let fresh := got.filter fun p => !p.2.1
  let order := (fresh.filter fun p => !(hint p.1.2.1)) ++ fresh.filter fun p => hint p.1.2.1
  let idxR := t0.ranges (((List.range d.m).filter fun i => (held i).isNone).map fun i => [i, 0, 0, 0, 0])
  let rowR := order.flatMap fun p => t1.ranges (rowIdx d.n p.1.2.2.2)
  let auxR := if d.argF 6 5 = 1 ∨ d.argF 6 5 = 2 then t3.ranges t3.all else []
  let ents := got.map fun p =>
    let row := if d.argF 6 5 = 1 then p.2.2.map fun x => fMul x (s.core.lane t3 [p.1.1, 0, 0, 0, 0]) else p.2.2
    (hint p.1.2.1, ({ key := p.1.2.2.1, pos := p.1.1, row := row } : GEntry))
  let zero := fun (e : GEntry) => e.row.all fun x => fAbs x == 0
  let miss := (ents.filter fun e => e.1 && !(zero e.2)).length
  let waste := (ents.filter fun e => d.flag 6 && !e.1 && zero e.2).length
  let falls1 := (s.core.fallbacks t1 (fresh.flatMap fun p => rowIdx d.n p.1.2.2.2)).length
  let t := d.tile
  let s1 := (((s.takeBuf d d.m (rows.map (·.1))).readFor d.id t 1 0 idxR).readFor d.id t 1 3 auxR).readFor d.id t 1 1 rowR
  let s2 := s1.onCore fun c =>
    let c1 := (c.bump (Reg.gloveEntries t) (rows.length + drops.length)).bump (Reg.glovePad t)
      (d.m - rows.length - drops.length)
    let c2 := (c1.bump (Reg.gloveGatherBytes t) (rangeBytes idxR + rangeBytes rowR)).bump (Reg.gloveIdxRange t)
      (drops.length + falls)
    (((c2.bump Reg.numFbReads falls1).bump (Reg.glovePredMiss t) miss).bump (Reg.glovePredWaste t) waste).fresh.2
  let s3 := match drops with
    | [] => s2
    | p :: _ => s2.strike d.id 0x15 (t0.bitAddr [p.1, 0, 0, 0, 0] / 8).toNat 0
  (s3, ents.map (·.2), offs)

/-! ## Sort and segment-merge (R175, R176, R186) -/

/-- Two runs in key order made one, the first run's entries before equal keys of the second. -/
def mergeKeyed : Nat → List GEntry → List GEntry → List GEntry
  | 0, xs, ys => xs ++ ys
  | n + 1, x :: xs, y :: ys =>
    if x.key ≤ y.key then x :: mergeKeyed n xs (y :: ys) else y :: mergeKeyed n (x :: xs) ys
  | _ + 1, [], ys => ys
  | _ + 1, xs, [] => xs

/-- The stable sort into ascending key order that the radix passes make (R174). -/
def sortKeyed : Nat → List GEntry → List GEntry
  | 0, l => l
  | n + 1, l =>
    if l.length ≤ 1 then l
    else mergeKeyed l.length (sortKeyed n (l.take (l.length / 2))) (sortKeyed n (l.drop (l.length / 2)))

/-- Entries cut into runs: maximal sequences of equal keys (R175). -/
def runsOf : List GEntry → List (List GEntry)
  | [] => []
  | e :: es =>
    match runsOf es with
    | (f :: fs) :: rs => if f.key = e.key then (e :: f :: fs) :: rs else [e] :: (f :: fs) :: rs
    | rs => [e] :: rs

/-- The left fold of rows in order; the first stands for itself (R185). -/
def foldRows : List (List Lane) → List Lane
  | [] => []
  | r :: rs => rs.foldl (List.zipWith fAdd) r

/-- Rows cut into segments of 256 (R186). -/
def segments (fuel : Nat) (rs : List (List Lane)) : List (List (List Lane)) :=
  match fuel with
  | 0 => []
  | f + 1 => if rs.isEmpty then [] else rs.take 256 :: segments f (rs.drop 256)

/-- The sort stage: it parks the entries in the workspace, whose contents are then undefined, and orders them. -/
def State.sortEntries (s : State) (d : Desc) (es : List GEntry) : State × List GEntry :=
  let base := 0x400_0000_0000 + d.tile * 0x80_0000 + d.latch.gloveWs % 128 * 0x1_0000
  (s.onCore fun c => c.scramble base (d.m * (16 + 4 * d.n)), sortKeyed 64 es)

/-- The lanes of a descriptor's stage of a kind (R53). -/
def Desc.lanes (d : Desc) (kind : Nat) : Nat := ((d.latch.chain.find? fun w => w % 16 == kind).map fun w => bitsOf w 8 4).getD 1

/-- The procedure of R186 from the point where each lane has started its own first segment: `left` holds the segments that each lane
still has, and `turns` names, in base `l`, the lanes as they come free. A lane takes its own next segment, else one of the first lane
after it that has any. The answer is how many are stolen. -/
def stealRun (l : Nat) : Nat → List Nat → Nat → Nat
  | 0, _, _ => 0
  | k + 1, left, turns =>
    let me := turns % l
    match ((List.range l).map fun i => (me + i) % l).find? fun i => decide (0 < left.getD i 0) with
    | none => 0
    | some i => (if i = me then 0 else 1) + stealRun l k (left.set i (left.getD i 0 - 1)) (turns / l)

/-- The segments stolen of `n` that are dealt round-robin to `l` lanes (R186); with one lane none is. -/
def steals (l n turns : Nat) : Nat :=
  if l ≤ 1 then 0 else stealRun l (n - min l n) ((List.range l).map fun i => (n + l - 1 - i) / l - 1) turns

/-- The segment-merge stage: one entry for each run, with its sum. The segments are dealt to the lanes in run order, and which lane
folds one never shows (R187). The order in which the lanes come free depends on timing and is free, and GLOVE_STEALS follows it. -/
def State.mergeEntries (s : State) (d : Desc) (steal : Bool) (es : List GEntry) : State × List GEntry :=
  let rs := (runsOf es).map fun run => (run, segments run.length (run.map (·.row)))
  let n := (rs.map (·.2.length)).sum
  let s1 := s.onCore fun c =>
    ((c.bump (Reg.gloveSegments d.tile) n).bump (Reg.gloveSteals d.tile) (if steal then steals (d.lanes 3) n (Config.freeNat c.freeCtr) else 0)).fresh.2
  (s1, rs.map fun r =>
    { key := ((r.1.head?).map (·.key)).getD 0, pos := ((r.1.head?).map (·.pos)).getD 0,
      row := foldRows (r.2.map foldRows) })

/-! ## Touch marks (R188, R189) -/

/-- A 64-byte payload with one bit set. -/
def oneBit (b : Nat) : List Byte := leBytes 64 (2 ^ (b % 512))

/-- One key marked: its detail bit, counted if it is issued, and the summary bit unless the descriptor's last mark fell in the same
group. -/
def State.markKey (s : State) (id t base rows : Nat) (last : Option Nat) (key : Nat) (rec_ : Nat := 0xFF) : State :=
  let g := key / 512
  let n := if (s.desc? id).any Desc.undefined then 0 else 1
  let s1 := (s.adderOne id t 1 (base + 64 * ceilDiv rows 262144 + 64 * g) 0 0 (oneBit key) rec_).onCore fun c =>
    c.bump (Reg.gloveTouchMarks t) n
  if last = some g then s1 else s1.adderOne id t 1 (base + 64 * (g / 512)) 0 0 (oneBit g) rec_

/-- Keys marked in order; a refused mark is reported with RECORD `rec_`. -/
def State.markKeys (s : State) (d : Desc) (keys : List Nat) (rec_ : Nat := 0xFF) : State :=
  (keys.foldl (fun (acc : State × Option Nat) k =>
    (acc.1.markKey d.id d.tile d.latch.tmapBase d.latch.tmapRows acc.2 k rec_, some (k / 512))) (s, none)).1

/-! ## The last stages (R182 to R185) -/

/-- The elements of one row of record 2. -/
def Tensor.rowEls (t : Tensor) (r : Nat) (row : List Lane) : List OutEl :=
  (row.zip (List.range row.length)).map fun p => t.el [p.2, r, 0, 0, 0] (fencode t.r.fmt (valOf p.1))

/-- The combine stage (R182, R183, R185): rows, keys or offsets of record 3, and the shape record's M. -/
def State.combineEntries (s : State) (d : Desc) (offs : List Int) (es : List GEntry) : State :=
  let t2 := s.tensor d 2
  let t3 := s.tensor d 3
  let mode := d.argF 8 7
  let aux := d.argF 6 5
  let runs := if mode = 2 then es.map fun e => [e] else runsOf es
  let sums := (runs.zip (List.range runs.length)).map fun p =>
    ((if mode = 0 then ((p.1.head?).map (·.key)).getD 0 else p.2), foldRows (p.1.map (·.row)))
  let keys := runs.map fun r => ((r.head?).map (·.key)).getD 0
  let full := if mode = 2 then roundUp runs.length 64 else runs.length
  let zeros := if mode = 2 then (List.range (full - runs.length)).map (runs.length + ·)
    else if mode = 0 ∧ aux = 2 then (List.range d.b0).filter fun k => !(keys.contains k) else []
  let els := (sums.flatMap fun p => t2.rowEls p.1 p.2) ++ zeros.flatMap fun r => t2.rowEls r (List.replicate d.n 0)
  let els3 := if mode = 1 ∧ aux = 3 then (keys.zip (List.range keys.length)).map fun p => t3.el [p.2, 0, 0, 0, 0] p.1
    else if mode = 2 ∧ aux = 2 then
      (offs.zip (List.range (d.b0 + 1))).map fun p =>
        t3.el [p.2, 0, 0, 0, 0] (es.filter fun e => decide ((e.pos : Int) < p.1)).length
    else []
  let shape := if bitOf d.arg 12 then [(d.shapePtr, leBytes 4 full)] else []
  let w1 := s.writeCounted d.id d.tile 1 2 (s.core.chunksOf els)
  let w2 := w1.1.writeCounted d.id d.tile 1 3 (s.core.chunksOf els3)
  let w3 := w2.1.writeCounted d.id d.tile 1 0xFF shape
  let s3 := if bitOf d.arg 9 then w3.1.markKeys d keys else w3.1
  let long := (runs.filter fun r => decide (256 < r.length)).length
  s3.onCore fun c => (c.bump (Reg.gloveWriteBytes d.tile) (w1.2 + w2.2 + w3.2)).bump (Reg.gloveLongRun d.tile) long

/-- An FP32 row cut at the 64-byte lines it meets: line address, lane mask and payload. -/
def rowLines (a : Nat) (row : List Lane) : List (Nat × BitVec 16 × List Byte) :=
  let cells := (row.zip (List.range row.length)).map fun p => (a + 4 * p.2, p.1)
  ((cells.map fun c => c.1 / 64 * 64).eraseDups).map fun l =>
    let mine := cells.filter fun c => c.1 / 64 * 64 == l
    (l, BitVec.ofNat 16 ((mine.map fun c => 2 ^ (c.1 % 64 / 4)).sum),
     leBytes 64 ((mine.map fun c => c.2.toNat * 2 ^ (8 * (c.1 % 64))).sum))

/-- The scatter-accumulate stage (R184): each entry's row accumulated to row key of record 2, in entry order. -/
def State.scatterEntries (s : State) (d : Desc) (es : List GEntry) : State :=
  let t2 := s.tensor d 2
  let lines := es.flatMap fun e => rowLines (t2.bitAddr [0, e.key, 0, 0, 0] / 8).toNat e.row
  let s1 := lines.foldl (fun s l =>
    let n := if (s.desc? d.id).any Desc.undefined then 0 else 64
    (s.adderOne d.id d.tile 0 l.1 (0xC000 + d.tile) l.2.1 l.2.2 2).onCore fun c => c.bump (Reg.gloveScatterBytes d.tile) n) s
  if bitOf d.arg 9 then s1.markKeys d (es.map (·.key)) else s1

/-! ## One descriptor at a time (R176) -/

/-- What a tile's Glove runs. -/
def State.gloveRun? (s : State) (t : Nat) : Option GloveRun := s.work.glove.find? fun g => g.tile == t

/-- A tile's running Glove descriptor replaced or, with none, freed. -/
def State.putRun (s : State) (t : Nat) (g : Option GloveRun) : State :=
  { s with work := { s.work with glove := (s.work.glove.filter fun x => x.tile != t) ++ g.toList } }

/-- The descriptor that a free Glove starts: the earliest admitted that is ready (R176). -/
def State.gloveNext (s : State) (t : Nat) : Option Desc :=
  match s.gloveRun? t with
  | some _ => none
  | none => s.firstAdmitted fun d => d.tile == t && d.engine == 2 && d.phase == .ready && s.works d

/-- The Glove starts its next descriptor. -/
def State.gloveBegin (s : State) (t : Nat) : State :=
  match s.gloveNext t with
  | none => s
  | some d =>
    let g : GloveRun := { tile := t, desc := d.id, steal := s.core.bit (Reg.gloveCtrl t) 2, stage := 0, entries := [], offs := [],
                          tail := { heads := [], marks := [], loads := [] } }
    (s.setPhase d.id .running).putRun t (some g)

/-- The Glove's descriptor has issued its outputs. -/
def State.gloveEnd (s : State) (t id : Nat) : State := (s.putRun t none).setPhase id .finished

/-- One stage of a RUN_CHAIN run, by its kind: what the Glove then holds, and the run after it. -/
def State.chainStage (s : State) (d : Desc) (kind : Nat) (g : GloveRun) : State :=
  let put := fun (s : State) (es : List GEntry) (offs : List Int) =>
    let s1 := s.putRun d.tile (some { g with stage := g.stage + 1, entries := es, offs := offs })
    if g.stage + 1 = d.kinds.length then s1.gloveEnd d.tile d.id else s1
  match kind with
  | 1 => let r := s.gather d; put r.1 r.2.1 r.2.2
  | 2 => let r := s.sortEntries d g.entries; put r.1 r.2 g.offs
  | 3 => let r := s.mergeEntries d g.steal g.entries; put r.1 r.2 g.offs
  | 4 => put (s.combineEntries d g.offs g.entries) [] g.offs
  | 5 => put (s.scatterEntries d g.entries) [] g.offs
  | _ => put s g.entries g.offs

/-- Stages of a chain run in order while `go` accepts their kind; the descriptor has issued its outputs after the last. -/
def State.stages (s : State) (d : Desc) (go : Nat → Bool) : Nat → State
  | 0 => s
  | n + 1 =>
    match s.gloveRun? d.tile with
    | none => s
    | some g =>
      if g.desc ≠ d.id then s
      else match d.kinds[g.stage]? with
      | none => s.gloveEnd d.tile d.id
      | some k => if go k then (s.stage d fun s => s.chainStage d k g).stages d go n else s

/-- A tile's running RUN_CHAIN, with the kind of its next stage. -/
def State.chainAt (s : State) (t : Nat) : Option (Desc × Nat) :=
  match s.gloveRun? t with
  | none => none
  | some g =>
    match s.desc? g.desc with
    | none => none
    | some d => if d.opcode = 0x40 then (d.kinds[g.stage]?).map fun k => (d, k) else none

/-- The stages that overlap: all but the sort and the segment-merge, which wait for their last entry (R176). -/
def flows (k : Nat) : Bool := k != 2 && k != 3

/-- The stage of kind `k` run if it is the tile's next, and the stages that overlap it after it. -/
def State.barrierStage (s : State) (t k : Nat) : State :=
  match s.chainAt t with
  | none => s
  | some (d, j) =>
    if j = k then
      match s.gloveRun? t with
      | none => s
      | some g => (s.stage d fun s => s.chainStage d k g).stages d flows 5
    else s

/-- GLOVE_START: a free Glove starts its earliest ready descriptor, and a chain's first stages run up to its first sort or
segment-merge; those that waited for bytes of another module go on. -/
def State.gloveStart (s : State) (t : Nat) : State :=
  let s1 := s.gloveBegin t
  match s1.chainAt t with
  | some (d, _) => s1.stages d flows 5
  | none => s1

/-- See `State.gloveStart`. -/
def execGloveStart (t : Nat) (s : State) : Host.Outcome State Fault Refusal := s.clocked <| .next (s.gloveStart t).settle

/-- SORT_STAGE. -/
def execSortStage (t : Nat) (s : State) : Host.Outcome State Fault Refusal := s.clocked <| .next (s.barrierStage t 2).settle

/-- SEGMENT_MERGE. -/
def execSegmentMerge (t : Nat) (s : State) : Host.Outcome State Fault Refusal := s.clocked <| .next (s.barrierStage t 3).settle

/-- A Glove descriptor of an opcode brought to run: it is the tile's running one, or the next that its free Glove starts. -/
def State.gloveTake (s : State) (id op : Nat) : Option (State × Desc) :=
  match s.desc? id with
  | none => none
  | some d =>
    if d.opcode ≠ op then none
    else
      let s1 := s.gloveBegin d.tile
      match s1.gloveRun? d.tile, s1.desc? id with
      | some g, some d1 => if g.desc = id then some (s1, d1) else none
      | _, _ => none

/-- RUN_CHAIN run to its end. -/
def State.runChain (s : State) (id : Nat) : State :=
  match s.gloveTake id 0x40 with
  | none => s
  | some (s1, d) => s1.stages d (fun _ => true) 5

/-- See `State.runChain`. -/
def execRunChain (id : Nat) (s : State) : Host.Outcome State Fault Refusal := s.clocked <| .next (s.runChain id).settle

/-! ## TOUCH_RESET (R190) -/

/-- The summary bits set in summary line `l` of a map. -/
def Core.summaryBits (c : Core) (base l : Nat) : List Nat :=
  let v := leNat (c.gBytes (base + 64 * l) 64)
  (List.range 512).filter fun i => bitOf v i

/-- TOUCH_RESET as one stage: each summary line is read, the detail lines of its set bits are cleared and then the line itself. DESIGN
CHOICE (log entry 111): R190 clears a summary line after its detail lines and everything in ascending address order, though summary
lines lie lowest; the model goes summary line by summary line, the details of each ascending before it. -/
def State.resetTouch (s0 : State) (d : Desc) : State :=
  let base := (d.record 0).base
  let zero := List.replicate 64 (0 : Byte)
  let s2 := (List.range d.m).foldl (fun (s : State) l =>
    let bits := s.core.summaryBits base l
    let sr := (s.readFor d.id d.tile 1 0 [(base + 64 * l, 64)]).onCore fun c => c.fresh.2
    sr.writeFor d.id d.tile 2 0 ((bits.map fun i => (base + 64 * d.m + 64 * (512 * l + i), zero)) ++ [(base + 64 * l, zero)])) s0
  s2.gloveEnd d.tile d.id

/-- TOUCH_RESET run: each summary line is read, the detail lines of its set bits are cleared and then the line itself. -/
def State.touchReset (s : State) (id : Nat) : State :=
  match s.gloveTake id 0x43 with
  | none => s
  | some (s1, d) => s1.stage d fun s => s.resetTouch d

/-- See `State.touchReset`. -/
def execTouchReset (id : Nat) (s : State) : Host.Outcome State Fault Refusal := s.clocked <| .next (s.touchReset id).settle

end Sys2Proof.Machine
end

