-- ==== Sys2Proof/Machine/Expert.lean ====
section
/-! DEFINITION. Expert routing (spec/07_expert_routing.md): the placement table, the dispatch in rounds with its rows, back
entries, headers, marks and load counts, the return of answers, and the fixed-order sum. -/

namespace Sys2Proof.Machine

/-! ## The placement table (R203, R204) -/

/-- One replica slot in use: its receive rows, back list, header lines and REP_CAP. -/
structure Replica where
  rows : Nat
  back : Nat
  head : Nat
  cap : Nat
  deriving DecidableEq, Repr

/-- The replicas in use of a 256-byte entry: none when the entry is malformed, no replica when the expert is disabled. DESIGN CHOICE (log
entry 109): an address that is not 64-byte aligned (R203), which R204 does not call malformed, is used as it stands. -/
def replicasOf (e : List Byte) : Option (List Replica) :=
  let slot := fun r => bytesAt e (32 * r) 32
  let valid := fun r => bitOf (leField (slot r) 0 8) 63
  let used := ((List.range 8).takeWhile valid).map fun r =>
    ({ rows := leField (slot r) 0 7, back := leField (slot r) 8 7, head := leField (slot r) 16 7,
       cap := leField (slot r) 24 4 } : Replica)
  let bad := (List.range 8).any fun r =>
    (valid r && decide (used.length ≤ r)) || leField (slot r) 7 1 % 128 != 0 || leField (slot r) 15 1 != 0 ||
    leField (slot r) 23 1 != 0 || leField (slot r) 28 4 != 0
  if bad || used.any fun p => p.cap % 64 != 0 || p.cap == 0 || decide (65536 < p.cap) then none else some used

/-- The global address of the placement table that a dispatch latched (R208, R223). -/
def Desc.tableAt (d : Desc) : Nat := (((d.record 2).base : Int) + (d.latch.table : Int) * (d.record 2).stride 1).toNat

/-- The replicas of every expert of a dispatch; none for a malformed entry. -/
def State.experts (s : State) (d : Desc) : List (Option (List Replica)) :=
  (List.range d.k).map fun e => replicasOf (s.core.gBytes (d.tableAt + 256 * e) 256)

/-! ## Routing (R210 to R213) -/

/-- What routing makes of a choice: accepted in a replica and slot, or refused. -/
inductive RouteMark where
  | accepted (rep slot : Nat)
  | full
  deriving DecidableEq, Repr

/-- Routing so far: the mark of each choice tried (token, rank, expert), and the choices that were bad. -/
structure Routing where
  marks : List (Nat × Nat × Nat × RouteMark)
  bad : Nat
  deriving DecidableEq, Repr

/-- The all-ones entry (R210). -/
def padChoice : Nat := 2 ^ 64 - 1

/-- Whether a mark is an acceptance. -/
def RouteMark.ok : RouteMark → Bool
  | .accepted _ _ => true
  | .full => false

/-- The accepted routes of an expert, and of one of its replicas. -/
def Routing.ofExpert (g : Routing) (e : Nat) : Nat := (g.marks.filter fun m => m.2.2.1 == e && m.2.2.2.ok).length
/-- See `Routing.ofExpert`. -/
def Routing.ofReplica (g : Routing) (e r : Nat) : Nat :=
  (g.marks.filter fun m => m.2.2.1 == e && (match m.2.2.2 with
    | .accepted q _ => q == r
    | .full => false)).length

/-- The replica that takes the next route of an expert (R212): from n mod R upward, wrapping, the first with room. -/
def Routing.place (g : Routing) (e : Nat) (reps : List Replica) : Option (Nat × Nat) :=
  let n := g.ofExpert e
  (((List.range reps.length).map fun i => (n + i) % reps.length).find? fun r =>
    decide (g.ofReplica e r < ((reps[r]?).map (·.cap)).getD 0)).map fun r => (r, g.ofReplica e r)

/-- One choice tried (R211). -/
def Routing.try (g : Routing) (d : Desc) (exps : List (Option (List Replica))) (v t r : Nat) : Routing :=
  let mine := g.marks.filter fun m => m.1 == t && m.2.2.2.ok
  if mine.length = d.b0 ∨ v = padChoice then g
  else
    let e := v % 1024
    if d.k ≤ e ∨ (mine.any fun m => m.2.2.1 == e) = true then
      { marks := g.marks ++ [(t, r, e, .full)], bad := g.bad + 1 }
    else
      match g.place e (((exps[e]?).getD none).getD []) with
      | none => { g with marks := g.marks ++ [(t, r, e, .full)] }
      | some p => { g with marks := g.marks ++ [(t, r, e, .accepted p.1 p.2)] }

/-- The choices of a dispatch, token by token. -/
def State.choices (s : State) (d : Desc) : List (List Nat) :=
  let t0 := s.tensor d 0
  (List.range d.m).map fun t => (List.range d.b1).map fun r => s.core.pattern t0 [r, t, 0, 0, 0]

/-- Every round (R211): rank by rank, tokens in position order; a token whose choice 0 is a pad takes no route. -/
def route (d : Desc) (exps : List (Option (List Replica))) (ch : List (List Nat)) : Routing :=
  (List.range d.b1).foldl (fun g r =>
    (ch.zip (List.range ch.length)).foldl (fun g p =>
      if p.1.getD 0 padChoice = padChoice then g else g.try d exps (p.1.getD r padChoice) p.2 r) g) { marks := [], bad := 0 }

/-- ORDER of a token's route to an expert: its rank among the token's accepted experts (R210). -/
def Routing.order (g : Routing) (t e : Nat) : Nat :=
  (g.marks.filter fun m => m.1 == t && m.2.2.2.ok && decide (m.2.2.1 < e)).length

/-- A choice entry rewritten as the route map holds it (R210). -/
def Routing.entry (g : Routing) (d : Desc) (exps : List (Option (List Replica))) (t r v : Nat) : Nat :=
  if v = padChoice then v
  else
    let kept := v % 1024 + 2 ^ 16 * bitsOf v 31 16
    match g.marks.find? fun m => m.1 == t && m.2.1 == r with
    | none => kept
    | some (_, _, _, .full) => kept + 2 ^ 62
    | some (_, _, e, .accepted q sl) =>
      let cap := ((((exps[e]?).getD none).getD [])[q]?.map (·.cap)).getD 0
      kept + 2 ^ 32 * ((d.arg % 256 * cap + sl) % 2 ^ 24) + 2 ^ 56 * (q % 8) + 2 ^ 59 * (g.order t e % 8) + 2 ^ 63

/-! ## What the dispatch writes (R205, R206, R214, R215) -/

/-- The writes of a dispatch line by line, each dropped with ADDR_RANGE where it does not reach mapped memory (R215). Their waiters carry
`rec_`. -/
def State.writeOrDrop (s : State) (d : Desc) (rec_ : Nat) (ws : List (Nat × List Byte)) : State :=
  (ws.flatMap fun w => cutLines (w.2.length + 1) w.1 w.2).foldl (fun s w =>
    if s.core.okRange w.1 w.2.length then s.writeOne d.id d.tile 1 rec_ w else s.strike d.id 0x15 w.1 2) s

/-- A header's four M fields, in line 1 (R206). -/
def Desc.headerM (d : Desc) (head count : Nat) : List (Nat × List Byte) :=
  (List.range 4).map fun i => (head + 128 * (d.arg % 256) + 64 + 16 * i, leBytes 4 (roundUp count 64))

/-- A header's line 0 (R206). -/
def Desc.header0 (d : Desc) (head count : Nat) : List (Nat × List Byte) :=
  [(head + 128 * (d.arg % 256), leBytes 4 count ++ leBytes 2 d.gen ++ [0, 0] ++ leBytes 8 d.step ++ List.replicate 48 0)]

/-- Headers as far as acknowledgements allow (R214): each one's M fields once the rows and back entries of its pair are acknowledged, and
its line 0 once they are too. What is left to write of them stands in the answer. -/
def State.writeHeads (s : State) (d : Desc) (hs : List (Nat × Nat × Nat × Bool)) : State × List (Nat × Nat × Nat × Bool) :=
  hs.foldl (fun r h =>
    if r.1.core.owed d.id h.1 ≠ 0 then (r.1, r.2 ++ [h])
    else
      let s1 := if h.2.2.2 then r.1 else r.1.writeOrDrop d h.1 (d.headerM h.2.1 h.2.2.1)
      if s1.core.owed d.id h.1 ≠ 0 then (s1, r.2 ++ [(h.1, h.2.1, h.2.2.1, true)])
      else (s1.writeOrDrop d 2 (d.header0 h.2.1 h.2.2.1), r.2)) (s, [])

/-- The rows and back entries of one replica (R205, R214). DESIGN CHOICE (log entry 108): the bytes of a receive row's entry beyond its N
elements, up to 64, are not written. -/
def State.replicaWrites (s : State) (d : Desc) (g : Routing) (e r : Nat) (p : Replica) : List (Nat × List Byte) :=
  let t1 := s.tensor d 1
  let size := fmtBits t1.r.fmt / 8
  let pitch := roundUp (d.n * size) 64
  let first := d.arg % 256 * p.cap
  let count := g.ofReplica e r
  let filled := g.marks.filterMap fun m => match m.2.2 with
    | (x, .accepted q sl) => if x = e ∧ q = r then some (sl, m.1) else none
    | _ => none
  let rows := filled.map fun f => (p.rows + (first + f.1) * pitch,
    (List.range d.n).flatMap fun j => leBytes size (s.core.pattern t1 [j, f.2, 0, 0, 0]))
  let pads := (List.range (roundUp count 64 - count)).map (count + ·)
  rows ++ (pads.map fun i => (p.rows + (first + i) * pitch, List.replicate (d.n * size) (0 : Byte))) ++
  (filled.map fun f => (p.back + 4 * (first + f.1), leBytes 4 (f.2 * d.b0 + g.order f.2 e))) ++
  (pads.map fun i => (p.back + 4 * (first + i), leBytes 4 0xFFFF_FFFF))

/-- The load line of experts 4q to 4q + 3 (R225), none where every count is zero. -/
def loadLine (d : Desc) (g : Routing) (ch : List (List Nat)) (q : Nat) : Option (BitVec 16 × List Byte) :=
  let es := ((List.range 4).map (4 * q + ·)).filter (· < d.k)
  let row := es.map fun e =>
    let demand := (ch.filter fun c => c.getD 0 padChoice != padChoice && c.getD 0 padChoice % 1024 == e).length
    let refused := (g.marks.filter fun m => m.2.2.1 == e && !m.2.2.2.ok).length
    [demand, g.ofExpert e, refused, 0]
  if row.all fun r => r.all (· == 0) then none
  else some (BitVec.ofNat 16 (2 ^ (4 * es.length) - 1), bytesAt (row.flatMap fun r => r.flatMap fun n => leBytes 4 (ofNatL n).toNat) 0 64)

/-- The replicas in use of a dispatch, as expert, number and slot. -/
def replicaList (exps : List (Option (List Replica))) : List (Nat × Nat × Replica) :=
  (exps.zip (List.range exps.length)).flatMap fun x =>
    ((x.1.getD []).zip (List.range ((x.1.getD []).length))).map fun y => (x.2, y.2, y.1)

/-- The replicas that a dispatch has read (R205). -/
def Desc.replicas (d : Desc) : List Replica := d.reps.map fun r => { rows := r.1, back := r.2.1, head := r.2.2.1, cap := r.2.2.2 }

/-- Whether another dispatch that is under way shares SOURCE and a replica with this one (R205). -/
def State.sharesSource (s : State) (d : Desc) (p : Replica) : Bool :=
  s.work.descs.any fun e => e.opcode == 0x41 && e.id != d.id && (e.phase == .running || e.phase == .finished) &&
    e.arg % 256 == d.arg % 256 && e.replicas.any fun q => q.rows == p.rows || q.back == p.back || q.head == p.head

/-- The slice of a replica's areas that a source writes (R205). -/
def State.slice (s : State) (d : Desc) (p : Replica) : List (Nat × Nat) :=
  let pitch := roundUp (d.n * (fmtBits (s.tensor d 1).r.fmt / 8)) 64
  let first := d.arg % 256 * p.cap
  [(p.rows + first * pitch, p.cap * pitch), (p.back + 4 * first, 4 * p.cap), (p.head + 128 * (d.arg % 256), 128)]

/-- The areas that two concurrent dispatches of one SOURCE write are left undefined (R205). -/
def State.scrambleShared (s : State) (d : Desc) (ps : List Replica) : State :=
  (ps.filter fun p => s.sharesSource d p).foldl (fun s p => (s.slice d p).foldl (fun s r =>
    s.onCore fun c => if c.isLocal r.1 && c.memRange (gaLocal r.1) r.2 then c.scramble (gaLocal r.1) r.2 else c) s) s

/-- The first part of a dispatch (R211, R214): it routes, writes the headers of the pairs with no row, the route map, and the rows and
back entries of every other pair, and leaves the rest as its tail. -/
def State.dispatchRows (s0 : State) (d : Desc) (gr : GloveRun) : State :=
  let id := d.id
  let t0 := s0.tensor d 0
  let t1 := s0.tensor d 1
  let exps := s0.experts d
  let ch := s0.choices d
  let g := route d exps ch
  let pairs := replicaList exps
  let empty := pairs.filter fun p => g.ofReplica p.1 p.2.1 == 0
  let nums := pairs.zip ((List.range pairs.length).map (0x100 + ·))
  let full := nums.filter fun p => g.ofReplica p.1.1 p.1.2.1 != 0
  let none_ := (nums.filter fun p => g.ofReplica p.1.1 p.1.2.1 == 0).map fun p => (p.2, p.1.2.2.head, 0, false)
  let toks := (ch.filter fun c => c.getD 0 padChoice != padChoice).length
  let sent := (g.marks.filter fun m => m.2.2.2.ok).map (·.1) |>.eraseDups
  let s1 := ((s0.readFor id d.tile 1 0 (t0.ranges t0.all)).readFor id d.tile 1 2 [(d.tableAt, 256 * d.k)]).readFor id d.tile 1 1
    (sent.flatMap fun t => t1.ranges (rowIdx d.n t))
  let s2 := s1.onCore fun c =>
    let ok := (g.marks.filter fun m => m.2.2.2.ok).length
    let c1 := (c.bump (Reg.expTokens d.tile) toks).bump (Reg.expRoutes d.tile) ok
    let c2 := (c1.bump (Reg.expFull d.tile) (g.marks.length - ok - g.bad)).bump (Reg.expPass d.tile) (toks * d.b0 - ok)
    let c3 := (c2.bump (Reg.expBadChoice d.tile) g.bad).bump (Reg.expBadPlace d.tile) (exps.filter (·.isNone)).length
    (c3.bump (Reg.expEmpty d.tile) empty.length).fresh.2
  let s2 := s2.updDesc id fun x => { x with reps := pairs.map fun p => (p.2.2.rows, p.2.2.back, p.2.2.head, p.2.2.cap) }
  let w := s2.writeHeads d none_
  let s3 := w.1
  let out := if d.nrec = 4 then 3 else 0
  let tm := s0.tensor d out
  let map := (ch.zip (List.range ch.length)).flatMap fun c =>
    (c.1.zip (List.range c.1.length)).map fun v => tm.el [v.2, c.2, 0, 0, 0] (g.entry d exps c.2 v.2 v.1)
  let s4 := s3.writeEls id d.tile 1 out map
  let s5 := full.foldl (fun s p => s.writeOrDrop d p.2 (s0.replicaWrites d g p.1.1 p.1.2.1 p.1.2.2)) s4
  let marks := if bitOf d.arg 8 then (List.range d.k).filter fun e => g.ofExpert e != 0 else []
  let loads := if bitOf d.arg 11 then (List.range (ceilDiv d.k 4)).filterMap fun q =>
      (loadLine d g ch q).map fun l => (d.latch.expLoad + 64 * q, l.1, l.2) else []
  (s5.scrambleShared d (pairs.map (·.2.2))).putRun d.tile (some { gr with stage := 1, tail :=
    { heads := w.2 ++ full.map fun p => (p.2, p.1.2.2.head, g.ofReplica p.1.1 p.1.2.1, false), marks := marks, loads := loads } })

/-- The rest of a dispatch (R214): the headers of the pairs whose rows and back entries are all acknowledged, and after the last
header the touch marks and the load lines. -/
def State.dispatchTail (s : State) (d : Desc) (gr : GloveRun) : State :=
  let w := s.writeHeads d gr.tail.heads
  if w.2 ≠ [] then w.1.putRun d.tile (some { gr with tail := { gr.tail with heads := w.2 } })
  else
    let s2 := (w.1.scrambleShared d d.replicas).markKeys d gr.tail.marks 2
    (gr.tail.loads.foldl (fun s l => s.adderOne d.id d.tile 0 l.1 (0xC000 + d.tile) l.2.1 l.2.2 2) s2).gloveEnd d.tile d.id

/-- EXPERT_DISPATCH run: its rows, then what follows them as far as acknowledgements allow; run again it goes on. -/
def State.dispatch (s : State) (id : Nat) : State :=
  match s.gloveTake id 0x41 with
  | none => s
  | some (s0, d) =>
    let s1 := match s0.gloveRun? d.tile with
      | some gr => if gr.stage = 0 then s0.stage d fun s => s.dispatchRows d gr else s0
      | none => s0
    match s1.gloveRun? d.tile, s1.desc? id with
    | some gr, some d => if gr.stage = 1 ∧ gr.desc = id then s1.stage d fun s => s.dispatchTail d gr else s1
    | _, _ => s1

/-- See `State.dispatch`. -/
def execExpertDispatch (id : Nat) (s : State) : Host.Outcome State Fault Refusal := s.clocked <| .next (s.dispatch id).settle

/-! ## Return and sum (R217, R218) -/

/-- A return as one stage: each answer row written to the staging row that the back list names; EXP_RETURN_ROWS counts those
issued. DESIGN CHOICE (log entry 110): a back entry is read as an unsigned number, so a negative one other than a pad is dropped, and the
error entry of a dropped one carries the address of the first in the back list, with RECORD 1. -/
def State.returnStage (s0 : State) (d : Desc) : State :=
  let t0 := s0.tensor d 0
  let t1 := s0.tensor d 1
  let t2 := s0.tensor d 2
  let bk := (List.range d.m).map fun i => (i, s0.core.pattern t1 [i, 0, 0, 0, 0])
  let live := bk.filter fun p => p.2 != 0xFFFF_FFFF
  let good := live.filter fun p => decide (p.2 < 64 * d.k)
  let drop := live.filter fun p => decide (64 * d.k ≤ p.2)
  let s1 := (s0.readFor d.id d.tile 1 1 (t1.ranges t1.all)).readFor d.id d.tile 1 0
    (good.flatMap fun p => t0.ranges (rowIdx d.n p.1))
  let s2 := s1.onCore fun c => (c.bump (Reg.gloveIdxRange d.tile) drop.length).fresh.2
  let s3 := match drop with
    | [] => s2
    | p :: _ => s2.strike d.id 0x15 (t1.bitAddr [p.1, 0, 0, 0, 0] / 8).toNat 1
  let s4 := good.foldl (fun s p =>
    let n := if (s.desc? d.id).any Desc.undefined then 0 else 1
    (s.writeEls d.id d.tile 1 2 (t2.rowEls p.2 ((rowIdx d.n p.1).map (s0.core.lane t0)))).onCore fun c =>
      c.bump (Reg.expReturnRows d.tile) n) s3
  s4.gloveEnd d.tile d.id

/-- A return run: each answer row written to the staging row that the back list names; EXP_RETURN_ROWS counts those issued. -/
def State.returnRows (s : State) (id : Nat) : State :=
  match s.gloveTake id 0x42 with
  | none => s
  | some (s1, d) =>
    if bitOf d.arg 0 = false then s
    else s1.stage d fun s => s.returnStage d

/-- See `State.returnRows`. -/
def execExpertCombineReturn (id : Nat) (s : State) : Host.Outcome State Fault Refusal := s.clocked <| .next (s.returnRows id).settle

/-- The accepted entries of a token in a route map: ORDER and GATE (R218). -/
def acceptedOf (row : List Nat) : List (Nat × Lane) :=
  (row.filter fun v => v != padChoice && bitOf v 63).map fun v => (bitsOf v 61 59, ofBf16 (bitsOf v 31 16))

/-- The entries a sum uses, by ascending ORDER: for each ORDER below `a` the first entry that has it. -/
def usedOf (es : List (Nat × Lane)) : List (Nat × Lane) :=
  (List.range es.length).filterMap fun j => es.find? fun e => e.1 == j

/-- One element of a sum before accumulation (R218). -/
def weightedSum (es : List (Nat × Lane)) (staged : Nat → Lane) : Lane :=
  es.foldl (fun acc e =>
    let p := fMul e.2 (staged e.1)
    if e.1 = 0 then p else fAdd acc p) 0

/-- Whether a return of the sum's batch, whose descriptors all carry its GEN (R226), has not completed (R220). -/
def State.returnsOpen (s : State) (d : Desc) : Bool :=
  s.work.descs.any fun e => e.opcode == 0x42 && bitOf e.arg 0 && e.gen == d.gen

/-- An element of the staging rows as a sum gets it: free while a return of its batch has not completed (R220). -/
def State.staged (s : State) (d : Desc) (i : List Nat) : Lane :=
  let t := s.tensor d 1
  if s.returnsOpen d then
    BitVec.ofNat 32 (leNat ((List.range 4).map fun b => Config.freeByte (s.core.freeCtr + b) (t.bitAddr i / 8).toNat))
  else s.core.lane t i

/-- A sum as one stage, token by token; EXP_SUM_TOKENS counts those whose writes are issued. -/
def State.sumStage (s0 : State) (d : Desc) : State :=
  let t1 := s0.tensor d 1
  let t2 := s0.tensor d 2
  let t3 := s0.tensor d 3
  let toks := ((s0.choices d).zip (List.range d.m)).map fun c => (c.2, acceptedOf c.1)
  let reads := toks.flatMap fun p => (usedOf p.2).flatMap fun e => t1.ranges (rowIdx d.n (p.1 * d.b0 + e.1))
  let outs := fun (p : Nat × List (Nat × Lane)) => (List.range d.n).map fun j =>
    let acc := weightedSum (usedOf p.2) fun o => s0.staged d [j, p.1 * d.b0 + o, 0, 0, 0]
    let old := if d.readsOld then s0.core.lane t2 [j, p.1, 0, 0, 0] else 0
    t2.el [j, p.1, 0, 0, 0] (fencode t2.r.fmt (valOf (d.accumulate acc old)))
  let miss := if d.nrec = 4 then toks.map fun p => t3.el [p.1, 0, 0, 0, 0] ((256 + d.b0 - p.2.length) % 256) else []
  let bad := (toks.map fun p => p.2.length - (usedOf p.2).length).sum
  let t0 := s0.tensor d 0
  let s1 := (s0.readFor d.id d.tile 1 0 (t0.ranges t0.all)).readFor d.id d.tile 1 1 reads
  let s2 := if d.readsOld then s1.readFor d.id d.tile 1 2 (t2.ranges t2.all) else s1
  let s3 := s2.onCore fun c =>
    let c1 := c.bump (Reg.expBadChoice d.tile) bad
    { c1 with freeCtr := c1.freeCtr + 4 }
  let s4 := toks.foldl (fun s p =>
    let n := if (s.desc? d.id).any Desc.undefined then 0 else 1
    (s.writeEls d.id d.tile 1 2 (outs p)).onCore fun c => c.bump (Reg.expSumTokens d.tile) n) s3
  (s4.writeEls d.id d.tile 1 3 miss).gloveEnd d.tile d.id

/-- A sum run. -/
def State.sumTokens (s : State) (id : Nat) : State :=
  match s.gloveTake id 0x42 with
  | none => s
  | some (s1, d) =>
    if bitOf d.arg 0 = true then s
    else s1.stage d fun s => s.sumStage d

/-- See `State.sumTokens`. -/
def execExpertCombineSum (id : Nat) (s : State) : Host.Outcome State Fault Refusal := s.clocked <| .next (s.sumTokens id).settle

end Sys2Proof.Machine
end

