-- ==== Sys2Proof/Machine/Journal.lean ====
section
/-! DEFINITION. The replay journal (R415 to R418): entries, the ring in the JOURNAL region, its mirror on the Hatbox partner,
and the records that a replay reads. -/

namespace Sys2Proof.Machine

/-- The JOURNAL region: base and size, size 0 when absent (R55). -/
def State.jnlRegion (s : State) : Nat × Nat := s.pat.region 64

/-- The Hatbox partner, if there is one: HATBOX_OUT under the reservation (R55, R421). -/
def State.hbPartner (s : State) : Option Nat :=
  if s.core.reserve && decide (s.pat.hatboxOut ≠ 0xFFFF) then some s.pat.hatboxOut else none

/-- An entry with its CRC (R415): the header line, then whole lines. `body` is bytes 24 to 63. -/
def jnlEntry (ty lines step time : Nat) (body rest : List Byte) : List Byte :=
  let head := fun (crc : Nat) => leBytes 1 ty ++ [0] ++ leBytes 2 lines ++ leBytes 4 crc ++ leBytes 8 (step % 2 ^ 48) ++
    leBytes 8 time ++ bytesAt body 0 40
  let more := bytesAt rest 0 (64 * (lines - 1))
  head (crc32 (head 0 ++ more)) ++ more

/-- Lines of an entry by its type: 66 for a step record and a bucket summary, 1 for a detector event (R416). -/
def jnlLines (ty : Nat) : Nat := if ty = 3 then 1 else 66

/-- Whether an entry's CRC holds. -/
def jnlGood (e : List Byte) : Bool :=
  crc32 (bytesAt e 0 4 ++ leBytes 4 0 ++ bytesAt e 8 (e.length - 8)) == leField e 4 4

/-- A message of the Hatbox stream (R423): a 16-byte header and its data. KIND is byte 0 and a status byte 1; bytes 2 to 7
and 8 to 15 hold two numbers. The spec gives the fields and not their places. -/
def hbMsg (kind status a b : Nat) (data : List Byte) : List Byte :=
  leBytes 1 kind ++ leBytes 1 status ++ leBytes 6 a ++ leBytes 8 b ++ data

/-- What names a Hatbox exchange among late answers: 2^66 and more, by a PAGE's status byte and key, else by the key. -/
def hbKey (bs : List Byte) : Nat := 2 ^ 66 + (if leField bs 0 1 ≤ 0x21 then leField bs 1 7 else 2 ^ 8 * leField bs 2 6)

/-- The step records that stay whole when bytes [lo, hi) of the ring are written. -/
def keepSteps (l : List (Nat × Nat)) (lo hi : Nat) : List (Nat × Nat) :=
  l.filter fun p => decide (hi ≤ p.1) || decide (p.1 + 66 * 64 ≤ lo)

/-- Bytes put in the ring at an offset. -/
def State.jnlPut (s : State) (o : Nat) (bs : List Byte) : State :=
  let a := s.jnlRegion.1 + o
  { s with core := (s.core.put a bs).countServed .wr a bs.length,
           integ := { s.integ with jnlSteps := keepSteps s.integ.jnlSteps o (o + bs.length) } }

/-- An entry put at the head of the ring; one that does not fit before the end starts again at offset 0, and the skipped
end is zero (R415). -/
def State.jnlWrite (s : State) (e : List Byte) : State :=
  let size := s.jnlRegion.2
  let h := (s.core.rd Reg.jnlHead).toNat
  let wrap := decide (size < h + e.length)
  let s1 := if wrap then (s.jnlPut h (List.replicate (size - h) 0)).onCore fun c => c.setBit Reg.jnlStatus 0 true else s
  let o := if wrap then 0 else h
  let s2 := s1.jnlPut o e
  let steps := if leField e 0 1 = 1 then s2.integ.jnlSteps ++ [(o, leField e 8 6)] else s2.integ.jnlSteps
  { s2 with core := ((s2.core.wr Reg.jnlHead (BitVec.ofNat 64 (o + e.length))).bump Reg.jnlEntries 1).setFld Reg.jnlOldest 47 0
              ((steps.head?.map (·.2)).getD 0),
            integ := { s2.integ with jnlSteps := steps } }

/-- An entry appended while JNL_CTRL.EN is set and the region is present: it is staged, and mirrored to the Hatbox partner (R415). -/
def State.jnlAppend (s : State) (ty step : Nat) (body rest : List Byte) : State :=
  let e := jnlEntry ty (jnlLines ty) step s.core.now.toNat body rest
  if s.core.bit Reg.jnlCtrl 0 = true ∧ e.length ≤ s.jnlRegion.2 then
    let s1 : State := { s with core := s.core.onReserved e.length, integ := { s.integ with jnlStage := s.integ.jnlStage ++ [e] } }
    match s.hbPartner with
    | some m => s1.onCore fun c => (c.send m 4 (hbMsg 0x24 0 0 0 e)).onReserved e.length
    | none => s1
  else s

/-- The staged entries written to the ring, oldest first (R415). -/
def State.jnlDrain (s : State) : State :=
  s.integ.jnlStage.foldl (fun s e => (s.onCore fun c => c.onReserved e.length).jnlWrite e)
    { s with integ := { s.integ with jnlStage := [] } }

/-- Whether the staging holds 1,024 entries, so that a boundary waits (R417). -/
def State.jnlFull (s : State) : Bool := decide (1024 ≤ s.integ.jnlStage.length)

/-- `n` bytes of the ring from an offset. -/
def State.jnlBytes (s : State) (o n : Nat) : List Byte := s.core.rdBytes (s.jnlRegion.1 + o) n

/-- The record that a replay takes at JNL_REPLAY_PTR for the step being opened: a whole step record of that step (R418). -/
def State.replayRecord (s : State) (step : Nat) : Option (List Byte) :=
  let o := (s.core.rd Reg.jnlReplayPtr).toNat
  let e := s.jnlBytes o (66 * 64)
  if o + 66 * 64 ≤ s.jnlRegion.2 ∧ leField e 0 1 = 1 ∧ leField e 2 2 = 66 ∧ leField e 8 6 = step ∧ jnlGood e = true then some e
  else none

/-- The offset of the next step record at or after an offset, following entry lengths and starting again at 0 where no
entry stands; offset 0 when none is found. -/
def State.nextRecord (s : State) : Nat → Nat → Nat
  | 0, o => o
  | k + 1, o =>
    let ty := leField (s.jnlBytes o 1) 0 1
    let n := leField (s.jnlBytes (o + 2) 2) 0 2
    if s.jnlRegion.2 ≤ o ∨ ty = 0 ∨ n = 0 then (if o = 0 then 0 else State.nextRecord s k 0)
    else if ty = 1 then o
    else State.nextRecord s k (o + 64 * n)

end Sys2Proof.Machine
end

