-- ==== Sys2Proof/Machine/Reduce.lean ====
section
/-! DEFINITION. Gradient reduction (spec/12_gradient_reduction.md): the send unit, contributions at their owner, sealing,
finalisation with its divisor, and the summary. -/

namespace Sys2Proof.Machine

/-! ## Messages that wait at the module -/

/-- The buffer in which a received message lies: each link has one for each class (R377), a context of KIND 4 keeps one order
for all classes (R392). -/
def Msg.buffer (m : Msg) : Nat × Nat := if 13 ≤ m.link then (m.link + 8 * m.src, 0) else (m.link, m.cls)

/-- The oldest message of a KIND among those at the heads of their buffers; `seen` are the buffers with an older message. -/
def headMsg (kind : Nat) (seen : List (Nat × Nat)) : List Msg → Option Msg
  | [] => none
  | m :: r => if leField m.bytes 0 1 = kind ∧ seen.contains m.buffer = false then some m else headMsg kind (m.buffer :: seen) r

/-- A received message of a KIND that is at the head of its buffer, and the state without it. -/
def State.takeMsg (s : State) (kind : Nat) : Option (Msg × State) :=
  (headMsg kind [] s.net.rxMsgs).map fun m => (m, { s with net := { s.net with rxMsgs := s.net.rxMsgs.erase m } })

/-- A reduction packet to a module: its own are delivered without leaving (R352), others travel on plane A. -/
def State.sendRed (s : State) (dest : Nat) (bytes : List Byte) : State :=
  if s.core.isSet ∧ dest = s.core.moduleNo then
    { s with net := { s.net with rxMsgs := s.net.rxMsgs ++ [{ src := dest, dest := dest, cls := 2, link := 12, tick := s.core.now.toNat, bytes := bytes }] } }
  else { s with core := s.core.send dest 2 bytes }

/-! ## The send unit (R348 to R353) -/

/-- The next descriptor of a tile's send unit: the earliest admitted (R348). -/
def State.sendUnit (s : State) (t : Nat) : Option Nat :=
  (s.firstAdmitted fun d => d.tile == t && d.engine == 3 && d.opcode != 0x62 && d.phase == .ready).map (·.id)

/-- A descriptor of the given opcode that its send unit may run. -/
def State.sendTurn (s : State) (id op : Nat) : Option Desc :=
  match s.desc? id with
  | none => none
  | some d => if d.opcode = op ∧ d.phase = .ready ∧ s.sendUnit d.tile = some id then some d else none

/-- The lines of a source record, each element widened to FP32. -/
def State.sourceLines (s : State) (d : Desc) : List (List Byte) :=
  let t := s.tensor d 0
  (List.range d.m).map fun l => (List.range 16).flatMap fun j => leBytes 4 (s.core.lane t [16 * l + j, 0, 0, 0, 0]).toNat

/-- RED_LOCAL as one stage. -/
def State.addLines (s : State) (d : Desc) : State :=
  let t := s.tensor d 0
  let s1 := s.readFor d.id d.tile 2 0 (t.ranges t.all)
  let s2 := ((s.sourceLines d).zip (List.range d.m)).foldl (fun s l =>
    s.adderOne d.id d.tile 0 ((d.record 1).base + 64 * l.2) (d.b0 - 1) 0xFFFF l.1) s1
  s2.setPhase d.id .finished

/-- RED_LOCAL (R349): one ADD for each line, in ascending order, with rank B0 - 1. -/
def State.redLocal (s : State) (id : Nat) : State :=
  match s.sendTurn id 0x60 with
  | none => s
  | some d => s.stage d fun s => s.addLines d

/-- See `State.redLocal`. -/
def execRedLocal (id : Nat) (s : State) : Host.Outcome State Fault Refusal := s.clocked <| .next (s.redLocal id).settle

/-- RED_ZERO as one stage (R349): one ZERO for each line, every lane masked. -/
def State.zeroLines (s : State) (d : Desc) : State :=
  let s1 := (List.range d.m).foldl (fun s l => s.adderOne d.id d.tile 2 ((d.record 0).base + 64 * l) 0 0xFFFF []) s
  s1.setPhase d.id .finished

/-- RED_ZERO (R349): one ZERO for each line, every lane masked. -/
def State.redZero (s : State) (id : Nat) : State :=
  match s.sendTurn id 0x63 with
  | none => s
  | some d => s.stage d fun s => s.zeroLines d

/-- See `State.redZero`. -/
def execRedZero (id : Nat) (s : State) : Host.Outcome State Fault Refusal := s.clocked <| .next (s.redZero id).settle

/-- NEED of a RED_SEND with FILL_EN (R345). -/
def Desc.need (d : Desc) : Nat := if d.argF 15 7 = 0 then 512 else d.argF 15 7

/-- RED_SEND_FILL_WAIT (R350): the wait on the fill counter ends for the earliest-admitted send whose NEED it meets
and whose generation has not retired. -/
def State.fillWait (s : State) (id : Nat) : State :=
  match s.desc? id with
  | none => s
  | some d =>
    let f := d.argF 5 0
    let v := s.core.fld (Reg.fillCnt f) 15 0
    let first := s.firstAdmitted fun e => e.phase == .filling && e.argF 5 0 == f && decide (e.need ≤ v) && s.works e
    if d.phase = .filling ∧ first.map (·.id) = some id then
      (s.onCore fun c => c.setFld (Reg.fillCnt f) 15 0 (v - d.need)).setPhase id .ready
    else s

/-- See `State.fillWait`. -/
def execRedSendFillWait (id : Nat) (s : State) : Host.Outcome State Fault Refusal := s.clocked <| .next (s.fillWait id)

/-- A contribution's header (R351). -/
def Desc.redHeader (d : Desc) (now : Word) : List Byte :=
  [1, 0] ++ leBytes 2 d.gen ++ leBytes 2 ((d.b0 - 1) % 2 ^ 15) ++ [0, 0] ++ leBytes 8 (d.record 1).base ++
  leBytes 4 (if d.k = 0 then 0 else d.m) ++ leBytes 4 d.k ++ leBytes 8 d.step ++ leBytes 8 now.toNat ++ List.replicate 24 0

/-- Lines cut in groups of 16, each with the index of its first line. -/
def lineGroups (fuel o : Nat) (ls : List (List Byte)) : List (Nat × List (List Byte)) :=
  match fuel with
  | 0 => []
  | f + 1 => if ls.isEmpty then [] else (o, ls.take 16) :: lineGroups f (o + 16) (ls.drop 16)

/-- A line group (R351). -/
def Desc.redGroup (d : Desc) (g : Nat × List (List Byte)) : List Byte :=
  [2] ++ leBytes 1 g.2.length ++ leBytes 2 d.gen ++ leBytes 2 ((d.b0 - 1) % 2 ^ 15) ++ leBytes 3 g.1 ++
  leBytes 7 (d.record 1).base ++ g.2.flatMap fun x => x

/-- RED_SEND as one stage (R352, R353): the header and, unless the contribution is empty, its line groups in ascending order. The
descriptor then waits for the owner's reply. Each line counts 64 bytes (R473); before MODULE_NO is set the landing area is out of range
(R77). -/
def State.sendLines (s : State) (d : Desc) : State :=
  let land := (d.record 1).base
  let dest := gaModule land
  let t := s.tensor d 0
  let s1 := if d.k = 0 then s else s.readFor d.id d.tile 2 0 (t.ranges t.all)
  if !s.core.isSet then (s1.strike d.id 0x15 land 1).setPhase d.id .finished
  else if s.core.isLocal land || s.core.reachable dest then
    let gs := if d.k = 0 then [] else lineGroups (d.m + 1) 0 (s.sourceLines d)
    let s2 := (s1.sendRed dest (d.redHeader s.core.now))
    let s3 := gs.foldl (fun s g => s.sendRed dest (d.redGroup g)) s2
    let bytes := 64 * (gs.map fun g => g.2.length).sum
    let s4 := s3.onCore fun c => (c.bump (if s.core.isLocal land then Reg.tcntHbmAcc d.tile else Reg.tcntRemoteWr d.tile) bytes).bump
      (Reg.tcntPlane d.tile 2) bytes
    let s5 : State := { s4 with red := { s4.red with sends := s4.red.sends ++
      [{ desc := d.id, landing := land, rank := d.b0 - 1, gen := d.gen, accepted := false, empty := d.k == 0,
         since := s.core.now.toNat, limit := s.core.fld Reg.remoteTimeout 31 0 }] } }
    s5.updDesc d.id fun d => { d with phase := .finished, acks := d.acks + 1 }
  else (s1.strike d.id 0x40 land 1).setPhase d.id .finished

/-- RED_SEND (R352, R353): the header and, unless the contribution is empty, its line groups in ascending order. The
descriptor then waits for the owner's reply. -/
def State.redSend (s : State) (id : Nat) : State :=
  match s.sendTurn id 0x61 with
  | none => s
  | some d => s.stage d fun s => s.sendLines d

/-- See `State.redSend`. -/
def execRedSend (id : Nat) (s : State) : Host.Outcome State Fault Refusal := s.clocked <| .next (s.redSend id).settle

/-! ## The bucket table (R354) -/

/-- One bucket changed. -/
def State.updBucket (s : State) (b : Nat) (f : Bucket → Bucket) : State :=
  { s with red := { s.red with buckets := s.red.buckets.map fun x => if x.idx = b then f x else x } }

/-- The entry that a BUCKET_ARM takes: the lowest free one (DESIGN CHOICE, log entry 42), else the oldest closed. -/
def State.freeBucket (s : State) : Option Nat :=
  match (List.range 64).find? fun i => !(s.red.buckets.any fun b => b.idx == i) with
  | some i => some i
  | none =>
    let closed := s.red.buckets.filter fun b => !(s.core.bucketLive b.idx)
    (closed.foldl (fun (acc : Option Bucket) b => match acc with
      | none => some b
      | some a => if b.age < a.age then some b else some a) none).map (·.idx)

/-- The highest-numbered idle window with no OPEN pending (R354). -/
def Core.idleWindow (c : Core) : Option Nat :=
  (List.range 16).reverse.find? fun n => c.winState n == 0 && !(c.bit (Reg.winCtrl n) 0)

/-- A bucket armed in entry `b` (R354); a ranked one (window `w`) becomes ARMED once its window is open. -/
def State.armEntry (s : State) (d : Desc) (b : Nat) (w : Option Nat) : State :=
  let e : Bucket := { idx := b, desc := d.id, tile := d.tile, gen := d.gen, lines := d.m, expect := d.k,
                      deadline := d.argF 14 0, sumMode := bitOf d.arg 15, first := 0, sealTick := 0, byDeadline := false,
                      refused := 0, ueLines := [], refusedAdd := false, abandoned := false, stepAtArm := s.core.step,
                      age := s.red.nextAge, drain := 0, contribs := [] }
  let c1 := s.core.wr (Reg.bktLanding b) (BitVec.ofNat 64 (d.record 0).base)
  let st := match w with
    | none => 1
    | some n => 2 ^ 3 + 2 ^ 4 * n
  let c2 := ((c1.wr (Reg.bktState b) (BitVec.ofNat 64 (st + 2 ^ 24 * d.k))).wr (Reg.bktDivisor b) 0).wr (Reg.bktDeadline b) 0
  let c3 := match w with
    | none => c2
    | some n =>
      let k := (c2.wr (Reg.winBase n) (BitVec.ofNat 64 d.landing.1)).wr (Reg.winSize n) (BitVec.ofNat 64 d.landing.2)
      ((k.wr (Reg.winStageBase n) (BitVec.ofNat 64 d.staging.1)).wr (Reg.winStageSize n) (BitVec.ofNat 64 d.staging.2)).winOpen n
  ({ s with core := c3,
            red := { s.red with buckets := (s.red.buckets.filter fun x => x.idx != b) ++ [e], nextAge := s.red.nextAge + 1 } } : State).showRed

/-- BUCKET_ARM (R354): it waits for an entry and, when ranked, for an idle window; a window that R332 would now refuse ends it
with OVERLAP, DETAIL 3. -/
def State.bucketArm (s : State) (id : Nat) : State :=
  match s.desc? id with
  | none => s
  | some d =>
    if d.opcode = 0x62 ∧ d.phase = .ready ∧ s.works d = true then
      match s.freeBucket with
      | none => s
      | some b =>
        if d.nrec = 4 then
          match s.core.idleWindow with
          | none => s
          | some n =>
            if s.core.bucketWindowBad d.landing d.staging then s.complete { d with detail := 3 } 0x13 true
            else (s.armEntry d b (some n)).setPhase id .running
        else (s.armEntry d b none).setPhase id .running
    else s

/-- See `State.bucketArm`. -/
def execBucketArm (id : Nat) (s : State) : Host.Outcome State Fault Refusal := s.clocked <| .next (s.bucketArm id).settle

/-- Buckets whose window has just opened are armed (R354). -/
def State.armOpened (s : State) (n : Nat) : State :=
  match s.red.buckets.find? fun b => s.core.fld (Reg.bktState b.idx) 2 0 == 0 && s.core.bit (Reg.bktState b.idx) 3 &&
      s.core.fld (Reg.bktState b.idx) 7 4 == n with
  | some b => if s.core.winState n = 1 then (s.setBucket b.idx 1).updBucket b.idx fun x => { x with stepAtArm := s.core.step } else s
  | none => s

/-! ## Contributions at their owner (R355) -/

/-- The reply packet of an owner (R351). -/
def redReply (kind st gen rank land : Nat) : List Byte :=
  leBytes 1 kind ++ leBytes 1 st ++ leBytes 2 gen ++ leBytes 2 rank ++ [0, 0, 0] ++ leBytes 7 land

/-- The fields that a header and a line group share: GEN, RANK, LANDING. -/
structure RedTag where
  kind : Nat
  gen : Nat
  rank : Nat
  land : Nat
  deriving DecidableEq, Repr

/-- See `RedTag`. -/
def redTag (bs : List Byte) : RedTag :=
  { kind := leField bs 0 1, gen := leField bs 2 2, rank := leField bs 4 2 % 2 ^ 15,
    land := if leField bs 0 1 = 1 then leField bs 8 7 else leField bs 9 7 }

/-- The entry that holds a landing address, if any (R355): a live one before a closed one, whose range may have been armed
again. An entry not yet armed holds none. -/
def State.bucketAt (s : State) (land : Nat) : Option Bucket :=
  let here := s.red.buckets.filter fun b =>
    let base := s.core.fld (Reg.bktLanding b.idx) 55 0
    s.core.fld (Reg.bktState b.idx) 2 0 != 0 && decide (base ≤ land) && decide (land < base + 64 * b.lines)
  if s.core.isLocal land then
    match here.find? fun b => s.core.fld (Reg.bktState b.idx) 2 0 != 5 with
    | some b => some b
    | none => here.getLast?
  else none

/-- Whether a refusal without an entry is that of a packet's contribution. -/
def isTurned (m : Msg) (g : RedTag) (p : Nat × Contrib) : Bool :=
  p.1 == g.land && p.2.src == m.src && p.2.rank == g.rank && p.2.gen == g.gen

/-- The first packet of each rank in a list. -/
def firstOfRank (seen : List Nat) : List Msg → List Msg
  | [] => []
  | m :: ms =>
    let r := (redTag m.bytes).rank
    if seen.contains r then firstOfRank seen ms else m :: firstOfRank (r :: seen) ms

/-- Ranks below one whose first packets, stamped with the same tick, still wait to be decided for a bucket and will be accepted: they
are decided before it (R355). A header whose LINES differs from the bucket's will be refused. -/
def State.ranksBefore (s : State) (b : Bucket) (m : Msg) (g : RedTag) : Nat :=
  let mine := s.net.rxMsgs.filter fun q =>
    let h := redTag q.bytes
    q.tick == m.tick && [1, 2].contains (leField q.bytes 0 1) && h.land == g.land && h.gen == b.gen && decide (h.rank < g.rank) &&
    !(b.contribs.any fun c => c.rank == h.rank) && !(s.red.turned.any (isTurned q h))
  ((firstOfRank [] mine).filter fun q => leField q.bytes 0 1 == 2 || leField q.bytes 0x10 4 == 0 || leField q.bytes 0x10 4 == b.lines).length

/-- What decides a first packet, by the tick stamped on it: the status of a refusal, 0 for acceptance, and whether it is a repeated
rank (R355). -/
def State.redDecide (s : State) (b : Option Bucket) (m : Msg) (g : RedTag) (lines : Nat) : Nat × Bool :=
  match b with
  | none => (0x15, false)
  | some b =>
    let st := s.core.fld (Reg.bktState b.idx) 2 0
    if s.core.fld (Reg.bktLanding b.idx) 55 0 ≠ g.land ∨ (g.kind = 1 ∧ lines ≠ 0 ∧ lines ≠ b.lines) then (0x15, false)
    else if 3 ≤ st ∨ g.gen ≠ b.gen then (0x31, false)
    else if b.deadline ≠ 0 ∧ st = 2 ∧ b.first + 2048 * b.deadline ≤ m.tick then (0x31, false)
    else if b.contribs.any fun c => c.rank == g.rank then (0x31, true)
    else if b.expect ≤ s.core.fld (Reg.bktState b.idx) 23 8 + s.ranksBefore b m g then (0x31, false)
    else (0, false)

/-- A bucket sealed (R354): at its deadline tick or now; a seal short of EXPECT by deadline is the Doff event 5 (R478). -/
def State.sealBucket (s : State) (b : Nat) (tick : Nat) (byDeadline : Bool) : State :=
  let short := byDeadline && decide (s.core.fld (Reg.bktState b) 23 8 < s.core.fld (Reg.bktState b) 39 24)
  let s1 := (s.setBucket b 3).updBucket b fun x =>
    { x with sealTick := tick, byDeadline := byDeadline, drain := s.core.fld Reg.redDrain 31 0 }
  if short then s1.onCore fun c => { c with events := c.events ++ [5] } else s1

/-- A contribution's entry in its bucket changed. -/
def State.updContrib (s : State) (b src rank : Nat) (f : Contrib → Contrib) : State :=
  s.updBucket b fun x => { x with contribs := x.contribs.map fun c =>
    if c.src = src ∧ c.rank = rank ∧ c.accepted = true then f c else c }

/-- INCOMPLETE of a bucket moved by one. -/
def Core.incomplete (c : Core) (b : Nat) (up : Bool) : Core :=
  let n := c.fld (Reg.bktState b) 55 40
  c.setFld (Reg.bktState b) 55 40 (if up then n + 1 else n - 1)

/-- A first packet decided (R355): counters, the reply, and the entry's memory of the rank. It begins a new contribution, so an
earlier refusal of the same rank and GEN no longer drops its packets. -/
def State.redFirst (s0 : State) (m : Msg) (g : RedTag) (lines : Nat) : State :=
  let s : State := { s0 with red := { s0.red with turned := s0.red.turned.filter fun p => !(isTurned m g p) } }
  let b := s.bucketAt g.land
  let dec := s.redDecide b m g lines
  let st := dec.1
  let c0 : Contrib := { src := m.src, rank := g.rank, gen := g.gen, accepted := st == 0, header := false, count := 0, lines := 0,
                        got := 0, complete := false }
  if st = 0 then
    match b with
    | none => s
    | some b =>
      let s1 := s.updBucket b.idx fun x => { x with contribs := x.contribs ++ [c0] }
      let s2 := if s.core.fld (Reg.bktState b.idx) 2 0 = 1 then
          ((s1.setBucket b.idx 2).updBucket b.idx fun x => { x with first := m.tick }).onCore fun c =>
            c.wr (Reg.bktDeadline b.idx) (if b.deadline = 0 then 0 else BitVec.ofNat 64 (m.tick + 2048 * b.deadline))
        else s1
      let s3 := s2.onCore fun c =>
        let c1 := (c.setFld (Reg.bktState b.idx) 23 8 (c.fld (Reg.bktState b.idx) 23 8 + 1)).incomplete b.idx true
        c1.bump Reg.redAccepted 1
      let s4 := s3.sendRed m.src (redReply 3 0 g.gen g.rank g.land)
      if b.expect ≤ s4.core.fld (Reg.bktState b.idx) 23 8 then s4.sealBucket b.idx m.tick false else s4
  else
    let c1 := if st = 0x15 then s.core.bump Reg.redUnarmed 1
      else if dec.2 then (s.core.bump Reg.redDup 1).bump Reg.staleGenCount 1
      else (s.core.bump Reg.redRefused 1).bump Reg.staleGenCount 1
    let c2 := if dec.2 then c1.blockEvent 0x30 (((b.map (·.idx)).getD 0)) g.land else c1
    let s1 : State := { s with core := c2 }
    let s2 : State := match b with
      | some b => s1.updBucket b.idx fun x =>
          { x with refused := x.refused + 1, contribs := if dec.2 then x.contribs else x.contribs ++ [c0] }
      | none => s1
    let s3 : State := { s2 with red := { s2.red with turned := s2.red.turned ++ [(g.land, { c0 with header := g.kind == 1 })] } }
    s3.sendRed m.src (redReply 4 st g.gen g.rank g.land)

/-- A contribution whose header and lines have all come is complete, and its sender is told (R351, R352); one of a bucket that has been
given up is not (R359). -/
def State.redCheckDone (s : State) (b src rank : Nat) (g : RedTag) : State :=
  match (s.red.buckets.find? fun x => x.idx == b) with
  | none => s
  | some x =>
    match if s.core.bucketLive b then x.contribs.find? fun c => c.src == src && c.rank == rank && c.accepted && !c.complete else none with
    | none => s
    | some c =>
      if c.header && decide (c.lines ≤ c.got) then
        let s1 := (s.updContrib b src rank fun c => { c with complete := true }).onCore fun k => k.incomplete b false
        if c.lines = 0 then s1.onCore fun k => k.bump Reg.redEmpty 1 else s1.sendRed src (redReply 5 0 g.gen g.rank g.land)
      else s

/-- The accepted contribution of a live bucket that a packet belongs to; a bucket given up takes no more (R359). -/
def State.redOpen (s : State) (m : Msg) (g : RedTag) : Option (Nat × Contrib) :=
  match s.bucketAt g.land with
  | none => none
  | some b => if !(s.core.bucketLive b.idx) then none else (b.contribs.find? fun c =>
      c.src == m.src && c.rank == g.rank && c.gen == g.gen && c.accepted && !c.complete && !(g.kind == 1 && c.header)).map
        fun c => (b.idx, c)

/-- A packet that follows a refusal is dropped; a second header of the same contribution begins a new one (R352). -/
def State.redTurned (s : State) (m : Msg) (g : RedTag) : Option (Nat × Contrib) :=
  s.red.turned.find? fun p => isTurned m g p && !(g.kind == 1 && p.2.header)

/-- A header received (R355). -/
def State.redHeaderIn (s : State) (m : Msg) : State :=
  let g := redTag m.bytes
  let lines := leField m.bytes 0x10 4
  let count := leField m.bytes 0x14 4
  match s.redTurned m g with
  | some p => { s with red := { s.red with turned := s.red.turned.map fun q => if q = p then (q.1, { q.2 with header := true }) else q } }
  | none =>
    let s1 := match s.redOpen m g with
      | some _ => s
      | none => s.redFirst m g lines
    match s1.redOpen m g with
    | none => s1
    | some (b, _) =>
      let s2 := s1.updContrib b m.src g.rank fun c => { c with header := true, lines := lines, count := count }
      let s3 := s2.onCore fun c => c.bump (Reg.bktDivisor b) count
      s3.redCheckDone b m.src g.rank g

/-- CONTRIBUTION_HEADER: the header at the head of the received messages. -/
def execContributionHeader (s : State) : Host.Outcome State Fault Refusal :=
  s.clocked <| .next (match s.takeMsg 1 with
    | none => s
    | some (m, s1) => (s1.redHeaderIn m).settle)

/-- What an ADD of a contribution came to at its bucket (R359): a refusal, or a line with an uncorrectable error. -/
def State.redStatus (s : State) (b st a : Nat) : State :=
  if st = 0x15 then s.updBucket b fun x => { x with refusedAdd := true }
  else if st = 0x22 then s.updBucket b fun x => { x with ueLines := if x.ueLines.contains a then x.ueLines else x.ueLines ++ [a] }
  else s

/-- Lines of a contribution that have been added or staged (R356). -/
def State.redGot (s : State) (b src rank n : Nat) (g : RedTag) : State :=
  (s.updContrib b src rank fun c => { c with got := c.got + n }).redCheckDone b src rank g

/-- A line that the adder held back has been added (R356, R422). -/
def State.redAdded (s : State) (b src rank st ga : Nat) : State :=
  match (s.red.buckets.find? fun x => x.idx == b) with
  | none => s
  | some x => (s.redStatus b st (gaLocal ga)).redGot b src rank 1
      { kind := 2, gen := x.gen, rank := rank, land := s.core.fld (Reg.bktLanding b) 55 0 }

/-- A line group received: its lines are added or staged with the contribution's rank (R351, R355, R359). A line that the adder
holds back counts once it has been added (R356). -/
def State.redGroupIn (s : State) (m : Msg) : State :=
  let g := redTag m.bytes
  match s.redTurned m g with
  | some _ => s
  | none =>
    let s1 := match s.redOpen m g with
      | some _ => s
      | none => s.redFirst m g 0
    match s1.redOpen m g with
    | none => s1
    | some (b, _) =>
      let n := min (leField m.bytes 1 1) 16
      let first := leField m.bytes 6 3
      let lim := ((s1.red.buckets.find? fun x => x.idx == b).map (·.lines)).getD 0
      let s2 := (List.range n).foldl (fun (s : State) j =>
        if first + j < lim then
          let a := gaLocal g.land + 64 * (first + j)
          let r := s.core.adderAdd a g.rank 0xFFFF (lanesOf (bytesAt m.bytes (16 + 64 * j) 64)) (.contrib b m.src g.rank)
          ({ s with core := r.1 } : State).redStatus b r.2 a
        else s) s1
      let held := s2.core.heldOps - s1.core.heldOps
      let remote := if m.link = 12 then 0 else 64 * min n (lim - first)
      (s2.onCore fun c => (c.bump Reg.redRecvGroups 1).bump Reg.obsRemoteIn remote).redGot b m.src g.rank (n - held) g

/-- LINE_GROUP: the line group at the head of the received messages; one that the module sends to itself leaves as it comes. -/
def execLineGroup (s : State) : Host.Outcome State Fault Refusal :=
  s.clocked <| .next (match s.takeMsg 2 with
    | none => s
    | some (m, s1) => ((if m.link = 12 then s1.onCore (·.groupLeft m) else s1).redGroupIn m).settle)

/-! ## Replies at the sender (R352, R353) -/

/-- The send that a reply names. -/
def State.sendOf (s : State) (m : Msg) : Option Send :=
  let g := redTag m.bytes
  s.red.sends.find? fun x => x.landing == g.land && x.rank == g.rank && x.gen == g.gen

/-- A reply that finds no send: discarded, and one to a RED_SEND that timed out counts in QR_LATE (R391). Reply 0x03 of a contribution with lines is
followed by another. -/
def State.lateReply (s : State) (m : Msg) : State :=
  let g := redTag m.bytes
  match s.red.late.find? fun x => x.landing == g.land && x.rank == g.rank && x.gen == g.gen with
  | none => s
  | some x =>
    let left := if leField m.bytes 0 1 = 3 ∧ x.empty = false then s.red.late else s.red.late.erase x
    ({ s with red := { s.red with late := left } } : State).onCore fun c => c.bump Reg.qrLate 1

/-- A send ended, with a status that it completes with; 0 is DONE. -/
def State.endSend (s : State) (x : Send) (st : Nat) : State :=
  let s1 : State := { s with red := { s.red with sends := s.red.sends.erase x } }
  let s2 := if st = 0 then s1 else s1.strike x.desc st x.landing 1
  s2.updDesc x.desc fun d => { d with acks := d.acks - 1 }

/-- Reply 0x03. An empty contribution completes with DONE_ZERO (R353). -/
def State.replyAccepted (s : State) (m : Msg) : State :=
  match s.sendOf m with
  | none => s.lateReply m
  | some x =>
    if x.empty then s.endSend x 0x01
    else { s with red := { s.red with sends := s.red.sends.map fun y => if y = x then { y with accepted := true } else y } }

/-- REPLY_ACCEPTED. -/
def execReplyAccepted (s : State) : Host.Outcome State Fault Refusal :=
  s.clocked <| .next (match s.takeMsg 3 with
    | none => s
    | some (m, s1) => s1.replyAccepted m)

/-- Reply 0x04: STALE_GEN or ADDR_RANGE, as its STATUS says. -/
def State.replyRefused (s : State) (m : Msg) : State :=
  match s.sendOf m with
  | none => s.lateReply m
  | some x => s.endSend x (leField m.bytes 1 1)

/-- REPLY_REFUSED. -/
def execReplyRefused (s : State) : Host.Outcome State Fault Refusal :=
  s.clocked <| .next (match s.takeMsg 4 with
    | none => s
    | some (m, s1) => s1.replyRefused m)

/-- Reply 0x05: the contribution is complete, and the RED_SEND with it. -/
def State.replyComplete (s : State) (m : Msg) : State :=
  match s.sendOf m with
  | none => s.lateReply m
  | some x => s.endSend x 0

/-- REPLY_COMPLETE. -/
def execReplyComplete (s : State) : Host.Outcome State Fault Refusal :=
  s.clocked <| .next (match s.takeMsg 5 with
    | none => s
    | some (m, s1) => s1.replyComplete m)

/-- Reply 0x06: the owner counts the contribution complete, and the bucket will complete with CANCELLED (R359). -/
def State.abandonReply (s : State) (m : Msg) : State :=
  let g := redTag m.bytes
  match s.redOpen m g with
  | none => s
  | some (b, _) =>
    ((s.updContrib b m.src g.rank fun c => { c with complete := true }).updBucket b fun x => { x with abandoned := true }).onCore
      fun c => c.incomplete b false

/-- ABANDON_REPLY. -/
def execAbandonReply (s : State) : Host.Outcome State Fault Refusal :=
  s.clocked <| .next (match s.takeMsg 6 with
    | none => s
    | some (m, s1) => s1.abandonReply m)

/-! ## Deadlines and finalisation (R354, R356 to R358) -/

/-- The bucket in entry `b`. -/
def State.bucket? (s : State) (b : Nat) : Option Bucket := s.red.buckets.find? fun x => x.idx == b

/-- Whether a packet for a bucket that arrived before a tick is still to be decided. -/
def State.packetBefore (s : State) (b tick : Nat) : Bool :=
  s.net.rxMsgs.any fun q => decide (q.tick < tick) && [1, 2].contains (leField q.bytes 0 1) &&
    (redTag q.bytes).land == s.core.fld (Reg.bktLanding b) 55 0

/-- BUCKET_DEADLINE: an open bucket whose deadline tick has come seals on that tick, after the packets that arrived before it. -/
def State.bucketDeadline (s : State) (b : Nat) : State :=
  match s.bucket? b with
  | none => s
  | some x =>
    let at_ := x.first + 2048 * x.deadline
    if s.core.fld (Reg.bktState b) 2 0 = 2 ∧ x.deadline ≠ 0 ∧ at_ ≤ s.core.now.toNat ∧ s.packetBefore b at_ = false then
      s.sealBucket b at_ true else s

/-- See `State.bucketDeadline`. -/
def execBucketDeadline (b : Nat) (s : State) : Host.Outcome State Fault Refusal := s.clocked <| .next (s.bucketDeadline b).settle

/-- The window of a ranked bucket. -/
def Core.bucketWindow (c : Core) (b : Nat) : Option Nat :=
  if c.bit (Reg.bktState b) 3 then some (c.fld (Reg.bktState b) 7 4) else none

/-- The local outputs of a bucket given up: landing area and output left undefined (R356, R359). -/
def State.scrambleBucket (s : State) (d : Desc) (landToo : Bool) : State :=
  s.onCore fun c =>
    let c1 := if landToo then c.scramble d.landing.1 d.landing.2 else c
    c1.scramble (gaLocal (d.record 1).base) (16 * d.m * (fmtBits (d.record 1).fmt / 8))

/-- A bucket given up: window aborted, entry closed, outputs undefined. -/
def State.dropBucket (s : State) (d : Desc) (b : Nat) : State :=
  let c1 := match s.core.bucketWindow b with
    | some n => (s.core.winAbort n).setBit (Reg.winCtrl n) 0 false
    | none => s.core
  (({ s with core := c1 } : State).scrambleBucket d true).setBucket b 5

/-- The conditions that contributions brought on a bucket (R104, R359): MEM_UE at its first line, ADDR_RANGE of a refused ADD. -/
def Bucket.conds (x : Bucket) (d : Desc) (c : Core) : List Strike :=
  (x.ueLines.head?.toList.map fun a => { code := 0x22, addr := c.global a, rec_ := 0 }) ++
  (if x.refusedAdd then [{ code := 0x15, addr := (d.record 0).base, rec_ := 0 }] else [])

/-- The conditions of a bucket noted on its descriptor. -/
def State.strikeBucket (s : State) (d : Desc) (x : Bucket) : State :=
  let s1 := (x.conds d s.core).foldl (fun s k => s.strike d.id k.code k.addr k.rec_) s
  s1.sawUe d.id (x.ueLines.map fun a => s.core.global a / 64)

/-- BUCKET_DRAIN_LIMIT (R356): a sealed bucket whose wait for its contributions has passed the limit in force when it
sealed ends with LINK_DOWN; its error entry carries the lowest incomplete rank. -/
def State.bucketDrain (s : State) (b : Nat) : State :=
  match s.bucket? b with
  | none => s
  | some x =>
    let open_ := x.contribs.filter fun c => c.accepted && !c.complete
    if s.core.fld (Reg.bktState b) 2 0 = 3 ∧ x.drain ≠ 0 ∧ open_ ≠ [] ∧ x.sealTick + x.drain < s.core.now.toNat then
      match s.desc? x.desc with
      | none => s
      | some d =>
        let low := open_.foldl (fun (m : Nat) c => min m c.rank) 32768
        let s1 := (s.dropBucket d b).onCore fun c => c.bump Reg.redDrainFail 1
        ((s1.strikeBucket d x).strike d.id 0x40 low 0xFF).setPhase d.id .finished
    else s

/-- See `State.bucketDrain`. -/
def execBucketDrainLimit (b : Nat) (s : State) : Host.Outcome State Fault Refusal := s.clocked <| .next (s.bucketDrain b).settle

/-- The rank map of a summary: bit r of byte r / 8 (R358). -/
def rankMap (ranks : List Nat) : List Byte :=
  (List.range 4096).map fun k => BitVec.ofNat 8 (((List.range 8).filter fun i => ranks.contains (8 * k + i)).map (2 ^ ·)).sum

/-- The summary record (R358). -/
def Bucket.summary (x : Bucket) (div now : Nat) (nonRepro ue : Bool) : List Byte :=
  let acc := x.contribs.filter (·.accepted)
  leBytes 8 div ++ leBytes 4 acc.length ++ leBytes 4 x.expect ++ leBytes 4 x.refused ++
  leBytes 4 (acc.filter fun c => c.header && c.lines == 0).length ++ leBytes 8 x.first ++ leBytes 8 x.sealTick ++ leBytes 8 now ++
  leBytes 4 (x.byDeadline.toNat + 2 * nonRepro.toNat + 4 * (if div = 0 then 1 else 0) + 8 * ue.toNat) ++
  List.replicate 12 0 ++ rankMap (acc.map (·.rank))

/-- One output element (R357). -/
def finalElement (div : Nat) (sum : Bool) (v : Lane) : Lane :=
  if div = 0 then 0 else if sum then v else fDiv v (ofNatL div)

/-- Whether a bucket is the next of its tile's finalise unit: the unit is free, and it was the first to have sealed (R348). -/
def State.finaliseTurn (s : State) (x : Bucket) : Bool :=
  !(s.red.buckets.any fun y => y.tile == x.tile && s.core.fld (Reg.bktState y.idx) 2 0 == 4) &&
  !(s.red.buckets.any fun y => y.tile == x.tile && s.core.fld (Reg.bktState y.idx) 2 0 == 3 &&
    (decide (y.sealTick < x.sealTick) || (y.sealTick == x.sealTick && decide (y.age < x.age))))

/-- The finalise unit takes a bucket whose contributions are complete and whose generation has not retired (R354, R359): it is FINALISING,
and its window closes. -/
def State.takeBucket (s : State) (b : Nat) : State :=
  match s.bucket? b with
  | none => s
  | some x =>
    let open_ := x.contribs.filter fun c => c.accepted && !c.complete
    if s.core.fld (Reg.bktState b) 2 0 = 3 ∧ open_ = [] ∧ s.finaliseTurn x = true ∧ (s.desc? x.desc).any s.works = true then
      (s.setBucket b 4).onCore fun c => match s.core.bucketWindow b with
        | some n => c.winClose n
        | none => c
    else s

/-- A bucket that the finalise unit holds, its window closed as far as that goes (R357, R358): the sums divided, the output and the
summary written. A guarded one that a hold meets writes its summary and no output (R413). A bucket sealed by deadline enters the
journal (R416). While a line of its window waits for its page's copy, the rest waits (R422). The entry is CLOSED at completion
(`State.complete`). -/
def State.finaliseBucket (s : State) (b : Nat) : State :=
  match s.bucket? b with
  | none => s
  | some x =>
    match s.desc? x.desc with
    | none => s
    | some d =>
      if s.core.fld (Reg.bktState b) 2 0 = 4 ∧ d.phase = .running then
        let w := s.core.bucketWindow b
        let s1 := s.onCore fun c => match w with
          | some n => c.winCloseDone n
          | none => c
        if w.any fun n => s1.core.winState n != 0 then s1
        else
        let repro := w.any fun n => s1.core.bit (Reg.winStatus n) 3
        let div := (s1.core.rd (Reg.bktDivisor b)).toNat
        let t0 := s1.tensor d 0
        let t1 := s1.tensor d 1
        let held := s.core.guarded d.gen
        let sc := s1.strikeBucket d x
        let s2 := if held then sc else sc.readOne d.id d.tile 2 0 ((d.record 0).base, 64 * d.m)
        let s3 := if held then s2 else s2.putFor d.id d.tile 2 1 (s2.core.chunksOf (t0.all.map fun i =>
          t1.el i (fencode t1.r.fmt (valOf (finalElement div x.sumMode (s1.core.lane t0 i))))))
        let ue := !x.ueLines.isEmpty || (s3.desc? d.id).any fun d => d.conds.any fun k => k.code == 0x22
        let sum := x.summary div s.core.now.toNat repro ue
        let s4 := s3.putFor d.id d.tile 2 2 [((d.record 2).base, sum)]
        let s5 := if x.abandoned then s4.strike d.id 0x30 0 0xFF else s4
        let s5 := if (x.abandoned || ue) && !held then s5.scrambleBucket d false else s5
        let s6 := if held then s5.strike d.id s.core.holdStatus 0 0xFF else s5
        let short := decide ((x.contribs.filter (·.accepted)).length < x.expect)
        let good := (s6.desc? d.id).all fun d => d.conds.isEmpty
        let s7 := s6.onCore fun c => (c.bump Reg.redShort short.toNat).bump Reg.redFinalised good.toNat
        let s8 := if x.byDeadline && !held then s7.jnlAppend 2 x.stepAtArm (leBytes 8 (d.record 0).base) sum else s7
        s8.setPhase d.id .finished
      else s

/-- BUCKET_FINALISE: the finalise unit takes the bucket and finalises it. -/
def State.bucketFinalise (s : State) (b : Nat) : State := (s.takeBucket b).finaliseBucket b

/-- See `State.bucketFinalise`. -/
def execBucketFinalise (b : Nat) (s : State) : Host.Outcome State Fault Refusal := s.clocked <| .next (s.bucketFinalise b).settle

/-- FILL_CNT_WRITE (R362, R363). -/
def State.fillCntWrite (s : State) (f : Nat) (v : Word) : State :=
  if f < 64 then s.onCore fun c => c.setFld (Reg.fillCnt f) 15 0 v.toNat else s

/-- See `State.fillCntWrite`. -/
def execFillCntWrite (f : Nat) (v : Word) (s : State) : Host.Outcome State Fault Refusal := s.clocked <| .next (s.fillCntWrite f v)

end Sys2Proof.Machine
end

