-- ==== Sys2Proof/Machine/Stats.lean ====
section
/-! DEFINITION. The preconditioner statistics (R305) on the Mitt, and the zero-K result of a forward product (R234). -/

namespace Sys2Proof.Machine

/-- MM_STATS run to its end: its shares, passes and drains, as of a product (R242, R305). -/
def execMmStats (id : Nat) (s : State) : Host.Outcome State Fault Refusal := s.clocked <| .next (s.product id 4).settle

/-- A forward product of zero K (R234): planned into shares like any product, without passes; each share drains its blocks, y of acc = +0,
FUNC not applied, narrowed where record 2 is. -/
def State.zeroProduct (s : State) (d : Desc) : State :=
  let m := s.spreadSet d.tile
  let hs := s.planShares d m.1
  let plain : Desc := { d with raw := d.raw.set 6 (BitVec.ofNat 8 (d.arg / 16 % 16 * 16)) }
  let s1 := s.onCore fun c => (c.notePlan d.tile d.pieces m.2 m.1.length hs).bump (Reg.sizerShares d.tile) hs.length
  hs.foldl (fun s h =>
    let cells := (List.range (h.rb1 - h.rb0)).flatMap fun r => (List.range (h.cb1 - h.cb0)).map fun c => (h.rb0 + r, h.cb0 + c)
    (cells.foldl (fun s p =>
      s.drainTile plain { h with started := true, spill := 0 } { rb := p.1, cb := p.2, next := 1, full := true, sums := List.replicate 4096 0, before := [] })
        s).onCore fun c => c.bump (Reg.mittShares h.tile) 1) s1

end Sys2Proof.Machine
end

