-- ==== Sys2Proof/Machine/Admit.lean ====
section
/-! DEFINITION. Handing work to an engine: submission (R81), admission (R97), completion (R98), generations (R92 to R95), and
the Glove's run-ahead (R193 to R197). -/

namespace Sys2Proof.Machine

/-! ## Submission (R81) -/

/-- Whether a tile has a free admission slot for an engine; an ENGINE above 3 needs none. -/
def State.slotFree (s : State) (t e : Nat) : Bool :=
  decide (3 < e) || decide ((s.work.descs.filter fun d => d.tile == t && d.engine == e).length < 16)

/-- A descriptor put in its slot; `by_` is the Palm context that submitted it. -/
def State.takeSlot (s : State) (t : Nat) (src : Src) (raw : List Byte) (by_ : Option (Nat × Nat)) : State :=
  let d : Desc := { id := s.work.nextId, tile := t, src := src, raw := raw, phase := .waiting, adm := 0, step := 0, recs := [], ext := [],
                    latch := { chain := [], gloveWs := 0, tmapBase := 0, tmapRows := 0, numCtrl := 0, numThresh := 0, expLoad := 0, table := 0 },
                    conds := [], detail := 0, ueSeen := [], acks := 0, mixed := false, by_ := by_, wrote := false, tried := false, left := false, reps := [] }
  let c := match src with
    | .port n => s.core.setFld (Reg.ctxStatus t n) 31 16 (s.core.fld (Reg.ctxStatus t n) 31 16 + 1)
    | .queue _ => s.core
  { s with core := c, work := { s.work with nextId := s.work.nextId + 1, descs := s.work.descs ++ [d] } }

/-- A submission store: one aligned 64-byte store takes a slot or waits for one, any other sets BAD_SUBMIT. `by_` is the Palm
context that stores. -/
def State.submitStore (s : State) (t n off : Nat) (data : List Byte) (by_ : Option (Nat × Nat)) : State :=
  if s.core.active ≤ t ∨ 64 ≤ n then s
  else if off ≠ 0 ∨ data.length ≠ 64 then s.onCore fun c => c.setBit (Reg.ctxStatus t n) 3 true
  else if s.slotFree t (leField data 1 1 % 16) then s.takeSlot t (.port n) data by_
  else
    let s1 : State := { s with work := { s.work with stores := s.work.stores ++ [{ tile := t, n := n, data := data, by_ := by_ }] } }
    match by_ with
    | none => s1
    | some k => s1.block k.1 k.2

/-- The first waiting submission store that now has a slot takes it, and its context goes on. -/
def State.takeStore (s : State) : State :=
  match s.work.stores.find? fun w => s.slotFree w.tile (leField w.data 1 1 % 16) with
  | none => s
  | some w =>
    let s1 := ({ s with work := { s.work with stores := s.work.stores.erase w } } : State).takeSlot w.tile (.port w.n) w.data w.by_
    match w.by_ with
    | none => s1
    | some k => s1.unblock k.1 k.2

/-- The enabled queues of the engine classes 0 to 3 (R396). -/
def Core.engineQueues (c : Core) : List Nat :=
  c.ctl.filterMap fun p =>
    if Reg.qCfg 0 ≤ p.1 ∧ p.1 < Reg.qCfg 16384 ∧ p.1 % 64 = 0 ∧ getF p.2 0 0 = 1 ∧ getF p.2 3 1 ≤ 3 then
      some ((p.1 - Reg.qCfg 0) / 64) else none

/-- Entries of queue `q` taken by admission while their engines have slots (R81, R395, R396): HEAD and Q_COUNT advance. A torn-down
context's queue takes nothing (R394). -/
def State.takeQueue (q : Nat) : Nat → State → State
  | 0, s => s
  | k + 1, s =>
    let c := s.core
    let t := c.fld (Reg.qCfg q) 26 20
    let slot := c.qSlot q (c.fld (Reg.qHead q) 31 0)
    let e := c.rdBytes slot 64
    if c.qUsed q = 0 ∨ c.active ≤ t ∨ c.pcLive (c.fld (Reg.qCfg q) 19 8) = false ∨ s.slotFree t (leField e 1 1 % 16) = false then s
    else
      let c1 := ((c.slotRead slot).setFld (Reg.qHead q) 31 0 (c.fld (Reg.qHead q) 31 0 + 1)).bump (Reg.qCount q) 1
      State.takeQueue q k (({ s with core := c1 } : State).takeSlot t (.queue q) e none)

/-- Queue entries put in the slots that are free. -/
def State.takeQueues (s : State) : State :=
  s.core.engineQueues.foldl (fun s q => State.takeQueue q (s.core.qUsed q) s) s

/-- The first waiting direct entry that need not wait goes, and its context with it: written when its queue may take it and has room,
lost when its queue has been disabled (R397). -/
def State.takeDirect (s : State) : State :=
  match s.work.direct.find? fun w => !(s.core.qEn w.queue) || (s.core.qLive w.queue && decide (0 < s.core.qRoom w.queue)) with
  | none => s
  | some w =>
    let s1 : State := { s with core := if s.core.qEn w.queue then s.core.qPush w.queue w.data else s.core, work := { s.work with direct := s.work.direct.erase w } }
    match w.by_ with
    | none => s1
    | some k => s1.unblock k.1 k.2

/-- What waits at the module's doors taken in where there is room: submission stores, queue entries, direct entries. -/
def State.takeWork (s : State) : State :=
  let s1 := ((List.range s.work.stores.length).foldl (fun s _ => s.takeStore) s).takeQueues
  ((List.range s1.work.direct.length).foldl (fun s _ => s.takeDirect) s1).takeQueues

/-- DESCRIPTOR_SUBMIT. -/
def execDescriptorSubmit (t n off : Nat) (data : List Byte) (s : State) : Host.Outcome State Fault Refusal :=
  s.clocked <| .next (s.submitStore t n off data none)

/-! ## Admission (R97) -/

/-- Whether an earlier descriptor of the same context or queue has not completed (R82). -/
def State.fenced (s : State) (d : Desc) : Bool :=
  (s.work.descs.takeWhile fun e => e.id != d.id).any fun e => e.src == d.src &&
    (match d.src with
    | .port _ => e.tile == d.tile
    | .queue _ => true)

/-- What a descriptor latches at admission (R54, R201, R223, R229, R272). -/
def State.latchFor (s : State) (d : Desc) : Latch :=
  let j := if d.opcode = 0x41 then d.argF 10 9 else d.argF 11 10
  { chain := if d.opcode = 0x40 then (s.pat.chain (d.argF 3 0)).getD [] else [],
    gloveWs := (s.core.rd (Reg.gloveWs d.tile)).toNat % 2 ^ 16,
    tmapBase := s.core.fld (Reg.tmapBase d.tile j) 55 0, tmapRows := s.core.fld (Reg.tmapRows d.tile j) 39 0,
    numCtrl := (s.core.rd Reg.numCtrl).toNat, numThresh := (s.core.rd Reg.numThresh).toNat,
    expLoad := s.core.fld (Reg.expLoadBase d.tile) 55 0, table := s.core.fld Reg.placeEpoch 0 0 }

/-- The five extents in a shape record (R86). -/
def shapeExt (bs : List Byte) : List Nat :=
  [leField bs 0 4, leField bs 4 4, leField bs 8 4, leField bs 12 2, leField bs 14 2]

/-- A descriptor ended by a check. A rejection for its completion record's own address writes no record (R99); the error entry
carries the address at fault. -/
def State.reject (s : State) (d : Desc) (r : Reject) : State :=
  let x : Strike := { code := r.code, addr := r.addr, rec_ := (if 0x11 ≤ r.code ∧ r.code ≤ 0x15 ∧ r.detail < 4 then r.detail else 0xFF) }
  let d1 : Desc := { d with detail := r.detail, conds := [x] }
  s.complete d1 r.code true

/-- A descriptor handed on after its last check and its dumps of read roles (R485): a forward product of zero K writes its zeros
(R234). -/
def State.handOn (s : State) (id : Nat) : State :=
  match s.desc? id with
  | none => s
  | some d =>
    match d.engine with
    | 0 => if d.k = 0 ∧ d.opcode = 1 then ((s.zeroProduct d).strike id 0x01 0 0xFF).setPhase id .finished else s.plan id
    | 1 => s.planCuff id
    | _ => s.setPhase id (if d.opcode = 0x61 ∧ bitOf d.arg 6 = true then .filling else .ready)

/-- The end of admission. -/
def State.admitted (s : State) (id : Nat) : State :=
  match s.desc? id with
  | none => s
  | some d =>
    let s1 := s.matchDumps d
    if s1.dumpsLeft id 1 then s1.setPhase id .dumping
    else s1.handOn id

/-- What admission latches before its checks (R54, R97): its place in the order of admission, the step and the settings of the
descriptor's own opcode. -/
def State.latched (s : State) (id : Nat) : State :=
  ({ s with work := { s.work with nextAdm := s.work.nextAdm + 1 } } : State).updDesc id fun d =>
    { d with adm := s.work.nextAdm, step := s.core.step, latch := s.latchFor d }

/-- The descriptor's records read (R97). -/
def State.readRecs (s : State) (id : Nat) (d : Desc) : State :=
  (s.readOne id d.tile 3 0xFF (d.recBase, 32 * d.nrec)).updDesc id fun d =>
    { d with recs := bytesAt (s.core.gBytes d.recBase (32 * d.nrec)) 0 128 }

/-- The descriptor's extents taken from its shape record or its own fields (R86, R97). -/
def State.readExtents (s1 : State) (id : Nat) (d : Desc) : State :=
  let s2 := if d.flag 3 then s1.readOne id d.tile 3 0xFF (d.shapePtr, 16) else s1
  s2.updDesc id fun d => { d with ext := if d.flag 3 then shapeExt (s1.core.gBytes d.shapePtr 16) else d.ownExt }

/-- The checks from the records on (R97), for a descriptor whose own fields are good. What it reads of other modules comes first. -/
def State.admitRecords (s : State) (id : Nat) : State :=
  match s.desc? id with
  | none => s
  | some d =>
    let badBase := d.recBase % 32 != 0 || !(s.core.okRange d.recBase (32 * d.nrec))
    if badBase then s.reject d { code := 0x15, detail := 0xFF, addr := d.recBase }
    else
      let s1 := s.readRecs id d
      match s1.desc? id with
      | none => s1
      | some d =>
        if s1.core.want ≠ [] then s1
        else if d.conds ≠ [] then s1.complete d d.status true
        else
          match d.formBad s.pat with
          | some i => s1.reject d { code := 0x14, detail := i, addr := 0 }
          | none =>
            if d.flag 3 ∧ (d.shapePtr % 16 ≠ 0 ∨ s1.core.okRange d.shapePtr 16 = false) then
              s1.reject d { code := 0x15, detail := 0xFF, addr := d.shapePtr }
            else
              let s3 := s1.readExtents id d
              match s3.desc? id with
              | none => s3
              | some d =>
                if s3.core.want ≠ [] then s3
                else if d.conds ≠ [] then s3.complete d d.status true
                else
                  match s3.extentChecks d with
                  | some r =>
                    if r.detail = 0xFF ∧ r.code = 0x15 ∧ r.addr = d.compl ∧ d.cwrite = true then
                      s3.complete { d with detail := 0xFF, conds := [{ code := 0x15, addr := r.addr, rec_ := 0xFF }] } 0x15 false
                    else s3.reject d r
                  | none => s3.admitted id

/-- Whether every store of the context that submitted a descriptor has been carried out (R100); a later store only delays it. -/
def State.storesSeen (s : State) (d : Desc) : Bool := !(d.by_.any fun k => s.storesOut k.1 k.2)

/-- DESCRIPTOR_ADMIT (R97): while its generation is ahead, its fence is unmet, a boundary pauses admission, the tiles' clocks are off
(R454) or stores of its thread are under way (R100), the descriptor waits. -/
def State.takeIn (s : State) (id : Nat) : State :=
  match s.desc? id with
  | none => s
  | some d0 =>
    if d0.phase ≠ .waiting ∨ s.core.sleepState ≠ 0 ∨ s.storesSeen d0 = false then s
    else
      let s0 := s.latched id
      let d : Desc := { d0 with adm := s.work.nextAdm, step := s.core.step, latch := s.latchFor d0 }
      if 3 < d.engine then s0.reject d { code := 0x14, detail := 0xFF, addr := 0 }
      else
        match s.core.genState d.gen with
        | 1 => s
        | 2 => s0.complete d 0x30 true
        | _ =>
          if d.flag 4 && s.fenced d || s.integ.boundaryWait then s
          else if s.core.guarded d.gen then s0.reject d { code := s.core.holdStatus, detail := 0, addr := 0 }
          else if !d.ownOk then s0.reject d { code := 0x14, detail := 0xFF, addr := 0 }
          else s.withFetch (.desc id) fun s => ((s.latched id).admitRecords id).onCore fun c => c.fresh.2

/-- See `State.takeIn`. -/
def execDescriptorAdmit (id : Nat) (s : State) : Host.Outcome State Fault Refusal := s.clocked <| .next (s.takeIn id).takeWork.settle

/-! ## Completion (R98) -/

/-- Memory that a descriptor writes and no record names (R240), as global ranges: a shape record, a touch map, a load array, slices of
receive areas, its area in the Sizer's reservations. -/
def State.unnamed (s : State) (d : Desc) : List (Nat × Nat) :=
  (if d.opcode = 0x40 ∧ bitOf d.arg 12 = true then [(d.shapePtr, 4)] else []) ++
  (if (d.opcode = 0x40 ∧ bitOf d.arg 9 = true) ∨ (d.opcode = 0x41 ∧ bitOf d.arg 8 = true) then
    [(d.latch.tmapBase, touchBytes d.latch.tmapRows)] else []) ++
  (if d.opcode = 0x41 ∧ bitOf d.arg 11 = true then [(d.latch.expLoad, 16 * d.k)] else []) ++
  (if d.opcode = 0x41 then d.replicas.flatMap (s.slice d) else []) ++
  (s.work.resv.filter fun r => r.desc == d.id).flatMap fun r => r.units.map fun u => (s.core.global u, 0x4000)

/-- The parts of one descriptor's unnamed memory that lie in the spans of another's records. -/
def State.mixes (s : State) (d e : Desc) : List (Nat × Nat) := s.inSpans (s.unnamed d) e

/-- Software has placed unnamed memory in a record's span (R240): the values there are undefined, and the outputs of the descriptors
that the records belong to. -/
def State.mixUp (s : State) (d : Desc) : State :=
  let hit := s.work.descs.flatMap fun e => s.mixes d e ++ (if e.id = d.id then [] else s.mixes e d)
  let s1 := s.onCore fun c => hit.foldl (fun c r => if c.isLocal r.1 then c.scramble (gaLocal r.1) r.2 else c) c
  s.work.descs.foldl (fun s e => if (s1.mixes d e).isEmpty && (e.id != d.id || hit.isEmpty) then s
    else s.updDesc e.id fun x => { x with mixed := true }) s1

/-- DESCRIPTOR_COMPLETE: a descriptor whose outputs are issued and acknowledged, and whose dumps are read, completes. -/
def State.completeNow (s : State) (id : Nat) : State :=
  match s.desc? id with
  | none => s
  | some d =>
    if d.phase = .finished ∧ d.acks = 0 ∧ s.dumpsLeft id 0 = false then
      let s1 := s.mixUp d
      match s1.desc? id with
      | none => s1
      | some d => s1.completeDone d
    else s

/-- See `State.completeNow`. -/
def execDescriptorComplete (id : Nat) (s : State) : Host.Outcome State Fault Refusal :=
  s.clocked <| .next (s.completeNow id).takeWork.settle

/-! ## Generations (R93, R95) -/

/-- A write to GEN_DOMAIN_d (R93): ignored when the window would exceed 2,047 or the floor would move back. -/
def State.genWrite (s : State) (d : Nat) (v : Word) : State :=
  let cur := getF v 11 0
  let floor := getF v 27 16
  let old := s.core.fld (Reg.genDomain d) 27 16
  if 16 ≤ d ∨ 2047 < (cur + 4096 - floor) % 4096 ∨ 2047 < (floor + 4096 - old) % 4096 then s
  else s.onCore fun c => c.wr (Reg.genDomain d) (v &&& 0x0FFF_0FFF)

/-- See `State.genWrite`. -/
def execGenDomainWrite (d : Nat) (v : Word) (s : State) : Host.Outcome State Fault Refusal := s.clocked <| .next (s.genWrite d v)

/-- Dumps of a descriptor that ends before it reads: their requests stay armed (R485). -/
def State.rearm (s : State) (id : Nat) : State :=
  let js := s.work.dumps.filter fun j => j.desc == id && !j.begun
  { s with core := js.foldl (fun c j => c.setBit (Reg.dumpSel j.req) 26 true) s.core,
           work := { s.work with dumps := s.work.dumps.filter fun j => !(js.contains j) } }

/-- The shares and jobs that a stopped descriptor leaves (R137, R172). DESIGN CHOICE (log entry 102): those of one that a hold stops
(R413) count too. -/
def State.countAbandoned (s : State) (d : Desc) : State :=
  s.onCore fun c =>
    let c1 := (s.work.shares.filter fun h => h.desc == d.id).foldl (fun c h => c.bump (Reg.mittCancelled h.tile) 1) c
    if d.engine = 1 then (s.work.jobs.filter fun j => j.desc == d.id).foldl (fun c j => c.bump (Reg.cuffCancelled j.tile) 1) c1 else c1

/-- A descriptor past admission stopped with a status (R95, R413): outputs of one that runs are left undefined, and a dump of them
still to come is made before it completes (R485); a bucket is given up with what its contributions met (R104, R359). -/
def State.stopDesc (s : State) (d : Desc) (st : Nat) : State :=
  let running : Bool := d.phase == Phase.running
  let s1 := if running || d.phase == Phase.ready then s.countAbandoned d else s
  let s1 := if running then s1.mixUp d else s1.rearm d.id
  -- a dispatch leaves what it has written as written, and a return that runs has written nothing (R226)
  let keeps : Bool := st == 0x30 && (d.opcode == 0x41 || (d.opcode == 0x42 && bitOf d.arg 0))
  let s2 := if running && !keeps then s1.scrambleOutputs d else s1
  let bucket := s.red.buckets.find? fun b => b.desc == d.id && s.core.bucketLive b.idx
  let s3 : State := match bucket with
    | some b => s2.dropBucket d b.idx
    | none => s2
  let met : List Strike := (bucket.map fun b => b.conds d s.core).getD []
  let e : Desc := { d with conds := d.conds ++ met ++ [{ code := st, addr := 0, rec_ := 0xFF }], left := true }
  if running && s3.dumpsLeft d.id 0 then s3.park e else s3.complete e e.status true

/-- Whether a message is a packet of a contribution that a RED_SEND makes (R351). -/
def Send.packet (y : Send) (me : Nat) (m : Msg) : Bool :=
  m.src == me && m.cls == 2 && [1, 2].contains (leField m.bytes 0 1) && redTag m.bytes ==
    { kind := leField m.bytes 0 1, gen := y.gen, rank := y.rank, land := y.landing }

/-- A RED_SEND whose generation has retired (R359): its packets that have not left are not sent. Once its header has left, an
abandon reply follows; before, the contribution is missing. A contribution whose last group has left goes on. -/
def State.abandonSend (s : State) (d : Desc) (y : Send) : State :=
  let mine := y.packet s.core.moduleNo
  let left := (s.core.msgOut.filter mine) ++ (s.net.rxMsgs.filter fun m => m.link == 12 && mine m)
  if left = [] then s
  else
    let s1 : State := { s with core := { s.core with msgOut := s.core.msgOut.filter fun m => !(mine m) },
                               net := { s.net with rxMsgs := s.net.rxMsgs.filter fun m => !(m.link == 12 && mine m) },
                               red := { s.red with sends := s.red.sends.erase y } }
    let s2 := if left.any fun m => leField m.bytes 0 1 = 1 then s1
      else s1.sendRed (gaModule y.landing) (redReply 6 0 y.gen y.rank y.landing)
    let e : Desc := { d with conds := d.conds ++ [{ code := 0x30, addr := 0, rec_ := 0xFF }] }
    s2.complete e e.status true

/-- DESCRIPTOR_CANCEL (R95): a descriptor past admission whose generation has retired stops with CANCELLED, unless it has
issued its last output write. A dump copy that has begun ends first (R485). -/
def State.cancel (s : State) (id : Nat) : State :=
  match s.desc? id with
  | none => s
  | some d =>
    if s.core.genState d.gen ≠ 2 ∨ d.phase = .waiting ∨ d.pastFirst = true ∨ (s.work.dumps.any fun j => j.desc == id && j.begun) then s
    else if d.phase = .finished then
      match s.red.sends.find? fun y => y.desc == id with
      | some y => s.abandonSend d y
      | none => s
    else s.stopDesc d 0x30

/-- See `State.cancel`. -/
def execDescriptorCancel (id : Nat) (s : State) : Host.Outcome State Fault Refusal := s.clocked <| .next (s.cancel id).takeWork.settle

/-! ## The module number (R77) -/

/-- Whether a peer partner context, KIND 3 or 4 (R393), is live. -/
def Core.peerLive (c : Core) : Bool := (List.range 4096).any fun x => [3, 4].contains (c.fld (Reg.pcCtrl x) 2 0) && c.pcLive x

/-- A write to MODULE_NO: ignored while a peer partner context is live. -/
def State.moduleWrite (s : State) (v : Word) : State :=
  if s.core.peerLive then s else s.onCore fun c => c.wr Reg.moduleNo (v &&& 0x8000_0FFF)

/-- See `State.moduleWrite`. -/
def execModuleNoWrite (v : Word) (s : State) : Host.Outcome State Fault Refusal := s.clocked <| .next (s.moduleWrite v)

/-! ## Dump copies (R485 to R487) -/

/-- A descriptor kept by its read-role dumps goes on once they are made (R485): to the Sizer, or, when a hold has begun meanwhile that
guards it, to its end (R413). What a product of zero K reads of other modules comes first. -/
def State.dumpDone (s : State) : State :=
  match s.work.descs.find? fun d => d.phase == .dumping && !(s.dumpsLeft d.id 1) with
  | none => s
  | some d => if s.core.guarded d.gen then s.stopDesc d s.core.holdStatus else s.withFetch (.desc d.id) fun s => s.handOn d.id

/-- TENSOR_DUMP_COPY: the next dump is copied; a descriptor kept by its last read-role dump goes on. -/
def State.dumpCopy (s : State) : State :=
  match s.dumpNow with
  | none => s.dumpDone
  | some (d, j) => (if j.begun then s.pushDump j else s.withFetch (.desc d.id) fun s => s.beginDump d j).dumpDone

/-- See `State.dumpCopy`. -/
def execTensorDumpCopy (s : State) : Host.Outcome State Fault Refusal := s.clocked <| .next s.dumpCopy.takeWork.settle

/-- DUMP_NEXT_WRITE (R490): a copy that its queue holds runs on, and the write waits for its end. -/
def execDumpNextWrite (v : Word) (s : State) : Host.Outcome State Fault Refusal := s.clocked <| .next (s.dumpNextWrite v.toNat)

/-! ## Run-ahead (R193 to R197) -/

/-- A descriptor as run-ahead sees it: one past admission as it is; before, with its records read now and the latches it would have,
none if they do not pass the checks of R89, which depend on extents only without SHAPE_IND. -/
def State.aheadView (s : State) (d : Desc) : Option Desc :=
  if d.phase ≠ .waiting then some d
  else if d.recBase % 32 ≠ 0 ∨ s.core.okRange d.recBase (32 * d.nrec) = false then none
  else
    let e : Desc := { d with recs := bytesAt (s.core.gBytes d.recBase (32 * d.nrec)) 0 128, latch := s.latchFor d,
                             ext := if d.flag 3 then d.ownExt.set 0 (64 * d.planned 0) else d.ownExt }
    if e.ownOk && (e.formBad s.pat).isNone && (e.flag 3 || (s.extentBad e).isNone) then some e else none

/-- Descriptors in rising order of a number. -/
def sortDescs (f : Desc → Nat) : List Desc → List Desc
  | [] => []
  | d :: ds =>
    let r := sortDescs f ds
    (r.takeWhile fun e => decide (f e < f d)) ++ d :: r.dropWhile fun e => decide (f e < f d)

/-- The two earliest-admitted RUN_CHAIN descriptors of a tile that have not started (R193): those past admission in its order, then
those that wait for it in the order of their submission. -/
def State.aheadCandidates (s : State) (t : Nat) : List Desc :=
  (sortDescs (fun d => if d.phase = .waiting then s.work.nextAdm + d.id else d.adm) (s.work.descs.filter fun d =>
    d.tile == t && d.opcode == 0x40 && d.engine == 2 && (d.phase == .waiting || d.phase == .dumping || d.phase == .ready))).take 2

/-- Whether run-ahead may serve a descriptor that it has not served (R193). -/
def State.aheadOk (s : State) (d : Desc) : Bool :=
  !(d.flag 5) && !(d.flag 4 && s.fenced d) && (d.phase != .waiting || s.storesSeen d) && s.core.genState d.gen != 2 && !(s.work.ra.any fun b => b.desc == d.id)

/-- Run-ahead counts of one read (R197, R489). -/
def Core.countAhead (c : Core) (t ga n : Nat) : Core :=
  let c1 := ((c.countAccess t 1 .rd ga n).bump (Reg.gloveRaBytes t) n).bump (Reg.gloveGatherBytes t) n
  if c1.isLocal ga then
    match c1.place (gaLocal ga) with
    | .hbm => c1.bump (Reg.tcntRaHbm t) n
    | .ddr => c1.bump (Reg.tcntRaDdr t) n
    | _ => c1
  else c1.bump (Reg.tcntRaRemote t) n

/-- What run-ahead reads of one index entry (R194): its range and, where gather would read a row first, the row's ranges and number. No
row under SHAPE_IND before admission has read the shape record, when its width is not known; none for an index that R181 would drop or
outside mapped memory. Under AUX 2 the segment offsets `offs` say which entries are pads (log entry 80). -/
def State.aheadEntry (s : State) (d : Desc) (offs : List Int) (i : Nat) : Nat × List (Nat × Nat) × List (Nat × Nat) × Nat :=
  let t0 := s.tensor d 0
  let t1 := s.tensor d 1
  let v := s.core.pattern t0 [i, 0, 0, 0, 0]
  let row := match d.classify (segmentOf offs d.b0 i) i v with
    | .entry _ r => if (d.flag 3 = true ∧ d.phase = Phase.waiting) ∨ (d.flag 6 = true ∧ bitOf v (fmtBits t0.r.fmt - 1) = true) then none else some r
    | _ => none
  let rr := (row.map fun r => t1.ranges (rowIdx d.n r)).getD []
  let rr := if rr.all fun r => s.core.okRange r.1 r.2 then rr else []
  (v, t0.ranges [[i, 0, 0, 0, 0]], rr, row.getD 0)

/-- The ranges of the segment offsets, which run-ahead looks up under AUX 2. -/
def State.aheadOffs (s : State) (d : Desc) : List (Nat × Nat) :=
  if d.argF 6 5 = 2 then (let t3 := s.tensor d 3; t3.ranges t3.all) else []

/-- The index entries that run-ahead reads, in position order within 128 KiB with their rows (R194). -/
def State.aheadReads (s : State) (d : Desc) : List (Nat × Nat × List (Nat × Nat) × List (Nat × Nat) × Nat) :=
  let offs := if d.argF 6 5 = 2 ∧ (s.aheadOffs d).all (fun r => s.core.okRange r.1 r.2) = true then s.offsets d else []
  let all := ((List.range d.m).map fun i => (i, s.aheadEntry d offs i)).filter fun p => p.2.2.1.all fun r => s.core.okRange r.1 r.2
  (all.foldl (fun (acc : List (Nat × Nat × List (Nat × Nat) × List (Nat × Nat) × Nat) × Nat) p =>
    let n := acc.2 + rangeBytes p.2.2.1 + rangeBytes p.2.2.2.1
    if n ≤ 131072 then (acc.1 ++ [p], n) else (acc.1, 131073)) ([], 0)).1

/-- The lines of ranges whose bytes hold an uncorrectable error, here or as another module answered. -/
def Core.badLines (c : Core) (rs : List (Nat × Nat)) : List Nat :=
  rs.flatMap fun r => (c.ueLines r.1 r.2).map (fun l => c.global (l * 64)) ++
    ((c.mine.filter fun f => f.status == 0x22 && rangesMeet (f.ga, f.n) r).map (·.ga))

/-- One descriptor served by run-ahead. Its records, index entries and rows in other modules are fetched first, in that order; what
such a fetch does not deliver is read afresh by the descriptor. -/
def State.aheadFill (s : State) (d : Desc) : State :=
  let s0 := if d.phase = .waiting then s.needFor 1 2 [(d.recBase, 32 * d.nrec)] else s
  if s0.core.want ≠ [] then s0
  else match s.aheadView d with
  | none => s
  | some e =>
    let t1 := s.tensor e 1
    let idx := (s.aheadReads e).flatMap (·.2.2.1)
    let s1 := s.needFor 1 0 (idx ++ s.aheadOffs e)
    if s1.core.want ≠ [] then s1
    else
      let lost := fun (rs : List (Nat × Nat)) => s.core.mine.any fun f => f.status != 0 && f.status != 0x22 && rs.any (rangesMeet (f.ga, f.n))
      let rs := (s.aheadReads e).filter fun p => !(lost p.2.2.1)
      let rows := rs.flatMap (·.2.2.2.1)
      let s2 := s.needFor 1 1 rows
      if s2.core.want ≠ [] then s2
      else
        let kept := rs.map fun p => (p.1, p.2.1, if p.2.2.2.1 = [] ∨ lost p.2.2.2.1 = true then []
          else (rowIdx e.n p.2.2.2.2).map (s.core.lane t1))
        let bad := rs.flatMap fun p => (s.core.badLines p.2.2.1).map (fun a => (p.1, false, a)) ++
          (s.core.badLines p.2.2.2.1).map fun a => (p.1, true, a)
        let ranges := rs.flatMap fun p => p.2.2.1 ++ p.2.2.2.1
        let c1 := ranges.foldl (fun c r => (c.ueLines r.1 r.2).foldl (fun c l => c.countMemErr (l * 64) true)
          (c.countAhead d.tile r.1 r.2)) s.core
        let fb := (kept.zip rs).flatMap fun p => if p.1.2.2 = [] then [] else rowIdx e.n p.2.2.2.2.2
        { s with core := (c1.bump Reg.numFbReads (s.core.fallbacks t1 fb).length).fresh.2,
                 work := { s.work with ra := s.work.ra ++
                   [{ tile := d.tile, desc := d.id, gen := d.gen, bytes := rangeBytes ranges, rows := kept, ue := bad }] } }

/-- RUN_AHEAD_READ: while RA_EN is set, the Glove reads ahead for the candidates it may serve. -/
def State.runAhead (s : State) (t : Nat) : State :=
  if s.core.bit (Reg.gloveCtrl t) 1 then
    (s.aheadCandidates t).foldl (fun s d => if s.aheadOk d then s.withFetch (.ahead d.id) (fun s => s.aheadFill d) else s) s
  else s

/-- See `State.runAhead`. -/
def execRunAheadRead (t : Nat) (s : State) : Host.Outcome State Fault Refusal := s.clocked <| .next (s.runAhead t)

end Sys2Proof.Machine
end

