-- ==== Sys2Proof/Machine/Flags.lean ====
section
/-! DEFINITION. The comparisons and selections of Palm and Band (R289, R290, R297): branch conditions on 64-bit words,
lane conditions on FP32 values, and minimum and maximum. -/

namespace Sys2Proof.Machine

/-- A branch condition (R289): 0 eq, 1 ne, 2 lt, 3 ge, 4 ltu, 5 geu. Codes 6 and 7 are illegal. -/
def branchCond (cond : Nat) (a b : Word) : Option Bool :=
  match cond with
  | 0 => some (a == b)
  | 1 => some (a != b)
  | 2 => some (a.slt b)
  | 3 => some (!(a.slt b))
  | 4 => some (a.ult b)
  | 5 => some (!(a.ult b))
  | _ => none

/-- A lane condition (R290): 0 eq, 1 ne, 2 lt, 3 le, 4 unordered, under IEEE 754. -/
def laneCond (cond : Nat) (a b : Lane) : Option Bool :=
  match cond with
  | 0 => some (fEq a b)
  | 1 => some (!(fEq a b))
  | 2 => some (fLt a b)
  | 3 => some (fLt a b || fEq a b)
  | 4 => some (isNanL a || isNanL b)
  | _ => none

/-- The FP32 minimum or maximum. With a NaN, or with two zeros of different sign, the result is open. -/
def minMax (isMax : Bool) (a b : Lane) : Lane :=
  if isNanL a || isNanL b || (fAbs a == 0 && fAbs b == 0 && a != b) then Config.minMaxOpen isMax a b
  else if fLt a b then (if isMax then b else a) else (if isMax then a else b)

/-- The sign of a lane (R290, R303): +1, -1, or +0 for a zero and a NaN. -/
def signLane (a : Lane) : Lane :=
  if isNanL a || fAbs a == 0 then 0 else if a.getLsbD 31 then 0xBF80_0000 else 0x3F80_0000

/-- FP32 to a signed integer of `w` bits toward zero: `none` when the value is a NaN or has no such integer. -/
def truncInt (w : Nat) (a : Lane) : Option Int :=
  match valOf a with
  | .fin neg m e =>
    let q := roundAt .trunc m e 0
    let v : Int := if neg then -(q : Int) else q
    if -((2 ^ (w - 1) : Nat) : Int) ≤ v ∧ v < ((2 ^ (w - 1) : Nat) : Int) then some v else none
  | _ => none

/-- FP32 to int32 toward zero, saturating, NaN to 0 (R290). -/
def satInt32 (a : Lane) : Lane :=
  match truncInt 32 a with
  | some v => BitVec.ofInt 32 v
  | none => if isNanL a then 0 else if a.getLsbD 31 then 0x8000_0000 else 0x7FFF_FFFF

end Sys2Proof.Machine
end

