-- ==== Sys2Proof/Machine/Band.lean ====
section
/-! DEFINITION. Band's groups (R297, R298, R302, R307, R311), the placement epoch (R223, R230), the fallback store's registers
(R267, R269) and the detectors (R409 to R414). -/

namespace Sys2Proof.Machine

/-! ## The schedule (R297) -/

/-- The restart period that holds `m`: the rest of `m`, the period's length and its number. Once the length cannot grow
any more, whole periods are taken out at once. -/
def restart (mult : Nat) : Nat → Nat → Nat → Nat → Nat × Nat × Nat
  | 0, m, t, k => (m, t, k)
  | f + 1, m, t, k =>
    if m < t then (m, t, k)
    else if mult ≤ 1 ∨ t = 2 ^ 32 - 1 then (m % t, t, k + m / t)
    else restart mult f (m - t) (min (t * mult) (2 ^ 32 - 1)) (k + 1)

/-- The decay `d` of the schedule for `m` steps of a span of `t`. -/
def decayShape (kind m t : Nat) (floor gamma : Lane) : Lane :=
  let one : Lane := 0x3F80_0000
  let q := fDiv (ofNatL m) (ofNatL t)
  if t = 0 then one
  else match kind with
    | 1 => fAdd floor (fMul (fSub one floor) (fSub one q))
    | 2 => fAdd floor (fMul (fMul (fSub one floor) 0x3F00_0000)
        (fAdd one (cosFree (fDiv (fMul 0x4049_0FDB (ofNatL m)) (ofNatL t)))))
    | 3 => minMax true floor (powFree gamma q)
    | 4 => minMax true floor (powFree gamma (ofIntL ((truncInt 64 q).getD 0)))
    | _ => one

/-- η, ηWD and PERIOD_NO of group `g` for its COUNT (R297). A disabled group reads +0. -/
def Core.schedule (c : Core) (g : Nat) : Lane × Lane × Nat :=
  let lane := fun (r hi lo : Nat) => BitVec.ofNat 32 (c.fld r hi lo)
  let n := c.fld (Reg.grpCount g) 47 0
  let warm := c.fld (Reg.grpSpan g) 31 0
  let kind := c.fld (Reg.grpCtrl g) 6 4
  let p0 := c.fld (Reg.grpRestart g) 31 0
  let one : Lane := 0x3F80_0000
  let w := if warm ≤ n then one else fDiv (ofNatL (n + 1)) (ofNatL warm)
  let r := restart (c.fld (Reg.grpRestart g) 35 32) 64 (n - warm) p0 0
  let span := c.fld (Reg.grpSpan g) 63 32
  let shape := fun (m t : Nat) => decayShape kind m t (lane (Reg.grpLr g) 63 32) (lane (Reg.grpWd g) 63 32)
  let flat := decide (n < warm) || kind == 0
  let d := if flat then one else if 0 < p0 then shape r.1 r.2.1 else shape (min (n - warm) span) span
  let eta := fMul (fMul (lane (Reg.grpLr g) 31 0) w) d
  if c.bit (Reg.grpCtrl g) 0 then (eta, fMul eta (lane (Reg.grpWd g) 31 0), if flat ∨ p0 = 0 then 0 else r.2.2)
  else (0, 0, 0)

/-- The causes of sign mode of a group: start-up, recovery, test (R302). -/
def Core.signCauses (c : Core) (g : Nat) : Bool × Bool × Bool :=
  (decide (c.fld (Reg.grpCount g) 47 0 < c.fld (Reg.grpCtrl g) 31 16), decide (0 < c.fld (Reg.grpCtrl g) 47 32),
   c.bit (Reg.grpCtrl g) 2)

/-- The group's open step evaluated: GRP_ETA and GRP_STATE (R297, R302, R307, R311). -/
def Core.evalGroup (c : Core) (g : Nat) : Core :=
  let e := c.schedule g
  let s := c.signCauses g
  let n := c.fld (Reg.grpCount g) 47 0
  let every := c.fld (Reg.grpRoot g) 31 0
  let due := decide (0 < every) && decide (n ≠ 0) && decide (n % every = 0)
  let st := (s.1 || s.2.1 || s.2.2).toNat + 2 * s.1.toNat + 4 * s.2.1.toNat + 8 * s.2.2.toNat + 16 * due.toNat +
    32 * (decide (n < c.fld (Reg.grpSpan g) 31 0)).toNat + 2 ^ 16 * min e.2.2 0xFFFF
  (c.wr (Reg.grpEta g) (BitVec.ofNat 64 (e.1.toNat + 2 ^ 32 * e.2.1.toNat))).wr (Reg.grpState g) (BitVec.ofNat 64 st)

/-- λ of a step from its ηWD (R298): 0 when ηWD is negative, a NaN, or at least 1. -/
def decayStep (x : Lane) : Word :=
  if isNanL x || fAbs x == 0 || fLt x 0 || !(fLt x 0x3F80_0000) then 0 else lambdaFree x

/-- A group register by its number, 8 bytes apart: 0 GRP_CTRL to 9 GRP_ROOT. -/
def grpReg (g r : Nat) : Nat := Reg.grpCtrl g + 8 * r

/-- A store to a schedule register of a group (R309, R311): GRP_CTRL, GRP_LR, GRP_SPAN, GRP_RESTART, GRP_WD and GRP_ROOT,
numbers 0 to 4 and 9. A DECAY of 5 to 7 is not taken. The open step is evaluated again; Λ and λ stay. -/
def State.scheduleWrite (s : State) (g r : Nat) (v : Word) : State :=
  if g < 256 ∧ (r ≤ 4 ∨ r = 9) then
    let m := (bandMasks (0x1000 + 8 * r)).1
    let v1 := v &&& BitVec.ofNat 64 m
    let v2 := if r = 0 ∧ 4 < getF v 6 4 then setF v1 6 4 (s.core.fld (Reg.grpCtrl g) 6 4) else v1
    s.onCore fun c => (c.wr (grpReg g r) v2).evalGroup g
  else s

/-- GROUP_SCHEDULE_WRITE. -/
def execGroupScheduleWrite (g r : Nat) (v : Word) (s : State) : Host.Outcome State Fault Refusal := s.clocked <| .next (s.scheduleWrite g r v)

/-- A store to GRP_COUNT or GRP_LAMBDA, numbers 5 and 6: taken only while EN is 0 (R311). -/
def State.restoreWrite (s : State) (g r : Nat) (v : Word) : State :=
  if g < 256 ∧ s.core.bit (Reg.grpCtrl g) 0 = false then
    (match r with
    | 5 => s.onCore fun c => c.wr (Reg.grpCount g) (BitVec.ofNat 64 (v.toNat % 2 ^ 48))
    | 6 => s.onCore fun c => c.wr (Reg.grpLambda g) v
    | _ => s)
  else s

/-- GROUP_RESTORE_WRITE. -/
def execGroupRestoreWrite (g r : Nat) (v : Word) (s : State) : Host.Outcome State Fault Refusal := s.clocked <| .next (s.restoreWrite g r v)

/-- BAND_STEP written: ignored while a boundary runs (R309). -/
def State.stepWrite (s : State) (v : Word) : State :=
  if s.integ.boundaryWait then s else s.onCore fun c => c.wr Reg.bandStep (BitVec.ofNat 64 (v.toNat % 2 ^ 48))

/-- BAND_STEP_WRITE. -/
def execBandStepWrite (v : Word) (s : State) : Host.Outcome State Fault Refusal := s.clocked <| .next (s.stepWrite v)

/-! ## Placement and the fallback store -/

/-- PLACE_EPOCH_REQ (R223). -/
def execPlaceEpochReq (s : State) : Host.Outcome State Fault Refusal :=
  s.clocked <| .next (s.onCore fun c => c.setBit Reg.placeCtrl 0 true)

/-- PLACE_EPOCH_CANCEL (R223). -/
def execPlaceEpochCancel (s : State) : Host.Outcome State Fault Refusal :=
  s.clocked <| .next (s.onCore fun c => c.setBit Reg.placeCtrl 0 false)

/-- PLACE_EPOCH written: taken only while no EXPERT_DISPATCH is admitted or running (R230). -/
def State.placeWrite (s : State) (v : Word) : State :=
  if s.work.descs.any fun d => d.engine == 2 && d.opcode == 0x41 && d.phase != .waiting then s
  else s.onCore fun c => c.wr Reg.placeEpoch (BitVec.ofNat 64 (v.toNat % 2 ^ 32))

/-- PLACE_EPOCH_WRITE. -/
def execPlaceEpochWrite (v : Word) (s : State) : Host.Outcome State Fault Refusal := s.clocked <| .next (s.placeWrite v)

/-- NUM_FB_BASE written: taken only when bits [43:0] are 256-byte aligned and lie in HBM job space (R269). -/
def State.fbBaseWrite (s : State) (v : Word) : State :=
  let a := v.toNat % 2 ^ 44
  if a % 256 = 0 ∧ s.core.hbmJob a = true then s.onCore fun c => c.wr Reg.numFbBase (BitVec.ofNat 64 (v.toNat % 2 ^ 56)) else s

/-- NUM_FB_BASE_WRITE. -/
def execNumFbBaseWrite (v : Word) (s : State) : Host.Outcome State Fault Refusal := s.clocked <| .next (s.fbBaseWrite v)

/-- NUM_FB_NEXT_WRITE (R267): each grant is one step, so the write falls between two. -/
def execNumFbNextWrite (v : Word) (s : State) : Host.Outcome State Fault Refusal :=
  s.clocked <| .next (s.onCore fun c => c.wr Reg.numFbNext (BitVec.ofNat 64 (v.toNat % 2 ^ 32)))

/-! ## The detectors -/

/-- The enabled groups, ascending. -/
def Core.enabledGroups (c : Core) : List Nat := (List.range 256).filter fun g => c.bit (Reg.grpCtrl g) 0

/-- A group held (R412): HOLD set, SIGN_RECOVER raised to DET_RECOVER under SIGN_ACT and the open step evaluated again. -/
def Core.holdGroup (c : Core) (g : Nat) : Core :=
  let c1 := c.setBit (Reg.grpCtrl g) 1 true
  let rec_ := c.fld Reg.detRecover 15 0
  if c.bit Reg.detCtrl 3 = true ∧ c.fld (Reg.grpCtrl g) 47 32 < rec_ then (c1.setFld (Reg.grpCtrl g) 47 32 rec_).evalGroup g else c1

/-- The body of a detector entry (R416): DET_LOSS, the average, the non-finite rise, the cause bits. The spec names the
contents and not their places. -/
def detBody (loss avg rise causes : Nat) : List Byte := leBytes 4 loss ++ leBytes 4 avg ++ leBytes 8 rise ++ leBytes 1 causes

/-- The error entry and the detector entry of a hold (R412, step 4). Its STATUS is the hold status (DEDUCED: R412 reports a check with
both causes as a veto). -/
def State.holdReport (s : State) (rise causes : Nat) : State :=
  let s1 := s.onCore fun c => c.err { type := 3, status := c.holdStatus, event := 0x50 }
  s1.jnlAppend 3 s.core.step (detBody (s.core.fld Reg.detLoss 31 0) (s.core.fld Reg.detAvg 31 0) rise causes) []

/-- The open step held (R412): `causes` is 2 VETO, 4 SPIKE, 8 SOFT. A further check while held adds its bits and reports
again, and repeats nothing else. -/
def State.holdStep (s : State) (rise causes : Nat) : State :=
  let first := !s.core.held
  let s1 := s.onCore fun c => c.wr Reg.detStatus (c.rd Reg.detStatus ||| BitVec.ofNat 64 (1 + causes))
  let s2 : State := { s1 with integ := { s1.integ with prev := s1.integ.prev ||| 2 ||| (2 * causes % 16 / 4 * 4) } }
  if first then
    let s3 := s2.onCore fun c => { ((c.enabledGroups).foldl Core.holdGroup c).bump Reg.detHolds 1 with events := c.events ++ [1] }
    s3.holdReport rise causes
  else if causes = 8 then s2
  else s2.holdReport rise causes

/-- DET_CHECK (R409): CHECK reads 1 until the check is evaluated. -/
def execDetCheck (s : State) : Host.Outcome State Fault Refusal := s.clocked <| .next (s.onCore fun c => c.setBit Reg.detCtrl 0 true)

/-- DET_HOLD (R412). -/
def execDetHold (s : State) : Host.Outcome State Fault Refusal := s.clocked <| .next (s.holdStep 0 8).settle

/-- The spike test (R411). -/
def Core.spike (c : Core) (x : Lane) : Bool :=
  let m : Lane := BitVec.ofNat 32 (c.fld Reg.detAvg 31 0)
  let seen := c.fld Reg.detAvg 47 32
  let factor : Lane := BitVec.ofNat 32 (c.fld Reg.detParam 31 0)
  isFinL x && decide (0 < seen) && decide (c.fld Reg.detParam 51 36 ≤ seen) &&
    fLt (fMul (fSub factor 0x3F80_0000) (fAbs m)) (fSub x m)

/-- The average moved by a check that neither vetoes nor spikes (R411). -/
def Core.moveAverage (c : Core) (x : Lane) : Core :=
  let m : Lane := BitVec.ofNat 32 (c.fld Reg.detAvg 31 0)
  let seen := c.fld Reg.detAvg 47 32
  let pow := BitVec.ofNat 32 ((127 - c.fld Reg.detParam 35 32) * 2 ^ 23)
  let m1 := if seen = 0 then x else fAdd m (fMul (fSub x m) pow)
  c.wr Reg.detAvg (BitVec.ofNat 64 (m1.toNat + 2 ^ 32 * min (seen + 1) 65535))

/-- DET_CHECK_EVALUATE (R409 to R412): a requested check, once no boundary runs. -/
def State.evaluate (s : State) : State :=
  if s.core.bit Reg.detCtrl 0 = true ∧ s.integ.boundaryWait = false then
    let x : Lane := BitVec.ofNat 32 (s.core.fld Reg.detLoss 31 0)
    let rise := s.core.nfTotal - s.integ.nfPrev
    let veto := decide (s.core.fld Reg.detNfLimit 31 0 < rise) || !(isFinL x)
    let spike := s.core.spike x
    let c1 := (s.core.setBit Reg.detCtrl 0 false).bump Reg.detChecks 1
    let s1 : State := { s with core := c1, integ := { s.integ with nfPrev := s.core.nfTotal } }
    if veto || spike then s1.holdStep rise (2 * veto.toNat + 4 * spike.toNat)
    else s1.onCore fun c => c.moveAverage x
  else s

/-- See `State.evaluate`. -/
def execDetCheckEvaluate (s : State) : Host.Outcome State Fault Refusal := s.clocked <| .next s.evaluate.settle

/-- DET_RELEASE (R414): HELD, the causes and every group's HOLD are cleared, and the step counts as replayed. -/
def State.release (s : State) : State :=
  if s.core.held then
    let c1 := s.core.wr Reg.detStatus 0
    { s with core := (List.range 256).foldl (fun c g => c.setBit (Reg.grpCtrl g) 1 false) c1,
             integ := { s.integ with prev := s.integ.prev ||| 16 } }
  else s

/-- See `State.release`. -/
def execDetRelease (s : State) : Host.Outcome State Fault Refusal := s.clocked <| .next s.release

/-- DET_ARM_RESET (R411). -/
def execDetArmReset (s : State) : Host.Outcome State Fault Refusal := s.clocked <| .next (s.onCore fun c => c.setFld Reg.detAvg 47 32 0)

/-- HELD_DESCRIPTOR_STOP (R413): a guarded descriptor past admission, other than a BUCKET_ARM, stops with the hold status
unless it has issued its last output write. -/
def State.heldStop (s : State) (id : Nat) : State :=
  match s.desc? id with
  | none => s
  | some d =>
    if s.core.guarded d.gen = false ∨ d.phase = .waiting ∨ d.phase = .finished ∨ (s.work.dumps.any fun j => j.desc == id && j.begun) ∨ (d.engine = 3 ∧ d.opcode = 0x62) then s
    else s.stopDesc d s.core.holdStatus

/-- See `State.heldStop`. -/
def execHeldDescriptorStop (id : Nat) (s : State) : Host.Outcome State Fault Refusal := s.clocked <| .next (s.heldStop id).takeWork.settle

end Sys2Proof.Machine
end

