-- ==== Sys2Proof/Machine/Hatbox.lean ====
section
/-! DEFINITION. The Hatbox (R420 to R428): checkpoints to the partner, the partner's log and image, and restores. -/

namespace Sys2Proof.Machine

/-! ## Regions and pages (R420) -/

/-- The region registers as pairs of base and size. -/
def Core.hbTable (c : Core) : List (Nat × Nat) :=
  (List.range 16).map fun r => ((c.rd (Reg.hbRegBase r)).toNat, (c.rd (Reg.hbRegSize r)).toNat)

/-- The pages of the regions, by local page number. -/
def tablePages (tb : List (Nat × Nat)) : List Nat :=
  tb.flatMap fun p => (List.range (p.2 / 0x4000)).map fun i => p.1 / 0x4000 + i

/-- The region and the index within it of a page. -/
def pagePlace (tb : List (Nat × Nat)) (pg : Nat) : Nat × Nat :=
  match (List.range 16).find? fun r => decide ((tb.getD r (0, 0)).1 / 0x4000 ≤ pg) &&
      decide (pg < (tb.getD r (0, 0)).1 / 0x4000 + (tb.getD r (0, 0)).2 / 0x4000) with
  | some r => (r, pg - (tb.getD r (0, 0)).1 / 0x4000)
  | none => (0, 0)

/-- The region table as 256 bytes (R424). -/
def tableBytes (tb : List (Nat × Nat)) : List Byte := tb.flatMap fun p => leBytes 8 p.1 ++ leBytes 8 p.2

/-- The 16-byte header of a PAGE: region at bytes 2 and 3, page index at 4 to 7, sequence at 8 to 15. -/
def pageKey (r : Nat × Nat) : Nat := r.1 + 2 ^ 16 * r.2

/-! ## The sender (R421, R422) -/

/-- A write of 1 to HB_CTRL.TAKE (R421, R426, R428). -/
def State.hbTake (s : State) : State :=
  if s.core.fld Reg.hbStatus 2 0 ≠ 0 then s
  else
    match s.hbPartner with
    | none => s.onCore fun c => c.hbEnd 5
    | some _ => s.onCore fun c => (c.setBit Reg.hbCtrl 0 true).setFld Reg.hbStatus 2 0 1

/-- HB_TAKE. -/
def execHbTake (s : State) : Host.Outcome State Fault Refusal := s.clocked <| .next s.hbTake

/-- HB_ABORT. -/
def execHbAbort (s : State) : Host.Outcome State Fault Refusal := s.clocked <| .next s.hbAbort.settle

/-- A message of the stream to the partner, whose answer is awaited within REMOTE_TIMEOUT. -/
def State.hbSend (s : State) (kind st a b : Nat) (data : List Byte) : State :=
  match s.hbPartner with
  | none => s
  | some m => s.onCore fun c => c.requestHatbox m (hbMsg kind st a b data)

/-- COMMIT is sent once every page is acknowledged (R425). -/
def State.hbCommit (s : State) : State :=
  if s.core.fld Reg.hbStatus 2 0 = 2 ∧ s.integ.hbFits = true ∧ s.core.pend = [] ∧ s.core.pageOut = [] then
    (s.hbSend 0x22 0 s.integ.hbSeq s.integ.hbAt (tableBytes s.core.hbTable)).onCore fun c => c.setFld Reg.hbStatus 2 0 3
  else s

/-- The checkpoint that is due begins at a boundary (R421): every changed page, or every page under FULL, becomes pending, and the stream's
first exchange goes to the partner. That exchange is a PAGE of byte 1 = 1 with the sequence and the region table, and its PAGE_ACK carries
the log capacity in bytes 8 to 15 (DESIGN CHOICE, log entry 35). -/
def State.hbBegin (s : State) : State :=
  if s.core.fld Reg.hbStatus 2 0 = 1 then
    let pages := (tablePages s.core.hbTable).eraseDups.filter fun p => s.core.bit Reg.hbCtrl 3 || !(s.core.clean.contains p)
    let s1 : State :=
      { s with core := { (s.core.setFld Reg.hbStatus 2 0 2) with pend := pages },
               integ := { s.integ with hbPages := pages, hbSent := [], hbSeq := s.integ.hbSeq + 1, hbAt := s.core.step, hbFits := false } }
    s1.hbSend 0x20 1 s1.integ.hbSeq 0 (tableBytes s1.core.hbTable)
  else s

/-- The lowest pending page. -/
def Core.nextPend (c : Core) : Option Nat := c.pend.foldl (fun m p => some (min p (m.getD p))) none

/-- One staged page sent, once the partner's log takes the checkpoint (R421). -/
def State.sendPage (s : State) (p : Nat × List Byte) : State :=
  if s.integ.hbSent.contains p.1 || !s.integ.hbFits then s
  else
    let s1 := s.hbSend 0x20 0 (pageKey (pagePlace s.core.hbTable p.1)) s.integ.hbSeq p.2
    { s1 with core := (s1.core.bump Reg.hbBytesOut 0x4000).onReserved 0x4000, integ := { s1.integ with hbSent := s1.integ.hbSent ++ [p.1] } }

/-- PAGE_COPY (R422): the next pending page is copied while the staging has room, and staged pages are sent. -/
def State.pageCopy (s : State) : State :=
  if s.core.fld Reg.hbStatus 2 0 = 2 then
    let s1 := match s.core.nextPend with
      | some p => if s.core.pageOut.length < stagingPages then s.onCore fun c => c.copyPage p else s
      | none => s
    s1.core.pageOut.foldl State.sendPage s1
  else s

/-- See `State.pageCopy`. -/
def execPageCopy (s : State) : Host.Outcome State Fault Refusal := s.clocked <| .next s.pageCopy

/-- Whether a request is the PAGE of a status byte and key. -/
def Req.isPage (r : Req) (st a : Nat) : Bool :=
  r.waiter == .hatbox && leField r.msg 0 1 == 0x20 && leField r.msg 1 1 == st && leField r.msg 2 6 == a

/-- An answer of the Hatbox to no exchange of this module: one that comes after its request's REMOTE_TIMEOUT counts in QR_LATE (R391). -/
def State.lateHb (s : State) (m : Msg) (kind : Nat) : State :=
  let key := (hbKey m.bytes, m.src, kind)
  if s.core.lateTags.contains key then
    s.onCore fun c => { c.bump Reg.qrLate 1 with lateTags := c.lateTags.filter (· != key) }
  else s

/-- The answer to a stream's first exchange (R421): a log too small for the checkpoint's pages ends it with RESULT 0x02 and nothing sent. -/
def State.capacityIn (s : State) (cap : Nat) : State :=
  let s1 := s.onCore fun c => { c with reqs := c.reqs.filter fun r => !(r.isPage 1 (s.integ.hbSeq % 2 ^ 48)) }
  if cap < s.integ.hbPages.length * (64 + 0x4000) then (s1.hbDrop 2).hbClear
  else ({ s1 with integ := { s1.integ with hbFits := true } } : State).hbCommit

/-- PAGE_ACK (R421, R422): the answer to the first exchange, or a page's staging is freed. -/
def State.pageAck (s : State) (m : Msg) : State :=
  let a := leField m.bytes 2 6
  let tb := s.core.hbTable
  if s.core.fld Reg.hbStatus 2 0 = 2 ∧ some m.src = s.hbPartner ∧ leField m.bytes 1 1 = 1 ∧ a = s.integ.hbSeq % 2 ^ 48 ∧
      s.integ.hbFits = false then s.capacityIn (leField m.bytes 8 8)
  else if s.core.fld Reg.hbStatus 2 0 = 2 ∧ some m.src = s.hbPartner ∧ leField m.bytes 1 1 = 0 ∧ leField m.bytes 8 8 = s.integ.hbSeq then
    ({ s with
      core := { s.core with pageOut := s.core.pageOut.filter fun p => pageKey (pagePlace tb p.1) != a,
                            reqs := s.core.reqs.filter fun r => !(r.isPage 0 a) },
      integ := { s.integ with hbSent := s.integ.hbSent.filter fun p => pageKey (pagePlace tb p) != a } } : State).hbCommit
  else s.lateHb m 0x20

/-- See `State.pageAck`. -/
def execPageAck (s : State) : Host.Outcome State Fault Refusal :=
  s.clocked <| .next (match s.takeMsg 0x21 with
    | some (m, s1) => s1.pageAck m
    | none => s)

/-- COMMIT_ACK (R425): HB_STEP, RESULT 0x01 and DONE; a status other than 0 fails the checkpoint. -/
def State.commitAck (s : State) (m : Msg) : State :=
  if s.core.fld Reg.hbStatus 2 0 = 3 ∧ some m.src = s.hbPartner then
    if leField m.bytes 1 1 = 0 then
      (s.onCore fun c => (c.hbEnd 1).wr Reg.hbStep (BitVec.ofNat 64 s.integ.hbAt)).hbClear
    else s.hbFail 3
  else s.lateHb m 0x22

/-- See `State.commitAck`. -/
def execCommitAck (s : State) : Host.Outcome State Fault Refusal :=
  s.clocked <| .next (match s.takeMsg 0x23 with
    | some (m, s1) => (s1.commitAck m).settle
    | none => s)

/-! ## The partner (R423 to R425, R427) -/

/-- The HATBOX region: base and size (R55). -/
def State.hbRegion (s : State) : Nat × Nat := s.pat.region 80

/-- Whether the module accepts the stream of a source: the one that HATBOX_IN names (R423). -/
def State.hbFrom (s : State) (m : Msg) : Bool := decide (s.pat.hatboxIn ≠ 0xFFFF) && s.pat.hatboxIn == m.src

/-- A message of the stream back to its sender, its data staged in the reserved channels (R29). -/
def State.hbReply (s : State) (m : Msg) (kind status a b : Nat) (data : List Byte) : State :=
  s.onCore fun c => (c.send m.src 4 (hbMsg kind status a b data)).onReserved data.length

/-- Bytes put in the HATBOX region at an offset. -/
def State.hbPut (s : State) (o : Nat) (bs : List Byte) : State :=
  s.onCore fun c => (c.put (s.hbRegion.1 + o) bs).countServed .wr (s.hbRegion.1 + o) bs.length

/-- Bytes of the HATBOX region. -/
def State.hbBytes (s : State) (o n : Nat) : List Byte := s.core.rdBytes (s.hbRegion.1 + o) n

/-- Where the image begins. -/
def imageBase : Nat := 0x1_0001_0000

/-- Where the log begins: the next 64 KiB boundary after the image. -/
def logBase (tb : List (Nat × Nat)) : Nat := roundUp (imageBase + (tb.map (·.2)).sum) 0x1_0000

/-- The offset in the image of a page. -/
def imageOffset (tb : List (Nat × Nat)) (r i : Nat) : Nat := imageBase + ((tb.take r).map (·.2)).sum + 0x4000 * i

/-- A header copy (R424). -/
def hbHeader (state sender step seq used : Nat) (tb : List Byte) : List Byte :=
  let h := leBytes 4 0x4854_4258 ++ leBytes 2 state ++ leBytes 2 sender ++ leBytes 8 step ++ leBytes 8 seq ++ leBytes 8 used ++
    bytesAt tb 0 256
  h ++ leBytes 4 (crc32 h)

/-- Whether a header copy's magic number and CRC hold. -/
def headerGood (h : List Byte) : Bool := leField h 0 4 == 0x4854_4258 && crc32 (bytesAt h 0 288) == leField h 288 4

/-- The header in force with its copy, 0 for A and 1 for B: the good copy with the higher SEQUENCE. -/
def State.hbForce (s : State) : Option (Nat × List Byte) :=
  let a := s.hbBytes 0 292
  let b := s.hbBytes 0x1000 292
  if headerGood a && (!(headerGood b) || decide (leField b 16 8 ≤ leField a 16 8)) then some (0, a)
  else if headerGood b then some (1, b) else none

/-- The region table of 256 bytes. -/
def tableOf (bs : List Byte) : List (Nat × Nat) := (List.range 16).map fun r => (leField bs (16 * r) 8, leField bs (16 * r + 8) 8)

/-- One page applied to the image. -/
def State.applyPage (s : State) (tb : List (Nat × Nat)) (r i : Nat) (bs : List Byte) : State :=
  s.hbPut (imageOffset tb r i) (bytesAt bs 0 0x4000)

/-- The first `n` pages of the log applied to the image, in log order (R425). -/
def State.applyLog (s : State) (tb : List (Nat × Nat)) (n : Nat) : State :=
  (List.range n).foldl (fun s j =>
    let o := logBase tb + j * (64 + 0x4000)
    s.applyPage tb (leField (s.hbBytes o 64) 2 2) (leField (s.hbBytes o 64) 4 4) (s.hbBytes (o + 64) 0x4000)) s

/-- A log left in STATE 2 applied again (R425). -/
def State.hbReapply (s : State) : State :=
  match s.hbForce with
  | some (k, h) =>
    if leField h 4 2 = 2 then
      let tb := tableOf (bytesAt h 32 256)
      (s.applyLog tb (leField h 24 8 / (64 + 0x4000))).hbPut (0x1000 * k)
        (hbHeader 1 (leField h 6 2) (leField h 8 8) (leField h 16 8) (leField h 24 8) (bytesAt h 32 256))
    else s
  | none => s

/-- The bytes of log that the HATBOX region leaves a sender's image. -/
def State.logRoom (s : State) (tb : List (Nat × Nat)) : Nat := s.hbRegion.2 - logBase tb

/-- The first exchange of a stream at the partner (R421, R423, R426): the log of an earlier stream is dropped and the capacity answered; a
module whose HATBOX_IN is 0xFFFF answers zero. -/
def State.streamIn (s : State) (m : Msg) : State :=
  let seq := leField m.bytes 2 6
  if s.pat.hatboxIn = 0xFFFF then s.hbReply m 0x21 1 seq 0 []
  else if s.hbFrom m then
    let s0 := s.hbReapply
    let tb := tableOf (bytesAt m.bytes 16 256)
    ({ s0 with integ := { s0.integ with hbOpen := some (seq, tb), hbIn := [] } } : State).hbReply m 0x21 1 seq (s.logRoom tb) []
  else s

/-- PAGE at the partner (R425): the page of the open stream passes through channel 31's staging to the end of the log and is acknowledged. A
page that the log has no room for is not taken. -/
def State.pageIn (s : State) (m : Msg) : State :=
  match s.hbFrom m, s.integ.hbOpen with
  | true, some (seq, tb) =>
    let s0 := s.hbReapply
    let p : HbPage := { region := leField m.bytes 2 2, page := leField m.bytes 4 4, seq := leField m.bytes 8 8 }
    let o := s.integ.hbIn.length * (64 + 0x4000)
    if p.seq % 2 ^ 48 = seq ∧ o + (64 + 0x4000) ≤ s.logRoom tb then
      let s1 := (s0.onCore fun c => c.onReserved 0x8000).hbPut (logBase tb + o) (bytesAt m.bytes 0 16 ++ List.replicate 48 0 ++ bytesAt m.bytes 16 0x4000)
      ({ s1 with integ := { s1.integ with hbIn := s1.integ.hbIn ++ [p] } } : State).hbReply m 0x21 0 (leField m.bytes 2 6) p.seq []
    else s0
  | _, _ => s

/-- See `State.pageIn`. -/
def execPage (s : State) : Host.Outcome State Fault Refusal :=
  s.clocked <| .next (match s.takeMsg 0x20 with
    | some (m, s1) => if leField m.bytes 1 1 = 1 then s1.streamIn m else s1.pageIn m
    | none => s)

/-- COMMIT at the partner (R425): the other header copy in STATE 2, the log applied to the image, the copy in STATE 1, and COMMIT_ACK. The
COMMIT of a stream that is not open here, or of another region table, is refused with status 0x02 (DESIGN CHOICE, log entry 35). -/
def State.commitIn (s : State) (m : Msg) : State :=
  if s.hbFrom m then
    let s0 := s.hbReapply
    let seq := leField m.bytes 2 6
    let step := leField m.bytes 8 8
    let raw := bytesAt m.bytes 16 256
    let tb := tableOf raw
    let old := s0.hbForce
    let copy := match old with
      | some (0, _) => 1
      | _ => 0
    let n := ((old.map fun h => leField h.2 16 8).getD 0) + 1
    let used := s.integ.hbIn.length * (64 + 0x4000)
    if s.integ.hbOpen = some (seq, tb) then
      let s1 := (s0.hbPut (0x1000 * copy) (hbHeader 2 m.src step n used raw)).applyLog tb s.integ.hbIn.length
      let s2 := s1.hbPut (0x1000 * copy) (hbHeader 1 m.src step n used raw)
      ({ s2 with integ := { s2.integ with hbOpen := none, hbIn := [] } } : State).hbReply m 0x23 0 seq step []
    else s0.hbReply m 0x23 2 seq step []
  else s

/-- See `State.commitIn`. -/
def execCommit (s : State) : Host.Outcome State Fault Refusal :=
  s.clocked <| .next (match s.takeMsg 0x22 with
    | some (m, s1) => s1.commitIn m
    | none => s)

/-- The size of the journal mirror (R424). -/
def mirrorSize : Nat := 4 * 2 ^ 30

/-- The mirror's entries that stay whole when bytes [lo, hi) of it are written. -/
def keepMirror (l : List (Nat × Nat × Nat)) (lo hi : Nat) : List (Nat × Nat × Nat) :=
  l.filter fun p => decide (hi ≤ p.1) || decide (p.1 + 64 * p.2.1 ≤ lo)

/-- One entry put in the partner's mirror, a ring as R415 (R424). -/
def State.mirrorPut (s : State) (e : List Byte) : State :=
  let h := s.integ.mirHead
  let wrap := decide (mirrorSize < h + e.length)
  let s1 := if wrap then s.hbPut (0x1_0000 + h) (List.replicate (mirrorSize - h) 0) else s
  let o := if wrap then 0 else h
  let s2 := s1.hbPut (0x1_0000 + o) e
  let kept := keepMirror (if wrap then keepMirror s.integ.mirror h mirrorSize else s.integ.mirror) o (o + e.length)
  { s2 with integ := { s2.integ with mirHead := o + e.length, mirror := kept ++ [(o, e.length / 64, leField e 8 6)] } }

/-- JOURNAL (R423, R427): an entry for the mirror, or, while a restore runs, one for the module's own region. -/
def State.journalIn (s : State) (m : Msg) : State :=
  let e := m.bytes.drop 16
  if s.core.fld Reg.hbStatus 2 0 = 4 ∧ some m.src = s.hbPartner then
    (if e.length ≤ s.jnlRegion.2 then (s.onCore fun c => c.onReserved (2 * e.length)).jnlWrite e else s)
  else if s.hbFrom m then (s.onCore fun c => c.onReserved (2 * e.length)).mirrorPut e else s

/-- See `State.journalIn`. -/
def execJournal (s : State) : Host.Outcome State Fault Refusal :=
  s.clocked <| .next (match s.takeMsg 0x24 with
    | some (m, s1) => s1.journalIn m
    | none => s)

/-! ## Restores (R427) -/

/-- A write of 1 to HB_CTRL.RESTORE (R427, R428): the region table goes to the partner. -/
def State.hbRestore (s : State) : State :=
  if s.core.fld Reg.hbStatus 2 0 ≠ 0 then s
  else
    match s.hbPartner with
    | none => s.onCore fun c => c.hbEnd 5
    | some _ => (s.onCore fun c => (c.setBit Reg.hbCtrl 2 true).setFld Reg.hbStatus 2 0 4).hbSend 0x25 0 0 0
        (tableBytes s.core.hbTable)

/-- HB_RESTORE. -/
def execHbRestore (s : State) : Host.Outcome State Fault Refusal := s.clocked <| .next s.hbRestore

/-- RESTORE_REQ at the partner: a complete header with the same region table answers with the image, the mirror's entries
from STEP onward and RESTORE_DONE; else it refuses with status 0x06. -/
def State.restoreReq (s : State) (m : Msg) : State :=
  if s.hbFrom m then
    let s0 := s.hbReapply
    match s0.hbForce with
    | some (_, h) =>
      let tb := tableOf (bytesAt m.bytes 16 256)
      let step := leField h 8 8
      if leField h 4 2 = 1 ∧ bytesAt h 32 256 = bytesAt m.bytes 16 256 then
        let pages := (List.range 16).flatMap fun r => (List.range ((tb.getD r (0, 0)).2 / 0x4000)).map fun i => (r, i)
        let s1 := pages.foldl (fun s p => s.hbReply m 0x26 0 (pageKey p) (leField h 16 8)
          (s.hbBytes (imageOffset tb p.1 p.2) 0x4000)) s0
        let s2 := (s0.integ.mirror.filter fun e => decide (step ≤ e.2.2)).foldl (fun s e =>
          s.hbReply m 0x24 0 0 0 (s.hbBytes (0x1_0000 + e.1) (64 * e.2.1))) s1
        s2.hbReply m 0x27 0 0 step []
      else s0.hbReply m 0x27 6 0 0 []
    | none => s0.hbReply m 0x27 6 0 0 []
  else s.hbReply m 0x27 6 0 0 []

/-- See `State.restoreReq`. -/
def execRestoreReq (s : State) : Host.Outcome State Fault Refusal :=
  s.clocked <| .next (match s.takeMsg 0x25 with
    | some (m, s1) => s1.restoreReq m
    | none => s)

/-- RESTORE_PAGE: an image page written into the job channels. -/
def State.restorePage (s : State) (m : Msg) : State :=
  if s.core.fld Reg.hbStatus 2 0 = 4 ∧ some m.src = s.hbPartner then
    let r := s.core.hbTable.getD (leField m.bytes 2 2) (0, 0)
    let i := leField m.bytes 4 4
    if 0x4000 * (i + 1) ≤ r.2 ∧ s.core.memRange r.1 r.2 = true then
      (s.onCore fun c => c.onReserved 0x8000).onCore fun c => (c.put (r.1 + 0x4000 * i) (bytesAt m.bytes 16 0x4000)).countServed .wr (r.1 + 0x4000 * i) 0x4000
    else s
  else s

/-- See `State.restorePage`. -/
def execRestorePage (s : State) : Host.Outcome State Fault Refusal :=
  s.clocked <| .next (match s.takeMsg 0x26 with
    | some (m, s1) => s1.restorePage m
    | none => s)

/-- RESTORE_DONE: RESULT 0x07 and DONE, every page unchanged, HB_STEP and JNL_REPLAY_PTR set; or RESULT 0x06. -/
def State.restoreDone (s : State) (m : Msg) : State :=
  if s.core.fld Reg.hbStatus 2 0 = 4 ∧ some m.src = s.hbPartner then
    if leField m.bytes 1 1 = 0 then
      let step := leField m.bytes 8 8
      let ptr := ((s.integ.jnlSteps.find? fun p => p.2 == step).map (·.1)).getD (s.core.rd Reg.jnlReplayPtr).toNat
      (s.onCore fun c =>
        { ((c.hbEnd 7).wr Reg.hbStep (BitVec.ofNat 64 step)).wr Reg.jnlReplayPtr (BitVec.ofNat 64 ptr) with
          clean := (tablePages c.hbTable).eraseDups }).hbClear
    else (s.onCore fun c => c.hbEnd 6).hbClear
  else s.lateHb m 0x25

/-- See `State.restoreDone`. -/
def execRestoreDone (s : State) : Host.Outcome State Fault Refusal :=
  s.clocked <| .next (match s.takeMsg 0x27 with
    | some (m, s1) => s1.restoreDone m
    | none => s)

/-- A store to a region register: ignored while a checkpoint is due or running; otherwise every page counts as changed
(R420, R435). `o` is its offset in the integrity block. -/
def State.hbRegWrite (s : State) (o : Nat) (v : Word) : State :=
  if s.core.fld Reg.hbStatus 2 0 = 0 ∨ s.core.fld Reg.hbStatus 2 0 = 4 then
    s.onCore fun c => { c.wr (0x1A_0000 + o) (v &&& BitVec.ofNat 64 (integMasks o).1) with clean := [] }
  else s

end Sys2Proof.Machine
end

