-- ==== Sys2Proof/Machine/Lanes.lean ====
section
/-! DEFINITION. The lanes of a Quiras link (R374, R375, R383): what a frame puts on them, and a position's move to the spare lane,
which software, a calibration round or Darn asks for. -/

namespace Sys2Proof.Machine

/-- A link. -/
def State.link (s : State) (l : Nat) : Link := s.links.getD l Link.initial

/-- A link put back. -/
def State.putLink (s : State) (l : Nat) (x : Link) : State := { s with links := s.links.set l x }

/-- QL_STATUS.STATE: 0 DOWN, 1 TRAINING, 2 UP, 3 RECOVERY. -/
def Core.linkState (c : Core) (l : Nat) : Nat := c.fld (Reg.qlStatus l) 1 0

/-- Whether a link exists and is UP. -/
def Core.linkUp (c : Core) (l : Nat) : Bool := decide (l < 12) && c.linkState l == 2

/-- Header bits [47:0] of a frame (R375). -/
def frameHdr (seq cls fkind src dest : Nat) : Nat :=
  seq % 4096 + 2 ^ 12 * (cls % 8) + 2 ^ 15 * (fkind % 4) + 2 ^ 17 * (src % 4096) + 2 ^ 29 * (dest % 4096)

/-- The 272 bytes of a frame: header with its CRC, payload, parity (R374, R375). -/
def frameBytes (hdr : Nat) (payload : List Byte) : List Byte :=
  let p := bytesAt payload 0 256
  let body := leBytes 6 hdr ++ leBytes 2 (crc16 (leBytes 6 hdr ++ p)) ++ p
  body ++ bytesAt (Config.rsParity body) 0 8

/-- The data position that a lane of a link carries: by QL_TXMAP, or the one that a handover has on both its lanes until it is
complete (R374, R383). -/
def State.onLane (s : State) (l k : Nat) : Option Nat :=
  (List.range 4).find? fun p => getF (s.core.rd (Reg.qlTxmap l)) (3 * p + 2) (3 * p) == k ||
    (s.link l).tx.any fun h => h.pos == p && (h.old == k || h.new == k)

/-- A frame on a link's lanes: byte `b` travels on position `b mod 4` (R374). -/
def State.frameOut (s : State) (l hdr : Nat) (payload : List Byte) : Out :=
  .frame l ((List.range 5).map fun k => match s.onLane l k with
    | some p => (List.range 68).map fun i => (frameBytes hdr payload).getD (4 * i + p) 0
    | none => [])

/-- The four markers of a handover, COUNTDOWN 3 to 0, in consecutive slots, after which the position is on its new lane (R383). -/
def State.sendMarkers (s : State) (l : Nat) (h : Handover) : State :=
  let mark := fun (k : Nat) => s.frameOut l (frameHdr 0 0 2 s.core.moduleNo 0)
    (bytesAt (leBytes 1 h.pos ++ leBytes 1 h.new ++ leBytes 1 h.old ++ leBytes 1 k) 0 256)
  (s.onCore fun c => [3, 2, 1, 0].foldl (fun c k => c.emit (mark k)) c).putLink l { s.link l with tx := some { h with switched := true } }

/-- READY for the position under way: the four markers (R383). -/
def State.handoverReady (s : State) (l pos : Nat) : State :=
  match (s.link l).tx with
  | some h => if h.pos = pos ∧ h.switched = false then s.sendMarkers l h else s
  | none => s

/-- HANDOVER_COMPLETE (R383): the old lane becomes the spare, the map swaps the two lanes, DONE is set. -/
def State.handoverDone (s : State) (l : Nat) : State :=
  match (s.link l).tx with
  | some h =>
    if h.switched then
      let c1 := s.core.wr (Reg.qlTxmap l) (swapLanes (s.core.rd (Reg.qlTxmap l)) h.old h.new)
      let c2 := (c1.setBit (Reg.qlHandover l) 4 true).setBit (Reg.qlStatus l) 2 false
      ({ s with core := c2.bump (Reg.qlHandovers l) 1 } : State).putLink l { s.link l with tx := none }
    else s
  | none => s

/-- One handover of the module's own, whole: position `p` to the spare lane, with its four markers (R383, R430, R433). -/
def State.moveLane (s : State) (l p : Nat) : State :=
  let m := s.core.rd (Reg.qlTxmap l)
  let h : Handover := { pos := p, old := getF m (3 * p + 2) (3 * p), new := getF m 14 12, switched := false }
  ((s.putLink l { s.link l with tx := some h }).sendMarkers l h).handoverDone l

end Sys2Proof.Machine
end

