-- ==== Sys2Proof/Machine/Darn.lean ====
section
/-! DEFINITION. Live calibration, margins, Darn (R429 to R434) and the step boundary (R69, R296, R414, R416 to R418). -/

namespace Sys2Proof.Machine

/-! ## Spares -/

/-- The spare adders of the die of an HBM channel (R330): unused by any channel and named by no record of the journal. -/
def State.freeAdders (s : State) (ch : Nat) : List Nat :=
  let d := ch / 32 / 3
  [2 * d, 2 * d + 1].filter fun u =>
    !((List.range 96).any fun k =>
      s.core.bit (Reg.addChStatus (96 * d + k)) 2 && s.core.fld (Reg.addChStatus (96 * d + k)) 5 3 == u) &&
    !((recordsOf s.part.flash 6).any fun r => leField r 26 1 == u)

/-- Whether a link's spare lane is permanent: a Darn of this start or a type 0x03 record (R433). -/
def State.quirasLost (s : State) (l : Nat) : Bool :=
  s.integ.quirasSpareLost.contains l || (recordsOf s.part.flash 3).any fun r => leField r 2 2 == 400 + l

/-- Whether an object of a kind has a spare left (R432). An HBM channel has one spare lane; the spare rows of a DIMM are seen
only when a repair is refused (R322); Ethernet ports, kind 6, have none. -/
def State.hasSpare (s : State) (kind o : Nat) : Bool :=
  match kind with
  | 0 => s.pat.map.getD (o - 448) 0xFF == 0xFE || !(mapSpares s.pat.map).isEmpty
  | 1 => s.core.fld (Reg.hbmChStatus o) 7 0 == 0
  | 2 => !(s.quirasLost (o - 400))
  | 3 => true
  | 4 => !(s.core.bit Reg.clkStatus (1 + (o - 544))) && !(s.pwr.pllPending.contains (o - 544))
  | 5 => !(s.freeAdders o).isEmpty
  | _ => false

/-- The kind of an object of R63 that software or a measurement names; `none` for a reserved number. -/
def objectKind (o : Nat) : Option Nat :=
  if o < 384 then some 1
  else if o < 400 then some 3
  else if o < 412 then some 2
  else if o < 414 then some 6
  else if o < 448 then none
  else if o < 544 then some 0
  else if o < 550 then some 4
  else none

/-- An object made due (R432). A tile that is retired or not good carries nothing and is ignored. -/
def State.makeDue (s : State) (o : Nat) : State :=
  match objectKind o with
  | none => s
  | some k =>
    let code := s.pat.map.getD (o - 448) 0xFF
    if k = 0 ∧ (code = 0xFF ∨ code = 0xFD) then s
    else s.onCore fun c => c.markDue k o (s.hasSpare k o)

/-- DARN_REQ_WRITE (R432). -/
def execDarnReqWrite (o : Nat) (s : State) : Host.Outcome State Fault Refusal := s.clocked <| .next (s.makeDue (o % 1024)).settle

/-! ## Calibration rounds and measurements (R429 to R432) -/

/-- A measurement of an object, which may make it due (R431, R432). -/
def State.takeMargin (s : State) (o margin lane : Nat) : State :=
  let r := s.core.measure o margin lane
  let s1 : State := { s with core := r.1 }
  if r.2 then s1.makeDue o else s1

/-- The lane's margin kept, and the object measured by the worst of the latest margins of its lanes (R431, log entry 49). -/
def State.laneMargin (s : State) (o lane margin : Nat) : State :=
  let ls := (s.integ.lanes.filter fun p => !(p.1 == o && p.2.1 == lane)) ++ [(o, lane, min margin 255)]
  let w := worstOf ls o lane (min margin 255)
  ({ s with integ := { s.integ with lanes := ls } } : State).takeMargin o w.1 w.2

/-- The lane or position that the next round of an object takes (R429, R430). -/
def Integ.turnOf (g : Integ) (o : Nat) : Nat := (lastOf g.turn o).getD 0

/-- Whether a calibration round of an object is due: calibration runs, and 2^CAL_PERIOD ticks have passed since its last (R429, R438). -/
def State.calDue (s : State) (o : Nat) : Bool :=
  s.core.bit Reg.darnCtrl 1 && due (lastOf s.integ.calAt o) (2 ^ s.core.fld Reg.darnCtrl 6 2) s.core.now.toNat

/-- A round of an object begun. -/
def State.calBegin (s : State) (o : Nat) : State :=
  { s with integ := { s.integ with calAt := fired s.integ.calAt o s.core.now.toNat } }

/-- The lane or position of an object's next round put down. -/
def State.calTurn (s : State) (o k : Nat) : State := { s with integ := { s.integ with turn := fired s.integ.turn o k } }

/-- CAL_ROUND_HBM (R429): the round retrains the channel's next lane behind the spare and measures it; `r.last` says that it is the channel's
last lane, after which the first comes again. Without a free spare the round is skipped; a failed compare, `r.ok` false, leaves the lane on
the spare, ends the round and makes the lane due. -/
def execCalRoundHbm (ch margin : Nat) (r : CalLane) (s : State) : Host.Outcome State Fault Refusal :=
  s.clocked <| .next
    (if s.calDue ch = false ∨ 384 ≤ ch then s
     else
      let s0 := s.calBegin ch
      let lane := s.integ.turnOf ch
      if s.core.fld (Reg.hbmChStatus ch) 7 0 ≠ 0 ∨ s.integ.onSpare.contains ch = true then
        s0.onCore fun c => c.bump Reg.calSkipped 1
      else if r.ok = false then
        (({ s0 with core := s0.core.setFld (Reg.margin ch) 15 8 lane,
                    integ := { s0.integ with onSpare := s0.integ.onSpare ++ [ch] } } : State).makeDue ch).settle
      else ((((s0.onCore fun c => c.bump Reg.calRounds 1).calTurn ch (if r.last then 0 else lane + 1)).laneMargin ch lane margin).settle))

/-- CAL_ROUND_QUIRAS (R430): the link's next position is handed to the spare, the freed lane retrained and measured, and the position
handed back by a second handover: eight markers. A handover of software makes the round wait; an abandoned handover of the round ends
it with nothing changed but FAIL and its counter (log entry 49). -/
def execCalRoundQuiras (l margin : Nat) (abandoned : Bool) (s : State) : Host.Outcome State Fault Refusal :=
  s.clocked <| .next
    (if s.calDue (400 + l) = false ∨ s.core.linkUp l = false ∨ (s.link l).tx.isSome = true then s
     else
      let s0 := s.calBegin (400 + l)
      let p := s.integ.turnOf (400 + l) % 4
      if s.quirasLost l then s0.onCore fun c => c.bump Reg.calSkipped 1
      else if abandoned then s0.onCore fun c => (c.setBit (Reg.qlHandover l) 3 true).bump (Reg.qlHandoverFail l) 1
      else
        let s1 := ((s0.moveLane l p).moveLane l p).onCore fun c => c.bump Reg.calRounds 1
        ((s1.calTurn (400 + l) ((p + 1) % 4)).laneMargin (400 + l) p margin).settle)

/-- MARGIN_MEASURE (R431): a DDR channel, an Ethernet port, a tile or a PLL. -/
def execMarginMeasure (o margin lane : Nat) (s : State) : Host.Outcome State Fault Refusal :=
  s.clocked <| .next
    (if (384 ≤ o ∧ o < 400) ∨ (412 ≤ o ∧ o < 414) ∨ (448 ≤ o ∧ o < 550) then (s.takeMargin o margin lane).settle else s)

/-- Whether a channel's adder may check itself (R331): it holds no operation, and 2^20 ticks have passed since its last check. -/
def State.mayCheck (s : State) (ch : Nat) : Bool :=
  !(s.core.late.any fun l => s.core.hbmChannel l.addr == ch) &&
  !(s.core.cow.any fun o => decide (o.addr < 0x120_0000_0000) && s.core.hbmChannel o.addr == ch) &&
  !(s.integ.checked.any fun p => p.1 == ch && decide (s.core.now.toNat < p.2 + 2 ^ 20))

/-- ADDER_SELF_CHECK (R331, R432): a mismatch is counted and reported, and the second of a margin period makes the adder due. -/
def execAdderSelfCheck (ch : Nat) (ok : Bool) (s0 : State) : Host.Outcome State Fault Refusal :=
  s0.clocked <| .next
    (let s : State := { s0 with integ := { s0.integ with
       checked := (s0.integ.checked.filter fun p => p.1 != ch) ++ [(ch, s0.core.now.toNat)] } }
     if 384 ≤ ch ∨ s0.mayCheck ch = false then s0
     else if ok = true then s
     else
      let c1 := ((s.core.bump Reg.addCheckFail 1).bump (Reg.addChCheckFail ch) 1).blockEvent 0x22 ch 0
      let s1 : State := { s with core := c1, integ := { s.integ with adderFails := s.integ.adderFails ++ [ch] } }
      (if s.integ.adderFails.contains ch then s1.onCore fun c => c.markDue 5 ch (s1.hasSpare 5 ch) else s1).settle)

/-! ## Replacements (R433, R434) -/

/-- A record of the wear journal appended. -/
def State.wear (s : State) (ty o : Nat) (data : List Byte) : State :=
  let r := appendWear s.part s.core ty o data
  { s with part := r.1, core := r.2 }

/-- The spares left, as MODULE_INFO and DARN_STATUS show them. -/
def State.showSpares (s : State) : State :=
  let n := (mapSpares s.pat.map).length
  s.onCore fun c => (c.setFld Reg.moduleInfo 23 16 n).setFld Reg.darnStatus 23 16 n

/-- A replacement made (R433, R435, R478). -/
def State.darnDone (s : State) (kind o : Nat) : State :=
  let c1 := ((s.core.dropDue kind o).bump Reg.darnDone 1).setFld Reg.darnStatus 9 0 o
  { s with core := { c1 with events := c1.events ++ [4] }, integ := { s.integ with applied := true } }

/-- An object due whose spare is gone by the time of its replacement (R432). -/
def State.noSpare (s : State) (kind o : Nat) : State := s.onCore fun c => (c.dropDue kind o).exhaust o

/-- An HBM lane left on the spare for good: the worst lane, as MARGIN_o.LANE names it. The spare's own number is not given. -/
def State.replaceHbmLane (s : State) (ch : Nat) : State :=
  if s.hasSpare 1 ch then
    let lane := s.core.fld (Reg.margin ch) 15 8
    let c1 := (s.core.fresh.2.setFld (Reg.hbmChStatus ch) 7 0 (s.core.fld (Reg.hbmChStatus ch) 7 0 + 1)).bump
      Reg.hbmLanesRepaired 1
    let s1 : State := { s with core := c1, integ := { s.integ with onSpare := s.integ.onSpare.filter (· != ch) } }
    (s1.wear 3 ch (leBytes 1 lane ++ leBytes 1 (Config.freeNat s.core.freeCtr))).darnDone 1 ch
  else s.noSpare 1 ch

/-- A Quiras lane handed over to the spare for good, with the four markers of R383: the lane of the worst position, as MARGIN_o.LANE names
it. It waits while the link is not UP or a handover runs. -/
def State.replaceQuirasLane (s : State) (o : Nat) : State :=
  let l := o - 400
  if s.quirasLost l then s.noSpare 2 o
  else if s.core.linkUp l = false ∨ (s.link l).tx.isSome = true then s
  else
    let p := s.core.fld (Reg.margin o) 15 8 % 4
    let m := s.core.rd (Reg.qlTxmap l)
    let s1 := s.moveLane l p
    let s2 : State := { s1 with integ := { s1.integ with quirasSpareLost := s1.integ.quirasSpareLost ++ [l] } }
    (s2.wear 3 o (leBytes 1 (getF m (3 * p + 2) (3 * p)) ++ leBytes 1 (getF m 14 12))).darnDone 2 o

/-- One DDR row repaired, or its repair refused for want of a spare row (R322). The record's DATA holds sub-channel, rank, bank group and
bank in one byte each and the row in four (DESIGN CHOICE, log entry 20). -/
def State.repairRow (s : State) (d key : Nat) : State :=
  let s1 : State := { s with core := { s.core.fresh.2 with dueRows := s.core.dueRows.filter (· != (d, key)) } }
  if Config.freeBit s.core.freeCtr then s1.onCore fun c => (c.bump Reg.ddrPprFail 1).blockEvent 0x21 d 0
  else
    ((s1.onCore fun c => c.bump Reg.ddrPprDone 1).wear 4 (384 + d)
      (leBytes 1 (bitsOf key 0 0) ++ leBytes 1 (bitsOf key 2 1) ++ leBytes 1 (bitsOf key 5 3) ++ leBytes 1 (bitsOf key 7 6) ++
       leBytes 4 (bitsOf key 25 8))).darnDone 3 (384 + d)

/-- The rows of a DDR channel that are due; one that software named by the channel alone is free. -/
def State.repairChannel (s : State) (o : Nat) : State :=
  let d := o - 384
  let rows := (s.core.dueRows.filter fun r => r.1 == d).map (·.2)
  let s1 := if rows.isEmpty then (s.onCore fun c => c.fresh.2).repairRow d (Config.freeNat s.core.freeCtr % 2 ^ 26)
    else rows.foldl (fun s k => s.repairRow d k) s
  s1.onCore fun c => c.dropDue 3 o

/-- A die's spare PLL takes over; a switch during a level change is made at its end (R451). -/
def State.replacePll (s : State) (o : Nat) : State :=
  if s.hasSpare 4 o then ((s.pllSwitch (o - 544)).wear 5 o []).darnDone 4 o else s.noSpare 4 o

/-- A spare adder put in service (R330): its channel's operations and staged entries go with it. -/
def State.replaceAdder (s : State) (ch : Nat) : State :=
  match s.freeAdders ch with
  | [] => s.noSpare 5 ch
  | u :: _ =>
    let c1 := (s.core.setBit (Reg.addChStatus ch) 2 true).setFld (Reg.addChStatus ch) 5 3 u
    (({ s with core := c1 } : State).wear 6 ch (leBytes 2 ch ++ leBytes 1 u)).darnDone 5 ch

/-- The objects of a kind that are due, ascending. -/
def Core.dueOf (c : Core) (kind : Nat) : List Nat :=
  (List.range 550).filter fun o => c.due.contains (kind, o)

/-- The replacements of a boundary after those of tiles, kind by kind (R433). -/
def State.darnOthers (s : State) : State :=
  let s1 := (s.core.dueOf 1).foldl State.replaceHbmLane s
  let s2 := (s1.core.dueOf 2).foldl State.replaceQuirasLane s1
  let s3 := (s2.core.dueOf 3).foldl State.repairChannel s2
  let s4 := (s3.core.dueOf 4).foldl State.replacePll s3
  (s4.core.dueOf 5).foldl State.replaceAdder s4

/-- A spare tile retired without a copy (R432): a 0x02 record of 0xFF, 0xFF. -/
def State.retireSpare (s : State) (o : Nat) : State :=
  let s1 : State := { s with pat := { s.pat with map := s.pat.map.set (o - 448) 0xFD },
                             core := s.core.dropDue 0 o, integ := { s.integ with applied := true } }
  (s1.wear 2 o [0xFF, 0xFF]).showSpares

/-- The tiles that are due, in ascending order, up to the first that must wait for quiescence (R433, R434): whether one
waits. -/
def State.darnTiles : List Nat → State → State × Option Nat
  | [], s => (s, none)
  | o :: r, s =>
    let code := s.pat.map.getD (o - 448) 0xFF
    if code = 0xFE then State.darnTiles r (s.retireSpare o)
    else if code = 0xFD ∨ code = 0xFF then State.darnTiles r (s.onCore fun c => c.dropDue 0 o)
    else if s.integ.deferred.contains o then State.darnTiles r s
    else if (mapSpares s.pat.map).isEmpty then State.darnTiles r (s.noSpare 0 o)
    else (s, some o)

/-- Whether logical tile `t` is quiescent (R434): no admitted descriptor, no share, no running context. -/
def State.quiescent (s : State) (t : Nat) : Bool :=
  !(s.work.descs.any fun d => d.tile == t && d.phase != .waiting) && !(s.work.shares.any fun h => h.tile == t) &&
  !(s.work.jobs.any fun j => j.tile == t) && !(s.palm.any fun x => x.t == t && s.core.ctxState t x.n == 1)

/-- The logical number moved to a spare (R434, R47): the lowest on the worn tile's die, else the lowest of the module. SRAM,
contexts and registers, which the model holds by logical number, go with it. -/
def State.replaceTile (s : State) (o : Nat) : State :=
  let w := o - 448
  match pickSpare s.pat.map w 0xFFFF, Machine.replaceTile s.pat.map w 0xFFFF with
  | some sp, some m =>
    let s1 : State := { s with pat := { s.pat with map := m } }
    ((s1.wear 2 o (leBytes 1 sp ++ leBytes 1 (s.pat.map.getD w 0))).darnDone 0 o).showSpares
  | _, _ => s

/-! ## The boundary (R296) -/

/-- Λ of the open step written to the group's ring slot (R298), while the ring is on and lies in local memory. -/
def Core.ringWrite (c : Core) (g : Nat) : Core :=
  let h := c.fld Reg.bandHistCtrl 4 0
  let base := c.fld Reg.bandHistBase 55 0
  if c.bit (Reg.grpCtrl g) 3 = true ∧ h ≠ 0 ∧ c.isLocal base = true then
    let a := gaLocal base + 8 * (g * 2 ^ h + c.step % 2 ^ h)
    if c.place a = .hbm ∨ c.place a = .ddr then
      (c.put a (leBytes 8 (c.rd (Reg.grpLambda g)).toNat)).countServed .wr a 8
    else c
  else c

/-- Step n of a group closed (R296): a held step gives its decay back and is not counted. -/
def Core.closeGroup (lam : List (Nat × Word)) (c : Core) (g : Nat) : Core :=
  if c.bit (Reg.grpCtrl g) 1 then
    let c1 := c.wr (Reg.grpLambda g) (c.rd (Reg.grpLambda g) - sGet lam g 0)
    (c1.ringWrite g).setBit (Reg.grpCtrl g) 1 false
  else
    let c1 := c.setFld (Reg.grpCount g) 47 0 (c.fld (Reg.grpCount g) 47 0 + 1)
    c1.setFld (Reg.grpCtrl g) 47 32 (c1.fld (Reg.grpCtrl g) 47 32 - 1)

/-- The decay λ of a group's open step from its ηWD. -/
def Core.lamOf (c : Core) (g : Nat) : Word := decayStep (BitVec.ofNat 32 (c.fld (Reg.grpEta g) 63 32))

/-- Step n + 1 of a group opened (R296 to R298, R302). -/
def Core.openGroup (c : Core) (g : Nat) : Core :=
  let c1 := c.evalGroup g
  let c2 := (c1.wr (Reg.grpLambda g) (c1.rd (Reg.grpLambda g) + c1.lamOf g)).ringWrite g
  if c2.bit (Reg.grpState g) 0 then c2.bump Reg.bandSignSteps 1 else c2

/-- The 65 lines of a step record after its header (R416). -/
def Core.recordLines (c : Core) : List Byte :=
  bytesAt ((List.range 4).flatMap (fun i => leBytes 8 (c.rd (Reg.jnlBatch i)).toNat) ++ leBytes 8 (c.rd Reg.detAvg).toNat) 0 64 ++
  (List.range 256).flatMap fun g =>
    leBytes 6 (c.fld (Reg.grpCount g) 47 0) ++ leBytes 2 (c.fld (Reg.grpCtrl g) 47 32) ++
    leBytes 8 (c.rd (Reg.grpLambda g)).toNat

/-- The step record of the step that a boundary opens (R416). -/
def State.recordStep (s : State) (prev : Nat) : State :=
  let c := s.core
  let body := leBytes 8 (c.rd Reg.numSrStepSeed).toNat ++ leBytes 4 (c.fld Reg.placeEpoch 31 0) ++
    leBytes 4 (c.rd Reg.patSequence).toNat ++ leBytes 2 prev ++ leBytes 6 0 ++ leBytes 8 (c.rd Reg.hbStep).toNat
  s.jnlAppend 1 c.step body c.recordLines

/-- The seed of the step that opens, computed (R277). -/
def Core.seedStep (c : Core) : Core :=
  c.wr Reg.numSrStepSeed (drawG (c.rd Reg.numSrJobSeed) (BitVec.ofNat 64 c.step))

/-- A pending placement epoch applied (R223). -/
def Core.placeApply (c : Core) : Core :=
  if c.bit Reg.placeCtrl 0 then
    ((c.wr Reg.placeEpoch (BitVec.ofNat 64 ((c.fld Reg.placeEpoch 31 0 + 1) % 2 ^ 32))).wr Reg.placeStep
      (BitVec.ofNat 64 c.step)).setBit Reg.placeCtrl 0 false
  else c

/-- What a replay record gives the step that opens (R418): S, EPOCH and the batch IDs. -/
def Core.takeRecord (c : Core) (e : List Byte) : Core :=
  let ep := leField e 32 4
  let c1 := c.wr Reg.numSrStepSeed (BitVec.ofNat 64 (leField e 24 8))
  let c2 := if c.fld Reg.placeEpoch 31 0 = ep then c1
    else (c1.wr Reg.placeEpoch (BitVec.ofNat 64 ep)).wr Reg.placeStep (BitVec.ofNat 64 c.step)
  (List.range 4).foldl (fun c i => c.wr (Reg.jnlBatch i) (BitVec.ofNat 64 (leField e (64 + 8 * i) 8))) c2

/-- Placement epoch and seed of the step that opens, from the journal during a replay, else computed (R223, R277, R418): the
state, and whether the boundary appends a step record. -/
def State.seedOrReplay (s : State) : State × Bool :=
  if s.core.bit Reg.jnlCtrl 1 then
    match s.replayRecord s.core.step with
    | some e =>
      let o := (s.core.rd Reg.jnlReplayPtr).toNat + 66 * 64
      let c1 := (s.core.takeRecord e).wr Reg.jnlReplayPtr (BitVec.ofNat 64 (s.nextRecord (s.jnlRegion.2 / 64 + 1) o))
      let last := decide (s.core.step = c1.fld Reg.jnlReplayEnd 47 0)
      (s.onCore fun _ => if last then (c1.setBit Reg.jnlCtrl 1 false).setBit Reg.jnlStatus 2 true else c1, false)
    | none =>
      (s.onCore fun c => ((((c.setBit Reg.jnlCtrl 1 false).setBit Reg.jnlStatus 1 true).blockEvent 0x52 0
        0).placeApply).seedStep, true)
  else (s.onCore fun c => c.placeApply.seedStep, true)

/-- The boundary after the changes of R69: groups closed and opened, the step number, seed, record and checkpoint. DESIGN
CHOICE (log entry 72): an epoch whose check ends while the boundary waits for a worn tile applies at that boundary. -/
def State.boundaryEnd (s : State) : State :=
  let s0 := s.epochApply
  let moved := s.integ.applied || s.pat.ready.isSome
  let c1 := if moved then s0.core.setFld Reg.epochCount 31 0 (s0.core.fld Reg.epochCount 31 0 + 1) else s0.core
  let held := c1.held
  let gs := c1.enabledGroups
  let c2 := gs.foldl (Core.closeGroup s.integ.lam) c1
  let c3 := (c2.wr Reg.bandStep (BitVec.ofNat 64 ((c2.step + 1) % 2 ^ 48))).wr Reg.detStatus 0
  let r := ({ s0 with core := c3 } : State).seedOrReplay
  let c4 := gs.foldl Core.openGroup r.1.core
  let prev := s.integ.prev ||| held.toNat
  let s1 : State := { r.1 with core := c4, integ := { r.1.integ with lam := gs.map fun g => (g, c4.lamOf g), prev := 0 } }
  let s2 := if r.2 then s1.recordStep prev else s1
  let s3 := s2.hbBegin
  { s3 with core := (s3.core.bump Reg.bandBoundaries 1).setBit Reg.bandCtrl 0 false,
            integ := { s3.integ with boundaryWait := false, waitAt := none, deferred := [], applied := false } }

/-- A boundary whose Darn replacements run: it waits at the first tile that is due, from now on (R433, R434). -/
def State.boundaryGo (s : State) : State :=
  match State.darnTiles (s.core.dueOf 0) s with
  | (s1, some _) => { s1 with integ := { s1.integ with waitAt := s1.integ.waitAt.map fun w => (s1.core.now.toNat, w.2) } }
  | (s1, none) => s1.darnOthers.boundaryEnd

/-- The tile that a boundary waits for; none while it waits for the journal's staging. -/
def State.waitTile (s : State) : Option Nat :=
  if s.integ.boundaryWait && !s.integ.stageWait then (State.darnTiles (s.core.dueOf 0) s).2 else none

/-- The boundary that runs: with its Darn replacements while DARN_CTRL.EN is set (R433). -/
def State.boundaryRun (s : State) : State := if s.core.bit Reg.darnCtrl 0 then s.boundaryGo else s.boundaryEnd

/-- A write of 1 to BAND_CTRL.ADVANCE (R296): no effect while a boundary runs (R14). A boundary that finds the journal's staging full
waits for room before anything else, and sets STAGE_WAIT (R417). -/
def State.advanceStep (s : State) : State :=
  if s.core.bit Reg.bandCtrl 0 then s
  else
    let s1 : State := { s with core := s.core.setBit Reg.bandCtrl 0 true,
                               integ := { s.integ with boundaryWait := true, deferred := [], applied := false,
                                                       waitAt := some (s.core.now.toNat, s.core.fld Reg.darnWait 31 0) } }
    if s.jnlFull then
      { s1 with core := s1.core.setBit Reg.jnlStatus 3 true, integ := { s1.integ with stageWait := true } }
    else s1.boundaryRun

/-- The boundary that waited for room in the journal's staging goes on. -/
def State.boundaryResume (s : State) : State :=
  if s.integ.stageWait && !s.jnlFull then ({ s with integ := { s.integ with stageWait := false } } : State).boundaryRun.settle else s

/-- BAND_ADVANCE. -/
def execBandAdvance (s : State) : Host.Outcome State Fault Refusal := s.clocked <| .next s.advanceStep.settle

/-- TILE_REPLACE (R434): the tile that a boundary waits for is quiescent, and its logical number moves. -/
def execTileReplace (s : State) : Host.Outcome State Fault Refusal :=
  s.clocked <| .next
    (match s.waitTile with
    | some o => if s.quiescent (s.pat.map.getD (o - 448) 0xFF) then ((s.replaceTile o).boundaryGo).settle else s
    | none => s)

/-- Whether a tile replacement has waited longer than DARN_WAIT ticks (R434, R438). -/
def Integ.waitedOut (g : Integ) (now : Nat) : Bool := g.waitAt.any fun w => decide (w.1 + w.2 < now)

/-- TILE_REPLACE_DEFER (R434): a tile that has not been quiescent for longer than DARN_WAIT ticks is left to the next boundary. -/
def execTileReplaceDefer (s : State) : Host.Outcome State Fault Refusal :=
  s.clocked <| .next
    (match s.waitTile with
    | some o =>
      if s.quiescent (s.pat.map.getD (o - 448) 0xFF) || !(s.integ.waitedOut s.core.now.toNat) then s
      else
        let c1 := (s.core.bump Reg.darnDeferred 1).blockEvent 0x54 o 0
        (({ s with core := c1, integ := { s.integ with deferred := s.integ.deferred ++ [o] } } : State).boundaryGo).settle
    | none => s)

end Sys2Proof.Machine
end

