-- ==== Sys2Proof/Machine/Memory.lean ====
section
/-! DEFINITION. The commands of the memory controllers and adders (spec/11_memory_and_adders.md), over the operations of
Machine/Adders.lean. -/

namespace Sys2Proof.Machine

/-- The acknowledgement that an adder gives (R326, R327): the address and its status, once the operation is not held. -/
def Core.ackAdd (c : Core) (r : Core × Nat) (a : Nat) : Core :=
  if c.heldOps < r.1.heldOps then r.1 else r.1.emit (.ack (a / 64 * 64) r.2)

/-- A held operation has been carried out (R336, R422): its status goes to who waited for it. -/
def State.heldDone (s : State) (r : Released) : State :=
  let s1 : State := { s with core := r.core }
  match r.who with
  | .desc id rec_ => s1.heldDesc id rec_ r.status (r.core.global r.addr)
  | .store t n ga => if r.status = 0 then s1 else s1.onCore fun c => c.threadErr t n r.status ga
  | .peer src tag kind => s1.onCore fun c => c.answerPeer src tag kind r.status
  | .contrib idx src rank => s1.redAdded idx src rank r.status (r.core.global r.addr)
  | .port l => s1.onCore fun c => c.emit (.ack l r.status)
  | _ => s1

/-- MEM_READ (R316, R320). -/
def execMemRead (addr : Nat) (err : MemErr) (s : State) : Host.Outcome State Fault Refusal :=
  s.clocked <| .next (s.onCore fun c => c.ctlRead addr err).settle

/-- MEM_WRITE (R312, R320). -/
def execMemWrite (addr : Nat) (mask : BitVec 64) (data : List Byte) (err : MemErr) (s : State) :
    Host.Outcome State Fault Refusal :=
  s.clocked <| .next (s.onCore fun c => c.ctlWrite addr mask data err).settle

/-- COW_WRITE_RELEASE (R422): the oldest held operation proceeds; the K-ticks that it waited, a time the model does not hold,
count in HB_COW_WAIT. -/
def execCowWriteRelease (s : State) : Host.Outcome State Fault Refusal :=
  s.clocked <| .next
    (match (s.core.fresh.2.bump Reg.hbCowWait (Config.freeNat s.core.freeCtr)).cowRelease with
    | none => s
    | some r => (s.heldDone r).settle)

/-- ADD (R324, R333 to R337). -/
def execAdd (addr rank : Nat) (mask : BitVec 16) (data : List Byte) (s : State) : Host.Outcome State Fault Refusal :=
  s.clocked <| .next (s.onCore fun c => c.ackAdd (c.adderAdd addr (rank % 2 ^ 16) mask (lanesOf data) (.port (addr / 64 * 64))) addr).settle

/-- BITSET (R324). -/
def execBitset (addr : Nat) (data : List Byte) (s : State) : Host.Outcome State Fault Refusal :=
  s.clocked <| .next (s.onCore fun c => c.ackAdd (c.adderBitset addr data (.port (addr / 64 * 64))) addr).settle

/-- ZERO (R324). -/
def execZero (addr : Nat) (mask : BitVec 16) (s : State) : Host.Outcome State Fault Refusal :=
  s.clocked <| .next (s.onCore fun c => c.ackAdd (c.adderZero addr mask (.port (addr / 64 * 64))) addr).settle

/-- ADD_LATE_APPLY (R336). -/
def execAddLateApply (s : State) : Host.Outcome State Fault Refusal :=
  s.clocked <| .next (match s.core.addLateApply with
    | none => s
    | some r => (s.heldDone r).settle)

/-- SCRUB_READ (R321). -/
def execScrubRead (ch : Nat) (err : MemErr) (s : State) : Host.Outcome State Fault Refusal :=
  s.clocked <| .next (s.onCore fun c => c.scrubRead ch err).settle

/-- WIN_OPEN (R332). -/
def execWinOpen (n : Nat) (s : State) : Host.Outcome State Fault Refusal := s.clocked <| .next (s.onCore fun c => c.winOpen n)

/-- WIN_OPEN_EFFECT (R336): a bucket that waits for its window goes on arming. -/
def execWinOpenEffect (n : Nat) (s : State) : Host.Outcome State Fault Refusal :=
  s.clocked <| .next ((s.onCore fun c => c.winOpenEffect n).armOpened n).settle

/-- WIN_CLOSE (R335). -/
def execWinClose (n : Nat) (s : State) : Host.Outcome State Fault Refusal := s.clocked <| .next (s.onCore fun c => c.winClose n)

/-- WIN_CLOSE_DONE (R335). -/
def execWinCloseDone (n : Nat) (s : State) : Host.Outcome State Fault Refusal :=
  s.clocked <| .next (s.onCore fun c => c.winCloseDone n).settle

/-- WIN_ABORT (R338). -/
def execWinAbort (n : Nat) (s : State) : Host.Outcome State Fault Refusal := s.clocked <| .next (s.onCore fun c => c.winAbort n)

/-- DDR_XLATE_IN_WRITE (R318, R343). -/
def execDdrXlateInWrite (v : Word) (s : State) : Host.Outcome State Fault Refusal := s.clocked <| .next (s.onCore fun c => c.xlateIn v)

end Sys2Proof.Machine
end

