-- ==== Sys2Proof/Machine/Palm.lean ====
section
/-! DEFINITION. The Palm instructions (spec/10_palm_and_update.md) other than the scalar loads and stores and VST, which
reach control space: fetching, the scalar and vector operations, the reads of Band, touch maps, accumulates, gathers. -/

namespace Sys2Proof.Machine

/-! ## Fields of an instruction below OPCODE (R288) -/

/-- Field d, bits [26:22]; field a of format B. -/
def fD (w : BitVec 27) : Nat := bitsOf w.toNat 26 22
/-- Field a, bits [21:17]; field b of format B. -/
def fA (w : BitVec 27) : Nat := bitsOf w.toNat 21 17
/-- Field b, bits [16:12]. -/
def fB (w : BitVec 27) : Nat := bitsOf w.toNat 16 12
/-- Field c, bits [11:7]. -/
def fC (w : BitVec 27) : Nat := bitsOf w.toNat 11 7
/-- Field f, bits [6:0]. -/
def fF (w : BitVec 27) : Nat := bitsOf w.toNat 6 0
/-- Field f4, bits [16:13]. -/
def fF4 (w : BitVec 27) : Nat := bitsOf w.toNat 16 13
/-- imm13, bits [12:0]. -/
def fImm13 (w : BitVec 27) : Nat := bitsOf w.toNat 12 0
/-- imm22, bits [21:0]. -/
def fImm22 (w : BitVec 27) : Nat := bitsOf w.toNat 21 0
/-- A field of `n` bits sign-extended to a word. -/
def sextW (n v : Nat) : Word := BitVec.ofInt 64 (signedOf n v)
/-- The global address in a register: bits [55:0] (R76). -/
def addr56 (v : Word) : Nat := v.toNat % 2 ^ 56

/-! ## Issue -/

/-- Why a context cannot fetch at a PC (R77, R287): the halt cause, if any. -/
def Core.pcCause (c : Core) (pc : Nat) : Option Nat :=
  if !c.isSet then some 4
  else if gaModule pc ≠ c.moduleNo then some 3
  else match c.place (gaLocal pc) with
    | .ctl => some 3
    | .unmapped => some 4
    | _ => none

/-- A load of a context that ended with an error: an entry with its status, and LOAD_UE for an uncorrectable error (R75, R391). -/
def Core.loadErr (c : Core) (t n st ga : Nat) : Core :=
  (if st = 0x22 then c.setBit (Reg.ctxStatus t n) 2 true else c).threadErr t n st ga

/-- One instruction of a context: the context runs and nothing blocks it, the module is Running and its clocks have edges (R450, R453),
and memory at PC holds the instruction's word, whose 4 bytes count as read (R473); a PC that cannot be fetched from halts the context. `vec` marks the vector instructions (R308). DESIGN CHOICE
(log entry 78): a word whose line holds an uncorrectable error is counted and reported like a load (R75, R320), and which instruction
is read from it is free, that is, the command's. -/
def State.issue (s : State) (t n opc : Nat) (w : BitVec 27) (vec : Bool) (run : State → Ctx → State) : State :=
  match s.ctx? t n with
  | none => s
  | some x =>
    if s.ticking = false ∨ s.core.bit Reg.startStatus 3 = false ∨ s.core.ctxState t n ≠ 1 ∨ x.blocked = true then s
    else
      match s.core.pcCause x.pc with
      | some k => s.halt t n k
      | none =>
        let bad := s.core.isUe (gaLocal x.pc / 64)
        if bad = false ∧ s.core.rdNat (gaLocal x.pc) 4 ≠ opc * 2 ^ 27 + w.toNat then s
        else
          let s1 := if bad then (s.onCore fun c => (c.countMemErr (gaLocal x.pc) true).loadErr t n 0x22 x.pc).settle else s
          run (s1.onCore fun c => ((c.countAccess t 1 .rd x.pc 4).bump (Reg.palmInstr t) 1).bump (Reg.palmVector t) vec.toNat) x

/-- An illegal instruction (R290): the context halts with cause 0x03. -/
def State.illegal (s : State) (x : Ctx) : State := s.halt x.t x.n 3

/-- A result put in x_d when the instruction is legal. -/
def State.resultX (s : State) (x : Ctx) (d : Nat) (r : Option Word) : State :=
  match r with
  | some v => s.advance (x.setX d v)
  | none => s.illegal x

/-- A result put in v_d when the instruction is legal. -/
def State.resultV (s : State) (x : Ctx) (d : Nat) (r : Option (List Lane)) : State :=
  match r with
  | some ls => s.advance (x.setV d ls)
  | none => s.illegal x

/-! ## Memory accesses of a context (R75, R77, R79, R291, R320, R391) -/

/-- Where an access of `n` bytes at a global address goes. -/
inductive Reach where
  | mem
  | remote
  | ctl
  | halt (cause : Nat)
  deriving DecidableEq, Repr

/-- See `Reach`. Before MODULE_NO is set every access halts with cause 0x04 (R77), as does one to another module's control
space or outside every mapped region. -/
def Core.reach (c : Core) (ga n : Nat) : Reach :=
  let a := gaLocal ga
  let inCtl := decide (a < 0x7F0_1000_0000) && decide (0x7F0_0000_0000 < a + n)
  if !c.isSet then .halt 4
  else if gaModule ga ≠ c.moduleNo then (if inCtl then .halt 4 else .remote)
  else if inCtl then .ctl
  else if c.memRange a n then .mem else .halt 4

/-- A plain load of a context: an uncorrectable error returns zero in every byte, sets LOAD_UE and sends an entry (R75); a
lost route returns zero with an entry of its own (R391). Bytes of another module are fetched (R388), and read zero when the
response carries an error. -/
def State.palmRead (s : State) (t n ga len : Nat) : State × List Byte :=
  let c := s.core.countAccess t 1 .rd ga len
  let zeros := List.replicate len (0 : Byte)
  if c.isLocal ga then
    let bad := c.ueLines ga len
    if bad.isEmpty then ({ s with core := c }, c.gBytes ga len)
    else
      let c1 := bad.foldl (fun c l => c.countMemErr (l * 64) true) c
      ({ s with core := c1.loadErr t n 0x22 ga }, zeros)
  else if (c.gaps ga len).isEmpty then
    match c.mine.find? fun f => f.status != 0 && rangesMeet (f.ga, f.n) (ga, len) with
    | some f => ({ s with core := c.loadErr t n f.status ga }, zeros)
    | none => ({ s with core := c }, c.gBytes ga len)
  else if c.reachable (gaModule ga) then ({ s with core := c.wantRead ga 1 ga len }, zeros)
  else ({ s with core := c.loadErr t n 0x40 ga }, zeros)

/-- A plain store of a context: a partial write that meets an uncorrectable error, or whose route is down, is lost with an
entry (R320, R391). -/
def State.palmWrite (s : State) (t n ga : Nat) (bs : List Byte) : State :=
  let e := s.core.writeG t 1 ga bs (.store t n ga)
  let c1 := e.lost.foldl (fun c l => (c.countMemErr (l * 64) true).threadErr t n 0x22 ga) e.core
  { s with core := if e.down then c1.threadErr t n 0x40 ga else c1 }

/-- An instruction that loads, possibly from another module (R76, R388): while it lacks bytes of another module it only requests
them, and the context stays blocked at it, with its word kept. -/
def State.loading (s : State) (x : Ctx) (opc : Nat) (w : BitVec 27) (run : State → Ctx → State) : State :=
  let s1 := s.withFetch (.ctx x.t x.n) fun s => run s x
  if s1.core.fetching (.ctx x.t x.n) then
    { s1 with palm := s1.palm.map fun y => if y.isOf x.t x.n then { y with blocked := true, instr := opc * 2 ^ 27 + w.toNat } else y }
  else s1

/-! ## Scalar operations -/

/-- END halts the context with cause 0x02; its encoding is all zeros (R289). -/
def execPalmEnd (t n : Nat) (w : BitVec 27) (s : State) : Host.Outcome State Fault Refusal :=
  .next (s.issue t n 0x00 w false fun s x => if w = 0 then s.halt t n 2 else s.illegal x)

/-- TRAP halts the context with cause 0x03 (R289). -/
def execTrap (t n : Nat) (w : BitVec 27) (s : State) : Host.Outcome State Fault Refusal :=
  .next (s.issue t n 0x1F w false fun s x => s.illegal x)

/-- The operations of ALU and ALUI (R290). -/
def aluOp (op : Nat) (a b : Word) : Option Word :=
  match op with
  | 0 => some (a + b)
  | 1 => some (a - b)
  | 2 => some (a &&& b)
  | 3 => some (a ||| b)
  | 4 => some (a ^^^ b)
  | 5 => some (a <<< (b.toNat % 64))
  | 6 => some (a >>> (b.toNat % 64))
  | 7 => some (a.sshiftRight (b.toNat % 64))
  | 8 => some (a * b)
  | 9 => some (BitVec.ofNat 64 (a.toNat * b.toNat / 2 ^ 64))
  | 10 => some (if a.slt b then 1 else 0)
  | 11 => some (if a.ult b then 1 else 0)
  | 12 => some (if b.slt a then b else a)
  | 13 => some (if a.slt b then b else a)
  | 14 => some (if b = 0 then BitVec.allOnes 64 else BitVec.ofNat 64 (a.toNat / b.toNat))
  | 15 => some (if b = 0 then a else BitVec.ofNat 64 (a.toNat % b.toNat))
  | _ => none

/-- ALU: xd = xa op xb (R289). -/
def execAlu (t n : Nat) (w : BitVec 27) (s : State) : Host.Outcome State Fault Refusal :=
  .next (s.issue t n 0x01 w false fun s x =>
    s.resultX x (fD w) (if fC w = 0 then aluOp (fF w) (x.xr (fA w)) (x.xr (fB w)) else none))

/-- ALUI: xd = xa op sext(imm13), codes 0 to 13 (R289). -/
def execAlui (t n : Nat) (w : BitVec 27) (s : State) : Host.Outcome State Fault Refusal :=
  .next (s.issue t n 0x02 w false fun s x =>
    s.resultX x (fD w) (if fF4 w ≤ 13 then aluOp (fF4 w) (x.xr (fA w)) (sextW 13 (fImm13 w)) else none))

/-- LIS: xd = (xd << 22) OR imm22 (R289). -/
def execLis (t n : Nat) (w : BitVec 27) (s : State) : Host.Outcome State Fault Refusal :=
  .next (s.issue t n 0x03 w false fun s x =>
    s.resultX x (fD w) (some ((x.xr (fD w) <<< 22) ||| BitVec.ofNat 64 (fImm22 w))))

/-- PC moved by a number of instructions, modulo 2^56. -/
def pcPlus (pc : Nat) (k : Int) : Nat := (((pc : Int) + 4 * k) % (2 ^ 56 : Nat)).toNat

/-- BR: a conditional branch (R289). -/
def execBr (t n : Nat) (w : BitVec 27) (s : State) : Host.Outcome State Fault Refusal :=
  .next (s.issue t n 0x06 w false fun s x =>
    match branchCond (bitsOf w.toNat 16 14) (x.xr (fD w)) (x.xr (fA w)) with
    | none => s.illegal x
    | some true => s.putCtx { x with pc := pcPlus x.pc (signedOf 14 (bitsOf w.toNat 13 0)) }
    | some false => s.advance x)

/-- JAL: xd = PC + 4; PC = PC + 4·sext(imm22) (R289). -/
def execJal (t n : Nat) (w : BitVec 27) (s : State) : Host.Outcome State Fault Refusal :=
  .next (s.issue t n 0x07 w false fun s x =>
    s.putCtx { x.setX (fD w) (BitVec.ofNat 64 (pcPlus x.pc 1)) with pc := pcPlus x.pc (signedOf 22 (fImm22 w)) })

/-- JR: xd = PC + 4; PC = xa, which is a 4-byte aligned address of 56 bits (R287, R289). -/
def execJr (t n : Nat) (w : BitVec 27) (s : State) : Host.Outcome State Fault Refusal :=
  .next (s.issue t n 0x08 w false fun s x =>
    if fB w = 0 ∧ fC w = 0 ∧ fF w = 0 then
      s.putCtx { x.setX (fD w) (BitVec.ofNat 64 (pcPlus x.pc 1)) with pc := addr56 (x.xr (fA w)) / 4 * 4 }
    else s.illegal x)

/-- FENCE (R294): release and full wait until every earlier store is acknowledged; every earlier load has returned before
the next instruction issues. -/
def execFence (t n : Nat) (w : BitVec 27) (s : State) : Host.Outcome State Fault Refusal :=
  .next (s.issue t n 0x0A w false fun s1 x =>
    if fD w = 0 ∧ fA w = 0 ∧ fB w = 0 ∧ fC w = 0 ∧ fF w ≤ 2 then
      (if 1 ≤ fF w ∧ s.storesOut t n = true then s else s1.advance x)
    else s1.illegal x)

/-- The special registers (R290). -/
def execSpr (t n : Nat) (w : BitVec 27) (s : State) : Host.Outcome State Fault Refusal :=
  .next (s.issue t n 0x0E w false fun s x =>
    let d := fD w
    let a := x.xr (fA w)
    if fImm13 w ≠ 0 then s.illegal x
    else if fF4 w = 1 then (if d = 0 then s.advance { x with rc := a } else s.illegal x)
    else if fF4 w = 3 then (if d = 0 then s.advance { x with tid := a.toNat % 2 ^ 24 } else s.illegal x)
    else if fA w ≠ 0 then s.illegal x
    else match fF4 w with
      | 0 => s.advance (x.setX d x.rc)
      | 2 => s.advance (x.setX d (BitVec.ofNat 64 x.tid))
      | 4 => s.advance (x.setX d (BitVec.ofNat 64 s.core.step))
      | 5 => s.advance (x.setX d s.core.now)
      | 6 => s.advance (x.setX d (BitVec.ofNat 64 (64 * t + n)))
      | 7 => s.advance (x.setX d (BitVec.ofNat 64 s.core.moduleNo))
      | _ => s.illegal x)

/-- A lane as the low half of a register, above it the bits that the operation leaves open (R289). -/
def laneWord (f : Nat) (a b : Word) (l : Lane) : Word :=
  BitVec.ofNat 64 (l.toNat + (Config.sfpHigh f a b).toNat % 2 ^ 32 * 2 ^ 32)

/-- The operations of SFP (R290). -/
def sfpOp (f : Nat) (a b : Word) : Option Word :=
  let x := a.truncate 32
  let y := b.truncate 32
  match f with
  | 0 => some (laneWord f a b (fAdd x y))
  | 1 => some (laneWord f a b (fSub x y))
  | 2 => some (laneWord f a b (fMul x y))
  | 3 => some (laneWord f a b (fDiv x y))
  | 4 => some (laneWord f a b (fSqrt x))
  | 5 => some (laneWord f a b (minMax false x y))
  | 6 => some (laneWord f a b (minMax true x y))
  | 7 => some (if fLt x y then 1 else 0)
  | 8 => some (laneWord f a b (ofIntL a.toInt))
  | 9 => some (match truncInt 64 x with
      | some v => BitVec.ofInt 64 v
      | none => Config.sfpInt x)
  | 10 => some (BitVec.ofNat 64 (toBf16 x + (Config.sfpHigh f a b).toNat % 2 ^ 48 * 2 ^ 16))
  | _ => none

/-- SFP: scalar FP32 on bits [31:0] (R289). The operations of one operand leave field b reserved. -/
def execSfp (t n : Nat) (w : BitVec 27) (s : State) : Host.Outcome State Fault Refusal :=
  .next (s.issue t n 0x19 w false fun s x =>
    let unary := fF w == 4 || fF w == 8 || fF w == 9 || fF w == 10
    s.resultX x (fD w) (if fC w = 0 ∧ (unary = false ∨ fB w = 0) then sfpOp (fF w) (x.xr (fA w)) (x.xr (fB w)) else none))

/-- EVENT sends an error entry of TYPE 0x03, EVENT 0x10, with ADDRESS = xa and UNIT = imm13 (R289). -/
def execPalmEvent (t n : Nat) (w : BitVec 27) (s : State) : Host.Outcome State Fault Refusal :=
  .next (s.issue t n 0x1C w false fun s x =>
    if fD w = 0 ∧ fF4 w = 0 then
      (s.onCore fun c => c.err { type := 3, event := 0x10, context := n, tile := t, addr := (x.xr (fA w)).toNat,
                                 head := leBytes 8 0 ++ leBytes 4 (fImm13 w) }).advance x
    else s.illegal x).settle

/-! ## Reads of Band (R298, R299, R310) -/

/-- Field `f` of group `g` as BAND reads it (R310). -/
def Core.bandField (c : Core) (g f : Nat) : Option Word :=
  match f with
  | 0 => some (BitVec.ofNat 64 (c.fld (Reg.grpEta g) 31 0))
  | 1 => some (BitVec.ofNat 64 (c.fld (Reg.grpEta g) 63 32))
  | 2 => some (BitVec.ofNat 64 (c.fld (Reg.grpState g) 0 0))
  | 3 => some (BitVec.ofNat 64 (c.fld (Reg.grpCount g) 47 0))
  | 4 => some (BitVec.ofNat 64 (c.fld (Reg.grpState g) 4 4))
  | 5 => some (BitVec.ofNat 64 (c.fld (Reg.grpRoot g) 32 32))
  | 6 => some (BitVec.ofNat 64 c.step)
  | 7 => some (c.rd (Reg.grpLambda g))
  | _ => none

/-- BAND: xd = field f4 of group xa[7:0]; it waits while a boundary runs (R296, R310). -/
def execBand (t n : Nat) (w : BitVec 27) (s : State) : Host.Outcome State Fault Refusal :=
  .next (s.issue t n 0x0B w false fun s1 x =>
    if s.integ.boundaryWait then s
    else s1.resultX x (fD w) (if fImm13 w = 0 then s.core.bandField ((x.xr (fA w)).toNat % 256) (fF4 w) else none))

/-- The number of steps the ring holds: 2^HBITS, none when it is off (R298). -/
def Core.ringBits (c : Core) : Nat := c.fld Reg.bandHistCtrl 4 0

/-- The global address of the ring slot of group `g` for step `k` (R298). -/
def Core.ringSlot (c : Core) (g k : Nat) : Nat :=
  c.fld Reg.bandHistBase 55 0 + 8 * (g * 2 ^ c.ringBits + k % 2 ^ c.ringBits)

/-- The decay sum that the ring holds for a step: zero where its line has an uncorrectable error (R75), and free where the ring does not
lie in this module's memory. -/
def Core.ringRead (c : Core) (g k : Nat) : Word :=
  let at_ := c.ringSlot g k
  if c.isLocal at_ && c.memRange (gaLocal at_) 8 then
    (if c.isUe (gaLocal at_ / 64) then 0 else BitVec.ofNat 64 (c.rdNat (gaLocal at_) 8))
  else BitVec.ofNat 64 (Config.freeNat c.freeCtr)

/-- The step whose ring slot the answer for a row since step `a` reads, if any (R299). -/
def Core.ringStep (c : Core) (g a : Nat) : Option Nat :=
  let now := c.step
  let d := 2 ^ c.ringBits
  if a = 2 ^ 48 - 1 ∨ now ≤ a ∨ c.bit (Reg.grpCtrl g) 3 = false ∨ c.ringBits = 0 then none
  else if now - a < d then some a else some (now + 1 - d)

/-- The read of a ring slot counted and reported as a load of the context (R75, R320, R473). -/
def Core.ringNote (c : Core) (t n g : Nat) (k : Option Nat) : Core :=
  match k with
  | none => c
  | some k =>
    let at_ := c.ringSlot g k
    if c.isLocal at_ && c.memRange (gaLocal at_) 8 then
      let c1 := c.countAccess t 1 .rd at_ 8
      if c.isUe (gaLocal at_ / 64) then (c1.countMemErr (gaLocal at_) true).loadErr t n 0x22 at_ else c1
    else c

/-- The decay sum that a row owes since step `a`, exact, and whether the answer lies beyond the ring (R299). Two sums of the ring differ
as 64-bit words. -/
def State.decayOwed (s : State) (g a : Nat) : Nat × Bool :=
  let c := s.core
  let now := c.step
  let lam := (sGet s.integ.lam g 0).toNat
  let sum := c.rd (Reg.grpLambda g)
  let d := 2 ^ c.ringBits
  if a = 2 ^ 48 - 1 then (lam, false)
  else if now ≤ a then (0, false)
  else if c.bit (Reg.grpCtrl g) 3 = false ∨ c.ringBits = 0 then ((now - a) * lam, false)
  else if now - a < d then ((sum - c.ringRead g a).toNat, false)
  else ((sum - c.ringRead g (now + 1 - d)).toNat + (now + 1 - d - a) * lam, true)

/-- The factor of a decay sum: 1.0 for none owed (R299). -/
def decayOf (v : Nat) : Lane := if v = 0 then 0x3F80_0000 else factorFree v

/-- DGAP (R299): the factor in xd[31:0]; a > n counts in BAND_GAP_BAD, a gap beyond the ring in BAND_GAP_LONG. -/
def execDgap (t n : Nat) (w : BitVec 27) (s : State) : Host.Outcome State Fault Refusal :=
  .next (s.issue t n 0x0C w false fun s1 x =>
    if s.integ.boundaryWait then s
    else if fC w ≠ 0 ∨ fF w ≠ 0 then s1.illegal x
    else
      let a := (x.xr (fB w)).toNat % 2 ^ 48
      let r := s1.decayOwed ((x.xr (fA w)).toNat % 256) a
      let bad := decide (a ≠ 2 ^ 48 - 1) && decide (s1.core.step < a)
      let g := (x.xr (fA w)).toNat % 256
      let s2 := s1.onCore fun c => (((c.bump Reg.bandGapLong r.2.toNat).bump Reg.bandGapBad bad.toNat).fresh.2).ringNote t n g
        (c.ringStep g a)
      (s2.advance (x.setX (fD w) (BitVec.ofNat 64 (decayOf r.1).toNat))).settle)

/-! ## Touch maps (R188, R301) -/

/-- One line of a touch map read by TMNEXT. -/
def State.tmLine (s : State) (x : Ctx) (ga : Nat) : State × List Byte :=
  let r := s.palmRead x.t x.n ga 64
  (r.1.onCore fun c => c.bump (Reg.palmTmnextLines x.t) 1, r.2)

/-- Whether bit `i` of a line is set. -/
def lineBit (bs : List Byte) (i : Nat) : Bool := (bs.getD (i / 8) 0).getLsbD (i % 8)

/-- The cause that a line of a touch map halts its context with, as a plain load of it would (R79, R291). -/
def Core.tmCause (c : Core) (ga : Nat) : Option Nat :=
  match c.reach ga 64 with
  | .ctl => some 5
  | .halt k => some k
  | _ => none

/-- What a scan of a touch map comes to. -/
inductive Scan where
  | found (row : Nat)
  | none
  | halt (cause : Nat)
  deriving DecidableEq, Repr

/-- The scan of R301 from 512-row group `g`: the next marked row at or after `r` and below `rows`. `held` is the summary
line last read, by its number. A scan that lacks a line of another module ends there; it is run again once the line has come. -/
def State.tmScan (fuel : Nat) (s : State) (x : Ctx) (base rows r g : Nat) (held : Option (Nat × List Byte)) :
    State × Scan :=
  match fuel with
  | 0 => (s, .none)
  | k + 1 =>
    let sumAt := (base + 64 * (g / 512)) % 2 ^ 56
    let known := match held with
      | some h => h.1 == g / 512
      | none => false
    match if known then none else s.core.tmCause sumAt with
    | some c => (s, .halt c)
    | none =>
      let q : State × List Byte := match held with
        | some h => if h.1 = g / 512 then (s, h.2) else s.tmLine x sumAt
        | none => s.tmLine x sumAt
      if q.1.core.want ≠ [] then (q.1, .none)
      else if lineBit q.2 (g % 512) then
        let at_ := (base + 64 * ceilDiv rows 262144 + 64 * g) % 2 ^ 56
        match q.1.core.tmCause at_ with
        | some c => (q.1, .halt c)
        | none =>
          let e := q.1.tmLine x at_
          if e.1.core.want ≠ [] then (e.1, .none)
          else
            match (List.range 512).find? fun i => decide (r ≤ 512 * g + i) && decide (512 * g + i < rows) && lineBit e.2 i with
            | some i => (e.1, .found (512 * g + i))
            | none => State.tmScan k e.1 x base rows r (g + 1) (some (g / 512, q.2))
      else State.tmScan k q.1 x base rows r (g + 1) (some (g / 512, q.2))

/-- What TMNEXT does: the next marked row at or after xa in touch map f4[1:0] of the context's tile, all ones for none (R301); `base` and `rows`
are the map's registers as they stood at its issue. -/
def State.tmnext (s : State) (x : Ctx) (w : BitVec 27) (base rows : Nat) : State :=
  let r := (x.xr (fA w)).toNat
  let res := s.tmScan (ceilDiv rows 512 - r / 512) x base rows r (r / 512) none
  match res.2 with
  | .found row => res.1.advance (x.setX (fD w) (BitVec.ofNat 64 row))
  | .none => res.1.advance (x.setX (fD w) (BitVec.allOnes 64))
  | .halt k => res.1.halt x.t x.n k

/-- A context that a TMNEXT blocks keeps the map's registers that it read. -/
def State.keepMap (s : State) (t n base rows : Nat) : State :=
  { s with palm := s.palm.map fun y => if y.isOf t n && y.blocked then { y with tmap := (base, rows) } else y }

/-- TMNEXT (R301). -/
def execTmnext (t n : Nat) (w : BitVec 27) (s : State) : Host.Outcome State Fault Refusal :=
  .next (s.issue t n 0x0D w false fun s x =>
    let base := s.core.fld (Reg.tmapBase t (fF4 w)) 55 0
    let rows := s.core.fld (Reg.tmapRows t (fF4 w)) 39 0
    if fF4 w < 4 ∧ fImm13 w = 0 then (s.loading x 0x0D w fun s x => s.tmnext x w base rows).keepMap t n base rows else s.illegal x).settle

/-! ## Vector operations -/

/-- The lanes of operand b: of v_b, or xb[31:0] broadcast when f[6] is 1 (R289). -/
def Ctx.lanesB (x : Ctx) (w : BitVec 27) : List Lane :=
  if bitOf (fF w) 6 then List.replicate 16 ((x.xr (fB w)).truncate 32) else x.vr (fB w)

/-- The operations of VOP (R290). -/
def vopOp (op : Nat) (a b : Lane) : Option Lane :=
  match op with
  | 0 => some (fAdd a b)
  | 1 => some (fSub a b)
  | 2 => some (fMul a b)
  | 3 => some (fDiv a b)
  | 4 => some (minMax false a b)
  | 5 => some (minMax true a b)
  | 6 => some (fAbs a ||| (b &&& 0x8000_0000))
  | _ => none

/-- An operation on each of the 16 lanes; `none` when its code is illegal. -/
def perLane (f : Nat → Option Lane) : Option (List Lane) :=
  (List.range 16).foldr (fun i acc => match f i, acc with
    | some l, some ls => some (l :: ls)
    | _, _ => none) (some [])

/-- VOP: vd = va op vb per lane (R289). -/
def execVop (t n : Nat) (w : BitVec 27) (s : State) : Host.Outcome State Fault Refusal :=
  .next (s.issue t n 0x11 w true fun s x =>
    s.resultV x (fD w) (if fC w = 0 ∧ bitsOf (fF w) 5 4 = 0 then
      perLane fun i => vopOp (bitsOf (fF w) 3 0) (x.lane (fA w) i) ((x.lanesB w).getD i 0) else none))

/-- VFMA: vd = (±va·vb) ± vc with one rounding (R289). -/
def execVfma (t n : Nat) (w : BitVec 27) (s : State) : Host.Outcome State Fault Refusal :=
  .next (s.issue t n 0x12 w true fun s x =>
    let sgn := fun (b : Bool) (l : Lane) => if b then fNeg l else l
    s.resultV x (fD w) (if bitsOf (fF w) 5 2 = 0 then
      perLane fun i => some (fFma (sgn (bitOf (fF w) 0) (x.lane (fA w) i)) ((x.lanesB w).getD i 0)
        (sgn (bitOf (fF w) 1) (x.lane (fC w) i))) else none))

/-- The functions of VFN (R290). -/
def vfnOp (op : Nat) (a : Lane) : Option Lane :=
  match op with
  | 0 => some (fSqrt a)
  | 1 => some (palmFree 1 a)
  | 2 => some (palmFree 2 a)
  | 3 => some (palmFree 3 a)
  | 4 => some (palmFree 4 a)
  | 5 => some (fAbs a)
  | 6 => some (fNeg a)
  | 7 => some (signLane a)
  | 8 => some (if isFinL a then 0x3F80_0000 else 0)
  | 9 => some (palmFree 9 a)
  | _ => none

/-- VFN: vd = function of va per lane (R289). -/
def execVfn (t n : Nat) (w : BitVec 27) (s : State) : Host.Outcome State Fault Refusal :=
  .next (s.issue t n 0x13 w true fun s x =>
    s.resultV x (fD w) (if fB w = 0 ∧ fC w = 0 ∧ fF w < 16 then perLane fun i => vfnOp (fF w) (x.lane (fA w) i) else none))

/-- VSEL: vd = vc where (va cond vb), unchanged elsewhere (R289). -/
def execVsel (t n : Nat) (w : BitVec 27) (s : State) : Host.Outcome State Fault Refusal :=
  .next (s.issue t n 0x14 w true fun s x =>
    s.resultV x (fD w) (if fF w < 8 then
      perLane fun i => (laneCond (fF w) (x.lane (fA w) i) (x.lane (fB w) i)).map fun b =>
        if b then x.lane (fC w) i else x.lane (fD w) i else none))

/-- One level of a reduction tree: neighbours combined. -/
def pairUp (f : Lane → Lane → Lane) : List Lane → List Lane
  | a :: b :: r => f a b :: pairUp f r
  | l => l

/-- The fixed tree of R120 over sixteen lanes. -/
def tree16 (f : Lane → Lane → Lane) (ls : List Lane) : Lane := (pairUp f (pairUp f (pairUp f (pairUp f ls)))).getD 0 0

/-- VRED: xd[31:0] = the sum, maximum or minimum of va's lanes; xd[63:32] = 0 (R289, R290). -/
def execVred (t n : Nat) (w : BitVec 27) (s : State) : Host.Outcome State Fault Refusal :=
  .next (s.issue t n 0x15 w true fun s x =>
    let ls := x.vr (fA w)
    let r : Option Lane := match fF w with
      | 0 => some (tree16 fAdd ls)
      | 1 => some (tree16 (minMax true) ls)
      | 2 => some (tree16 (minMax false) ls)
      | _ => none
    s.resultX x (fD w) (if fB w = 0 ∧ fC w = 0 then r.map fun l => BitVec.ofNat 64 l.toNat else none))

/-- VMOV: moves and conversions (R290). A lane number takes four bits of field b. -/
def execVmov (t n : Nat) (w : BitVec 27) (s : State) : Host.Outcome State Fault Refusal :=
  .next (s.issue t n 0x16 w true fun s x =>
    let va := x.vr (fA w)
    let low : Lane := (x.xr (fA w)).truncate 32
    if fC w ≠ 0 ∨ 16 ≤ fB w then s.illegal x
    else match fF w, fB w with
      | 0, 0 => s.advance (x.setV (fD w) (List.replicate 16 low))
      | 1, b => s.advance (x.setX (fD w) (BitVec.ofNat 64 (va.getD b 0).toNat))
      | 2, b => s.advance (x.setV (fD w) ((x.vr (fD w)).set b low))
      | 3, 0 => s.advance (x.setV (fD w) (va.map fun l => ofIntL l.toInt))
      | 4, 0 => s.advance (x.setV (fD w) (va.map satInt32))
      | 5, 0 => s.advance (x.setV (fD w) va)
      | _, _ => s.illegal x)

/-- The operations of VINT (R290). -/
def vintOp (op : Nat) (a b : Lane) : Option Lane :=
  match op with
  | 0 => some (a + b)
  | 1 => some (a - b)
  | 2 => some (a &&& b)
  | 3 => some (a ||| b)
  | 4 => some (a ^^^ b)
  | 5 => some (a <<< (b.toNat % 32))
  | 6 => some (a >>> (b.toNat % 32))
  | 7 => some (a.sshiftRight (b.toNat % 32))
  | 8 => some (if b.slt a then b else a)
  | 9 => some (if a.slt b then b else a)
  | _ => none

/-- VINT: vd = va op vb per lane, 32-bit integer (R289). -/
def execVint (t n : Nat) (w : BitVec 27) (s : State) : Host.Outcome State Fault Refusal :=
  .next (s.issue t n 0x1A w true fun s x =>
    s.resultV x (fD w) (if fC w = 0 ∧ fF w < 16 then
      perLane fun i => vintOp (fF w) (x.lane (fA w) i) (x.lane (fB w) i) else none))

/-- VPERM: vd lane i = va lane (vb lane i)[3:0] (R289). -/
def execVperm (t n : Nat) (w : BitVec 27) (s : State) : Host.Outcome State Fault Refusal :=
  .next (s.issue t n 0x1B w true fun s x =>
    s.resultV x (fD w) (if fC w = 0 ∧ fF w = 0 then
      perLane fun i => some (x.lane (fA w) ((x.lane (fB w) i).toNat % 16)) else none))

/-- VSTEP (R303, R413): vd = va − η·dir with one rounding, dir the sign of vc in sign mode and vb otherwise; vd = va for a
disabled group and while a step is held. -/
def execVstep (t n : Nat) (w : BitVec 27) (s : State) : Host.Outcome State Fault Refusal :=
  .next (s.issue t n 0x18 w true fun s x =>
    if bitsOf (fF w) 1 0 ≠ 0 then s.illegal x
    else
      let g := (x.xr (bitsOf (fF w) 6 2)).toNat % 256
      let c := s.core
      let eta : Lane := BitVec.ofNat 32 (c.fld (Reg.grpEta g) 31 0)
      let sign := c.bit (Reg.grpState g) 0
      if c.bit (Reg.grpCtrl g) 0 = false ∨ c.held = true then s.advance (x.setV (fD w) (x.vr (fA w)))
      else
        let dir := fun i => if sign then signLane (x.lane (fC w) i) else x.lane (fB w) i
        let s1 := if sign then s.onCore fun c => c.bump (Reg.palmSignElems t) 16 else s
        s1.advance (x.setV (fD w) ((List.range 16).map fun i => fFma (fNeg eta) (dir i) (x.lane (fA w) i))))

/-! ## Accumulates, gathers and scatters -/

/-- The cause that VACC halts with for its address: MODULE_NO is not set or the address lies in another module's control space
(R77, R79), or in this module's own (R291). Any other address the adders answer (R326). -/
def Core.vaccCause (c : Core) (ga : Nat) : Option Nat :=
  let l := ga / 64 * 64
  match c.reach l 64 with
  | .ctl => some 5
  | .halt k => if !c.isSet || gaModule ga != c.moduleNo then some k else none
  | _ => none

/-- VACC (R324, R326, R327, R333): an ADD of all sixteen lanes into the HBM line at xa, with rank 0x8000 + 64·t + context;
a refusal or an uncorrectable error sends an error entry of TYPE 0x02. An address in another module's control space halts the
context (R79), one in this module's own halts it with cause 0x05 (R291). -/
def execVacc (t n : Nat) (w : BitVec 27) (s : State) : Host.Outcome State Fault Refusal :=
  .next (s.issue t n 0x17 w true fun s x =>
    let ga := addr56 (x.xr (fA w))
    let rank := 0x8000 + 64 * t + n
    let ls := x.vr (fD w)
    if fB w ≠ 0 ∨ fC w ≠ 0 ∨ fF w ≠ 0 then s.illegal x
    else
      match s.core.vaccCause ga with
      | some k => s.halt t n k
      | none =>
        let c := s.core.countAccess t 2 .acc ga 64
        if c.isLocal ga then
          let r := c.adderAdd (gaLocal ga) rank (BitVec.allOnes 16) ls (.store t n ga)
          (({ s with core := if r.2 = 0 then r.1 else r.1.threadErr t n r.2 ga } : State)).advance x
        else if c.reachable (gaModule ga) then
          (s.onCore fun _ => c.request (gaModule ga) 2 (.store t n ga) fun tag =>
            msgAccum 0 tag rank 0xFFFF ga (lanesBytes ls)).advance x
        else (s.onCore fun _ => c.threadErr t n 0x40 ga).advance x).settle

/-- The addresses xa + 4·(vb lane i) of VGTH and VSCT, and the halt cause of the first that neither may take: they take
4-byte aligned addresses of this module's memory (R291). -/
def State.gatherAddrs (s : State) (x : Ctx) (w : BitVec 27) : List Nat × Option Nat :=
  let as_ := (List.range 16).map fun i => (addr56 (x.xr (fA w)) + 4 * (x.lane (fB w) i).toNat) % 2 ^ 56
  let cause := fun a => match s.core.reach a 4 with
    | .ctl => some 5
    | .halt k => some k
    | .remote => some 3
    | .mem => if a % 4 = 0 then none else some 3
  (as_, as_.findSome? cause)

/-- VGTH: vd lane i = the 32-bit word at xa + 4·(vb lane i) (R289). -/
def execVgth (t n : Nat) (w : BitVec 27) (s : State) : Host.Outcome State Fault Refusal :=
  .next (s.issue t n 0x1D w true fun s x =>
    let g := s.gatherAddrs x w
    if fC w ≠ 0 ∨ fF w ≠ 0 then s.illegal x
    else match g.2 with
      | some k => s.halt t n k
      | none =>
        let r := g.1.foldl (fun (acc : State × List Lane) a =>
          let q := acc.1.palmRead t n a 4
          (q.1, acc.2 ++ [BitVec.ofNat 32 (leNat q.2)])) (s, [])
        r.1.advance (x.setV (fD w) r.2)).settle

/-- VSCT: the 32-bit word at xa + 4·(vb lane i) = v-register d lane i, lanes in ascending order (R289). -/
def execVsct (t n : Nat) (w : BitVec 27) (s : State) : Host.Outcome State Fault Refusal :=
  .next (s.issue t n 0x1E w true fun s x =>
    let g := s.gatherAddrs x w
    if fC w ≠ 0 ∨ fF w ≠ 0 then s.illegal x
    else match g.2 with
      | some k => s.halt t n k
      | none =>
        ((g.1.zip (x.vr (fD w))).foldl (fun s p => s.palmWrite t n p.1 (leBytes 4 p.2.toNat)) s).advance x).settle

/-! ## Waiting (R294) -/

/-- WAITNE: while the 8-byte word at xa equals xb the context waits. The word must be 8-byte aligned and local. -/
def execWaitne (t n : Nat) (w : BitVec 27) (s : State) : Host.Outcome State Fault Refusal :=
  .next (s.issue t n 0x09 w false fun s x =>
    let ga := addr56 (x.xr (fA w))
    if fD w ≠ 0 ∨ fC w ≠ 0 ∨ fF w ≠ 0 then s.illegal x
    else match s.core.reach ga 8 with
      | .ctl => s.halt t n 5
      | .halt k => s.halt t n k
      | .remote => s.illegal x
      | .mem =>
        if ga % 8 ≠ 0 then s.illegal x
        else
          let r := s.palmRead t n ga 8
          if BitVec.ofNat 64 (leNat r.2) = x.xr (fB w) then
            (r.1.onCore fun c => c.setFld (Reg.ctxStatus t n) 1 0 2).putCtx { x with waitAddr := ga, waitVal := x.xr (fB w) }
          else r.1.advance x).settle

/-- CONTEXT_WAKE (R73, R294): a waiting context reads its word again, and goes on past its WAITNE when it has changed. -/
def State.contextWake (s : State) (t n : Nat) : State :=
  match s.ctx? t n with
  | none => s
  | some x =>
    if s.core.ctxState t n = 2 then
      let r := s.palmRead t n x.waitAddr 8
      if BitVec.ofNat 64 (leNat r.2) = x.waitVal then r.1
      else (r.1.onCore fun c => (c.countWait t).setFld (Reg.ctxStatus t n) 1 0 1).advance x
    else s

/-- See `State.contextWake`. -/
def execContextWake (t n : Nat) (s : State) : Host.Outcome State Fault Refusal := s.clocked <| .next (s.contextWake t n).settle

/-! ## VLD (R292) -/

/-- The record format code of a VLD FMT code, and its element bits; FMT 0 and 9 load raw lanes. -/
def vldFmt (fmt : Nat) : Nat × Nat :=
  match fmt with
  | 1 => (2, 16)
  | 2 => (1, 16)
  | 3 => (3, 8)
  | 4 => (4, 8)
  | 5 => (5, 4)
  | 6 => (6, 8)
  | 7 => (11, 8)
  | 8 => (10, 4)
  | _ => (0, 32)

/-- Element `i` of `bits` bits in a list of bytes, low bits first. -/
def elemAt (bs : List Byte) (bits i : Nat) : Nat := leNat bs / 2 ^ (bits * i) % 2 ^ bits

/-- The lane count in a register: x0 or 0 gives 16 (R292, R293). -/
def laneCount (v : Word) : Nat := if v.toNat % 32 = 0 then 16 else min (v.toNat % 32) 16

/-- The lanes of a wide load from its bytes, with the Lining of a BF16 weight (R279). -/
def wideLanes (fmt count : Nat) (bs lining : List Byte) : List Lane :=
  (List.range 16).map fun j =>
    if count ≤ j then (0 : Lane)
    else
      let e := elemAt bs (vldFmt fmt).2 j
      if fmt = 0 ∨ fmt = 9 then BitVec.ofNat 32 e
      else if fmt = 1 ∧ lining ≠ [] then unline 2 8 127 e (lining.getD j 0).toNat
      else toLane (elemVal (vldFmt fmt).1 e 127)

/-- The ranges a VLD reads besides a fallback store: its elements, its scale byte and its Lining. -/
structure VldPlan where
  fmt : Nat
  narrow : Bool
  count : Nat
  chunk : Nat
  base : Nat
  els : Nat × Nat
  scale : Option Nat
  lining : Option (Nat × Nat)
  deriving DecidableEq, Repr

/-- See `VldPlan`; `none` for an illegal instruction. -/
def Ctx.vldPlan (x : Ctx) (w : BitVec 27) : Option VldPlan :=
  let fmt := bitsOf (fF w) 6 3
  let narrow := decide (3 ≤ fmt) && decide (fmt ≤ 6)
  let bits := (vldFmt fmt).2
  let xb := x.xr (fB w)
  let base := addr56 (x.xr (fA w))
  let count := if narrow then 16 else laneCount xb
  let chunk := if narrow then xb.toNat / 2 ^ 56 else 0
  let lin := addr56 (x.xr (fC w))
  if 9 < fmt ∨ bitsOf (fF w) 2 0 ≠ 0 ∨ (fC w ≠ 0 ∧ fmt ≠ 1 ∧ fmt ≠ 3 ∧ fmt ≠ 4) then none
  else some
    { fmt := fmt, narrow := narrow, count := count, chunk := chunk, base := base,
      els := (base + chunk * 2 * bits, (count * bits + 7) / 8),
      scale := if narrow then some (addr56 xb) else none,
      lining := if fC w = 0 then none else if fmt = 1 then some (lin, count) else some (lin + 8 * chunk, 8) }

/-- The ranges of a plan. -/
def VldPlan.ranges (p : VldPlan) : List (Nat × Nat) :=
  [p.els] ++ (match p.scale with
    | some a => [(a, 1)]
    | none => []) ++ (match p.lining with
    | some r => [r]
    | none => [])

/-- The halt cause of the first range that a vector load or store may not take. -/
def Core.rangesCause (c : Core) (rs : List (Nat × Nat)) : Option Nat :=
  rs.findSome? fun r => match c.reach r.1 r.2 with
    | .ctl => some 5
    | .halt k => some k
    | _ => none

/-- The lanes that a plan loads; a block with scale byte 0xFF is read from its slots (R268), and counts in NUM_FB_READS. -/
def State.vldLanes (s : State) (x : Ctx) (p : VldPlan) : State × List Lane :=
  let r := s.palmRead x.t x.n p.els.1 p.els.2
  let l : State × List Byte := match p.lining with
    | some q => r.1.palmRead x.t x.n q.1 q.2
    | none => (r.1, [])
  match p.scale with
  | none => (l.1, wideLanes p.fmt p.count r.2 l.2)
  | some a =>
    let sc := l.1.palmRead x.t x.n a 1
    let scale := (sc.2.getD 0 0).toNat
    let code := (vldFmt p.fmt).1
    if scale = 0xFF then
      let h := sc.1.palmRead x.t x.n p.base 4
      let f0 := leNat h.2
      let first := h.1.core.fld Reg.numFbBase 43 0 + 256 * f0 + 32 * p.chunk
      let inStore := decide (f0 ≠ 0xFFFF_FFFF) && decide (f0 + ceilDiv (16 * p.chunk + 16) 128 ≤ h.1.core.fld Reg.numFbSlots 31 0)
      let v : State × List Byte := if inStore then h.1.palmRead x.t x.n (h.1.core.global first) 32 else (h.1, [])
      (v.1.onCore fun c => c.bump Reg.numFbReads 1,
       (List.range 16).map fun j => if inStore then ofBf16 (leField v.2 (2 * j) 2) else nanLane)
    else
      (sc.1, (List.range 16).map fun j =>
        let e := elemAt r.2 (vldFmt p.fmt).2 j
        if l.2 = [] then toLane (elemVal code e scale) else unline code 4 scale e (elemAt l.2 4 j))

/-- What VLD does with its plan. -/
def State.vld (s : State) (x : Ctx) (w : BitVec 27) (p : VldPlan) : State :=
  let r := s.vldLanes x p
  r.1.advance (x.setV (fD w) r.2)

/-- VLD (R292): a widening load. A load from another module waits for its responses. -/
def execVld (t n : Nat) (w : BitVec 27) (s : State) : Host.Outcome State Fault Refusal :=
  .next (s.issue t n 0x0F w true fun s x =>
    match x.vldPlan w with
    | none => s.illegal x
    | some p =>
      match s.core.rangesCause p.ranges with
      | some k => s.halt t n k
      | none =>
        if p.ranges.length = 1 ∧ s.core.reach p.els.1 p.els.2 = .remote ∧ s.core.reachable (gaModule p.els.1) = true then
          (s.onCore fun c => (c.countAccess t 1 .rd p.els.1 p.els.2).request (gaModule p.els.1) 1
            (.load t n (0x0F * 2 ^ 27 + w.toNat)) fun tag => msgReadReq p.els.1 p.els.2 tag).block t n
        else s.loading x 0x0F w fun s x => s.vld x w p).settle

/-! ## Loads of LD that stay in memory (R289, R291) -/

/-- The value that LD puts in its register: 2^f4[1:0] bytes, sign-extended under f4[2] (R289). -/
def ldValue (w : BitVec 27) (bs : List Byte) : Word :=
  let n := 2 ^ bitsOf (fF4 w) 1 0
  let v := leField bs 0 n
  if bitOf (fF4 w) 2 then BitVec.ofInt 64 (signedOf (8 * n) v) else BitVec.ofNat 64 v

/-- The address of LD and ST: xa + sext(imm13), modulo 2^56. -/
def Ctx.ldAddr (x : Ctx) (w : BitVec 27) : Nat := addr56 (x.xr (fA w) + sextW 13 (fImm13 w))

/-- The addresses and sizes of the accesses that LD or ST makes: one when it is naturally aligned, else one for each byte (R291). -/
def splitAccess (ga n : Nat) : List (Nat × Nat) := if ga % n = 0 then [(ga, n)] else (List.range n).map fun i => (ga + i, 1)

/-- The accesses of a load, one after another. -/
def State.readParts (s : State) (t n : Nat) (ps : List (Nat × Nat)) : State × List Byte :=
  ps.foldl (fun (acc : State × List Byte) p =>
    let r := acc.1.palmRead t n p.1 p.2
    (r.1, acc.2 ++ r.2)) (s, [])

/-- What LD does with an address in memory, of this module or another. -/
def State.ldMem (s : State) (x : Ctx) (w : BitVec 27) : State :=
  let r := s.readParts x.t x.n (splitAccess (x.ldAddr w) (2 ^ bitsOf (fF4 w) 1 0))
  r.1.advance (x.setX (fD w) (ldValue w r.2))

/-! ## Loads that waited for other modules -/

/-- The load of an instruction word carried out: TMNEXT, VLD or LD. -/
def State.loadBy (s : State) (x : Ctx) (opc : Nat) (w : BitVec 27) : State :=
  if opc = 0x0D then s.tmnext x w x.tmap.1 x.tmap.2
  else if opc = 0x0F then
    match x.vldPlan w with
    | some p => s.vld x w p
    | none => s
  else s.ldMem x w

/-- A context goes on with the load that blocks it, once nothing is still to come for it: the load takes effect, or requests what
it then lacks. A STOP written meanwhile halts the context after it (R73). -/
def State.resume (s : State) (t n : Nat) : State :=
  match s.ctx? t n with
  | none => s
  | some x =>
    if x.blocked = false ∨ x.instr = 0 ∨ s.core.fetching (.ctx t n) = true then s
    else
      let w := BitVec.ofNat 27 x.instr
      let opc := x.instr / 2 ^ 27
      let y : Ctx := { x with blocked := false, instr := 0 }
      let s1 := (s.putCtx y).loading y opc w fun s x => s.loadBy x opc w
      if s1.core.fetching (.ctx t n) then s1 else s1.unblock t n

end Sys2Proof.Machine
end

