-- ==== Sys2Proof/Machine/Wire.lean ====
section
/-! DEFINITION. Frames on the host ports (R364 to R366, R369): Ethernet, IPv4, IPv6 and UDP headers with their checksums, and
command datagrams. The header layouts are those of the standards that the spec names (PRESUMED, log entry 50). -/

namespace Sys2Proof.Machine

/-! ## Checksums and headers -/

/-- One's-complement sum of 16-bit words, most significant byte first. -/
def onesSum (bs : List Byte) : Nat :=
  let t := ((List.range ((bs.length + 1) / 2)).map fun i => beNat (bytesAt bs (2 * i) 2)).sum
  let f := fun (v : Nat) => v / 65536 + v % 65536
  f (f (f (f t)))

/-- The internet checksum of bytes. -/
def inetSum (bs : List Byte) : Nat := 0xFFFF - onesSum bs

/-- The pseudo-header of a UDP checksum. -/
def pseudoHeader (v6 : Bool) (src dst len : Nat) : List Byte :=
  if v6 then beBytes 16 src ++ beBytes 16 dst ++ beBytes 4 len ++ [0, 0, 0, 17]
  else beBytes 4 src ++ beBytes 4 dst ++ [0, 17] ++ beBytes 2 len

/-- A UDP datagram with its checksum, which zero turns into 0xFFFF. -/
def udpBytes (v6 : Bool) (src dst sport dport : Nat) (body : List Byte) : List Byte :=
  let len := 8 + body.length
  let head := fun (k : Nat) => beBytes 2 sport ++ beBytes 2 dport ++ beBytes 2 len ++ beBytes 2 k
  let k := inetSum (pseudoHeader v6 src dst len ++ head 0 ++ body)
  head (if k = 0 then 0xFFFF else k) ++ body

/-- An IP packet that carries UDP, with ECN zero and a TTL or hop limit of 64 (R366). `free` gives the IPv4 identification and
the don't-fragment flag, which the spec leaves open. -/
def ipBytes (v6 : Bool) (src dst free : Nat) (body : List Byte) : List Byte :=
  if v6 then [0x60, 0, 0, 0] ++ beBytes 2 body.length ++ [17, 64] ++ beBytes 16 src ++ beBytes 16 dst ++ body
  else
    let head := fun (k : Nat) => [0x45, 0] ++ beBytes 2 (20 + body.length) ++ beBytes 2 (free % 65536) ++
      beBytes 2 (free / 65536 % 2 * 0x4000) ++ [64, 17] ++ beBytes 2 k ++ beBytes 4 src ++ beBytes 4 dst
    head (inetSum (head 0)) ++ body

/-- An Ethernet frame without its FCS. -/
def ethBytes (dst src ty : Nat) (body : List Byte) : List Byte := beBytes 6 dst ++ beBytes 6 src ++ beBytes 2 ty ++ body

/-- A port's IPv6 address. -/
def Core.ipv6 (c : Core) (p : Nat) : Nat := (c.rd (Reg.epIpv6Lo p)).toNat + 2 ^ 64 * (c.rd (Reg.epIpv6Hi p)).toNat

/-- A frame sent on a port whose link is up, counted in EP_TX_BYTES. -/
def Core.sendFrame (c : Core) (p : Nat) (bytes : List Byte) : Core :=
  if c.bit (Reg.epStatus p) 0 then (c.bump (Reg.epTxBytes p) bytes.length).emit (.eth p bytes) else c

/-- A UDP datagram sent on a port to an address (R366). -/
def Core.sendUdp (c : Core) (p : Nat) (dst : NetAddr) (body : List Byte) : Core :=
  let udp := udpBytes dst.v6 dst.me dst.ip dst.port dst.udp body
  let ip := ipBytes dst.v6 dst.me dst.ip (Config.freeNat c.freeCtr) udp
  c.fresh.2.sendFrame p (ethBytes dst.mac (c.rd (Reg.epMac p)).toNat (if dst.v6 then 0x86DD else 0x0800) ip)

/-! ## What a received frame holds -/

/-- A received frame's IP packet with UDP: its version, source, destination, ports, UDP payload, and whether the rules of R365
on options, fragments, header and UDP checksums hold. -/
structure UdpView where
  v6 : Bool
  src : Nat
  dst : Nat
  sport : Nat
  dport : Nat
  body : List Byte
  clean : Bool
  deriving DecidableEq, Repr

/-- The protocol behind an IPv6 packet's extension headers, and where its header begins in the frame: `proto` is the next-header
value and `o` the place reached. The later fragments of a packet have none. -/
def ip6Skip : Nat → List Byte → Nat → Nat → Nat × Nat
  | 0, _, _, o => (59, o)
  | n + 1, f, proto, o =>
    let len := leField f (o + 1) 1
    match proto with
    | 0 => ip6Skip n f (leField f o 1) (o + 8 + 8 * len)
    | 43 => ip6Skip n f (leField f o 1) (o + 8 + 8 * len)
    | 60 => ip6Skip n f (leField f o 1) (o + 8 + 8 * len)
    | 135 => ip6Skip n f (leField f o 1) (o + 8 + 8 * len)
    | 51 => ip6Skip n f (leField f o 1) (o + 8 + 4 * len)
    | 44 => if 8 ≤ beNat (bytesAt f (o + 2) 2) then (59, o) else ip6Skip n f (leField f o 1) (o + 8)
    | p => (p, o)

/-- See `ip6Skip`. -/
def ip6Proto (f : List Byte) : Nat × Nat := ip6Skip f.length f (leField f 20 1) 54

/-- The UDP view of an Ethernet frame, if it carries UDP. -/
def udpView (f : List Byte) : Option UdpView :=
  let be := fun (o n : Nat) => beNat (bytesAt f o n)
  let view := fun (v6 : Bool) (src dst o : Nat) (clean : Bool) =>
    let len := be (o + 4) 2
    let udp := bytesAt f o len
    let good := be (o + 6) 2 == 0 || onesSum (pseudoHeader v6 src dst len ++ udp) == 0xFFFF
    ({ v6 := v6, src := src, dst := dst, sport := be o 2, dport := be (o + 2) 2, body := udp.drop 8,
       clean := clean && good && decide (8 ≤ len) && decide (o + len ≤ f.length) } : UdpView)
  match be 12 2 with
  | 0x0800 =>
    let ihl := be 14 1 % 16
    if be 14 1 / 16 = 4 ∧ be 23 1 = 17 ∧ be 20 2 % 0x2000 = 0 then
      some (view false (be 26 4) (be 30 4) (14 + 4 * ihl)
        (ihl == 5 && be 20 2 % 0x4000 == 0 && onesSum (bytesAt f 14 20) == 0xFFFF))
    else none
  | 0x86DD =>
    let r := ip6Proto f
    if r.1 = 17 then some (view true (be 22 16) (be 38 16) r.2 (r.2 == 54)) else none
  | _ => none

/-! ## Command datagrams (R369) -/

/-- A command datagram. -/
def datagram (kind ctx seq ack queue count token : Nat) (body : List Byte) : List Byte :=
  let head := fun (crc : Nat) => leBytes 4 0x5A43_4D31 ++ leBytes 1 1 ++ leBytes 1 kind ++ leBytes 2 ctx ++ leBytes 4 seq ++
    leBytes 4 ack ++ leBytes 2 queue ++ leBytes 2 count ++ leBytes 4 token ++ leBytes 4 crc ++ leBytes 4 0
  head (crc32 (head 0 ++ body)) ++ body

/-- Whether a datagram's MAGIC and CRC hold. -/
def datagramGood (d : List Byte) : Bool :=
  leField d 0 4 == 0x5A43_4D31 && crc32 (bytesAt d 0 24 ++ leBytes 4 0 ++ d.drop 28) == leField d 24 4

/-- Whether serial number `a` comes before `b`, modulo 2^32. -/
def seqBefore (a b : Nat) : Bool := decide (0 < (b + 2 ^ 32 - a) % 2 ^ 32) && decide ((b + 2 ^ 32 - a) % 2 ^ 32 < 2 ^ 31)

/-! ## Messages in a stream (R376, R388) -/

/-- The length of a message from its first bytes; `none` for a KIND that is no message. The reduction packets are those of
R351, the Hatbox stream's as Machine/Hatbox.lean lays it out. -/
def msgLen (m : List Byte) : Option Nat :=
  match leField m 0 1 with
  | 0x01 => some 64
  | 0x02 => some (16 + 64 * leField m 1 1)
  | 0x03 => some 16
  | 0x04 => some 16
  | 0x05 => some 16
  | 0x06 => some 16
  | 0x10 => some 16
  | 0x11 => some (16 + roundUp (leField m 4 4) 16)
  | 0x12 => some (16 + roundUp (leField m 4 4) 16)
  | 0x13 => some 16
  | 0x14 => some 80
  | 0x15 => some 16
  | 0x16 => some (16 + 64 * leField m 1 1)
  | 0x17 => some 16
  | 0x18 => some 16
  | 0x20 => some (if leField m 1 1 = 1 then 16 + 256 else 16 + 0x4000)
  | 0x21 => some 16
  | 0x22 => some (16 + 256)
  | 0x23 => some 16
  | 0x24 => some (if m.length < 20 then 80 else 16 + 64 * leField m 18 2)
  | 0x25 => some (16 + 256)
  | 0x26 => some (16 + 0x4000)
  | 0x27 => some 16
  | _ => none

/-- The whole messages at the front of a byte list, and the bytes of one still incomplete. A KIND of zero at a message boundary
pads the rest (R376), as does a KIND that is no message. -/
def splitMsgs : Nat → List Byte → List (List Byte) × List Byte
  | 0, _ => ([], [])
  | n + 1, bs =>
    if bs.isEmpty then ([], [])
    else
      match msgLen bs with
      | none => ([], [])
      | some k =>
        if bs.length < k then ([], bs)
        else
          let r := splitMsgs n (bs.drop k)
          (bs.take k :: r.1, r.2)

end Sys2Proof.Machine
end

