-- ==== Sys2Proof/Machine/Messages.lean ====
section
/-! DEFINITION. Messages between modules (R387 to R391): what their arrival does, and how requests end. Partner contexts' teardown
(R394) stands here, since a peer's refusal of a push is one of its causes. -/

namespace Sys2Proof.Machine

/-! ## Loads of another module that come back (R291, R391) -/

/-- A load's data arrive: VLD or LD writes its register, the context goes on past the instruction. `none` is an error, which
reads zero in every byte. -/
def State.finishLoad (s : State) (t n word : Nat) (data : Option (List Byte)) : State :=
  match s.ctx? t n with
  | none => s
  | some x =>
    if x.blocked then
      let w := BitVec.ofNat 27 word
      let s1 :=
        if word / 2 ^ 27 = 0x0F then
          match x.vldPlan w with
          | some p => s.advance (x.setV (fD w) (wideLanes p.fmt p.count (data.getD (List.replicate p.els.2 0)) []))
          | none => s.advance x
        else s.advance (x.setX (fD w) (ldValue w (data.getD [])))
      s1.unblock t n
    else s

/-! ## Ends of requests (R390, R391) -/

/-- The address that a request names. -/
def Req.addr (r : Req) : Nat := leField r.msg 8 7

/-- A request taken out. -/
def State.dropReq (s : State) (r : Req) : State := s.onCore fun c => { c with reqs := c.reqs.filter fun x => x.tag != r.tag }

/-- Whether a fetch still has an owner: its descriptor is in a slot, its context blocked at a load. -/
def State.ownerLive (s : State) (o : Owner) : Bool := match o with
  | .desc id => (s.desc? id).isSome
  | .fill id => (s.desc? id).isSome
  | .ahead id => (s.desc? id).isSome
  | .ctx t n => match s.ctx? t n with
    | some x => x.blocked && x.instr != 0
    | none => false

/-- Bytes of another module have come for an owner, or an error in their place: they are kept for its stage, and a context whose
load lacks no response goes on. -/
def State.fetchDone (s : State) (o : Owner) (ga n st : Nat) (data : List Byte) : State :=
  if s.ownerLive o then
    let s1 := s.onCore fun c => { c with fetched := c.fetched ++ [{ owner := o, ga := ga, n := n, status := st, data := data }] }
    match o with
    | .ctx t n => s1.resume t n
    | _ => s1
  else s

/-- What a request's end by an error status does (R391, R394): a load reads zero, a store is lost, each with an entry of TYPE 0x02;
a descriptor is struck, and counts the line of a write or accumulate that met an uncorrectable error (R105); a push's entries stay in their ring; an exchange of the Hatbox fails. -/
def State.endReq (s1 : State) (r : Req) (st : Nat) : State :=
  match r.waiter with
  | .load t n word => (s1.onCore fun c => c.loadErr t n st r.addr).finishLoad t n word none
  | .store t n a => s1.onCore fun c => c.threadErr t n st a
  | .desc id rec_ => ((if st = 0x22 then s1.sawUe id [r.addr / 64] else s1).strike id st r.addr rec_).updDesc id fun d => { d with acks := d.acks - 1 }
  | .fetch o ga n => s1.fetchDone o ga n st (List.replicate n 0)
  | .hatbox => if s1.core.hbBusy then s1.hbFail 3 else s1
  | _ => s1

/-- The requests that wait for a tag sent as far as tags are free (R388). -/
def State.issueTags (s : State) : State := s.onCore Core.issueTags

/-- Requests ended by an error status, each taken out before any takes effect; their tags pass to those that wait. -/
def State.failReqs (s : State) (rs : List Req) (st : Nat) : State :=
  (rs.foldl (fun s r => s.endReq r st) (rs.foldl State.dropReq s)).issueTags

/-- One request ended by an error status. -/
def State.failReq (s : State) (r : Req) (st : Nat) : State := s.failReqs [r] st

/-- An outstanding request of a KIND by its tag and the module that answers. -/
def Core.reqOf (c : Core) (tag src kind : Nat) : Option Req :=
  c.reqs.find? fun r => r.tag == tag && r.dest == src && leField r.msg 0 1 == kind

/-- A response of a KIND of request that finds no request: discarded. One to a request that timed out counts in QR_LATE, and its
tag is free again (R391). -/
def State.lateResp (s : State) (m : Msg) (kind : Nat) : State :=
  let key := (leField m.bytes 2 2, m.src, kind)
  if s.core.lateTags.contains key then
    (s.onCore fun c => { c.bump Reg.qrLate 1 with lateTags := c.lateTags.filter (· != key) }).issueTags
  else s

/-! ## Reads and writes of another module (R388) -/

/-- Whether peers and hosts may reach memory: not in S1 to S3 (R454). -/
def Core.awake (c : Core) : Bool := c.sleepState == 0

/-- A local range that a message may name: mapped memory outside control space, in this module (R79), which is awake. -/
def Core.msgRange (c : Core) (ga n : Nat) : Bool := c.awake && c.isLocal ga && c.memRange (gaLocal ga) n

/-- READ_REQ served: the response carries the data, or a status and data that the spec leaves open (R75, R79). -/
def State.readReq (s : State) (m : Msg) : State :=
  let ga := leField m.bytes 8 7
  let len := leField m.bytes 4 4
  let tag := leField m.bytes 2 2
  let open_ := (List.range len).map fun i => Config.freeByte s.core.freeCtr (ga + i)
  if s.core.msgRange ga len && decide (1 ≤ len) && decide (len ≤ 4096) then
    let c1 := (s.core.countServed .rd (gaLocal ga) len).bump Reg.obsRemoteIn len
    match c1.ueLines ga len with
    | [] => { s with core := c1.send m.src m.cls (msgReadResp 0 tag (c1.rdBytes (gaLocal ga) len)) }
    | bad =>
      let c2 := bad.foldl (fun c l => c.countMemErr (l * 64) true) c1.fresh.2
      { s with core := c2.send m.src m.cls (msgReadResp 0x22 tag open_) }
  else s.onCore fun c => c.fresh.2.send m.src m.cls (msgReadResp 0x15 tag open_)

/-- READ_REQ. -/
def execReadReq (s : State) : Host.Outcome State Fault Refusal :=
  s.clocked <| .next (match s.takeMsg 0x10 with
    | some (m, s1) => (s1.readReq m).settle
    | none => s)

/-- READ_RESP: data for the load that waits. -/
def State.readResp (s : State) (m : Msg) : State :=
  match s.core.reqOf (leField m.bytes 2 2) m.src 0x10 with
  | none => s.lateResp m 0x10
  | some r =>
    let st := leField m.bytes 1 1
    if st ≠ 0 then s.failReq r st
    else
      match r.waiter with
      | .load t n word => ((s.dropReq r).finishLoad t n word (some (bytesAt m.bytes 16 (leField m.bytes 4 4)))).issueTags
      | .fetch o ga n => ((s.dropReq r).fetchDone o ga n 0 (bytesAt m.bytes 16 n)).issueTags
      | _ => (s.dropReq r).issueTags

/-- See `State.readResp`. -/
def execReadResp (s : State) : Host.Outcome State Fault Refusal :=
  s.clocked <| .next (match s.takeMsg 0x11 with
    | some (m, s1) => (s1.readResp m).settle
    | none => s)

/-- WRITE applied and acknowledged: ADDR_RANGE outside memory, MEM_UE when a partial line held an error (R320). -/
def State.msgWrite (s : State) (m : Msg) : State :=
  let ga := leField m.bytes 8 7
  let len := leField m.bytes 4 4
  let tag := leField m.bytes 2 2
  if s.core.msgRange ga len then
    let r := ((s.core.countServed .wr (gaLocal ga) len).bump Reg.obsRemoteIn len).store (gaLocal ga) (bytesAt m.bytes 16 len)
      (.peer m.src tag 0x13)
    let c1 := r.2.foldl (fun c l => c.countMemErr (l * 64) true) r.1
    { s with core := c1.answerPeer m.src tag 0x13 (if r.2.isEmpty then 0 else 0x22) }
  else s.onCore fun c => c.send m.src 1 (msgAck 0x13 0x15 tag)

/-- WRITE. -/
def execMsgWrite (s : State) : Host.Outcome State Fault Refusal :=
  s.clocked <| .next (match s.takeMsg 0x12 with
    | some (m, s1) => (s1.msgWrite m).settle
    | none => s)

/-- A request acknowledged: a status other than 0 is its error. -/
def State.acked (s : State) (m : Msg) (kind : Nat) : State :=
  match s.core.reqOf (leField m.bytes 2 2) m.src kind with
  | none => s.lateResp m kind
  | some r =>
    let st := leField m.bytes 1 1
    if st ≠ 0 then s.failReq r st
    else
      match r.waiter with
      | .desc id _ => ((s.dropReq r).updDesc id fun d => { d with acks := d.acks - 1 }).issueTags
      | _ => (s.dropReq r).issueTags

/-- WRITE_ACK (R390). -/
def execWriteAck (s : State) : Host.Outcome State Fault Refusal :=
  s.clocked <| .next (match s.takeMsg 0x13 with
    | some (m, s1) => (s1.acked m 0x12).settle
    | none => s)

/-- ACCUM handed to the adder of its line (R324, R388): OP 0 ADD, 1 BITSET, 2 ZERO; another OP does nothing. -/
def State.accum (s : State) (m : Msg) : State :=
  let ga := leField m.bytes 8 7
  let tag := leField m.bytes 2 2
  let mask := BitVec.ofNat 16 (leField m.bytes 6 2)
  let data := bytesAt m.bytes 16 64
  if s.core.awake && s.core.isLocal ga then
    let a := gaLocal ga
    let c0 := s.core.bump Reg.obsRemoteIn 64
    let who := Waiter.peer m.src tag 0x15
    let r := match leField m.bytes 1 1 with
      | 0 => c0.adderAdd a (leField m.bytes 4 2) mask (lanesOf data) who
      | 1 => c0.adderBitset a data who
      | 2 => c0.adderZero a mask who
      | _ => (c0, 0)
    { s with core := r.1.answerPeer m.src tag 0x15 r.2 }
  else s.onCore fun c => c.send m.src 2 (msgAck 0x15 0x15 tag)

/-- See `State.accum`. -/
def execAccum (s : State) : Host.Outcome State Fault Refusal :=
  s.clocked <| .next (match s.takeMsg 0x14 with
    | some (m, s1) => (s1.accum m).settle
    | none => s)

/-- ACCUM_ACK (R390). -/
def execAccumAck (s : State) : Host.Outcome State Fault Refusal :=
  s.clocked <| .next (match s.takeMsg 0x15 with
    | some (m, s1) => (s1.acked m 0x14).settle
    | none => s)

/-! ## Partner contexts (R393, R394) -/

/-- The transport state of a context that has just become live (R370). -/
def PcRun.fresh (x : Nat) : PcRun :=
  { ctx := x, unacked := [], timeouts := 0, progress := 0, msn := 0, sendBuf := none, writeAt := none }

/-- The transport state of a context. -/
def State.pcRun (s : State) (x : Nat) : PcRun := (s.net.pcs.find? fun r => r.ctx == x).getD (PcRun.fresh x)

/-- The transport state of a context put back. -/
def State.putPc (s : State) (r : PcRun) : State :=
  { s with net := { s.net with pcs := r :: s.net.pcs.filter fun q => q.ctx != r.ctx } }

/-- KIND of a partner context; the management context, 4,095, has none. -/
def Core.pcKind (c : Core) (x : Nat) : Nat := c.fld (Reg.pcCtrl x) 2 0

/-- Whether a request belongs to a context: a push of one of its queues, or a message carried by it (R392, R394). -/
def Core.reqOfContext (c : Core) (x : Nat) (r : Req) : Bool :=
  (match r.waiter with
  | .push q _ => c.fld (Reg.qCfg q) 19 8 == x
  | _ => false) ||
  c.ctxTo r.dest == some x

/-- Whether a message that has not left the module would travel through a context, or is a push among given requests (R394). -/
def Core.msgOfContext (c : Core) (x : Nat) (mine : List Req) (m : Msg) : Bool :=
  m.link == 12 && ((m.cls != 4 && c.ctxTo m.dest == some x) ||
    (leField m.bytes 0 1 == 0x16 && mine.any fun r => r.tag == leField m.bytes 2 2 && r.dest == m.dest))

/-- A context torn down (R394): GONE and CAUSE set, its requests end with PARTNER_GONE, its transport state and what it has not yet
sent are dropped. A context
is live while KIND is non-zero, so KIND reads 0 from then on. -/
def State.tearDown (s : State) (x cause : Nat) : State :=
  let mine := s.core.reqs.filter (s.core.reqOfContext x)
  let sends := s.red.sends.filter fun y => s.core.reqOfContext x
    { tag := 0, dest := gaModule y.landing, cls := 2, since := 0, limit := 0, waiter := .nobody, full := false, msg := [] }
  let c1 := ((s.core.setFld (Reg.pcCtrl x) 2 0 0).setBit (Reg.pcStatus x) 0 false).setFld (Reg.pcStatus x) 2 1 cause
  let s1 : State := { s with core := { c1.setBit (Reg.pcStatus x) 3 true with
                               msgOut := s.core.msgOut.filter fun m => !(s.core.msgOfContext x mine m) },
                             net := { s.net with pcs := s.net.pcs.filter fun r => r.ctx != x } }
  let s2 := s1.failReqs mine 0x41
  sends.foldl (fun s y => s.endSend y 0x41) s2

/-- A write to PC_CTRL (R393, R404, R408): a live context takes only KIND 0, which tears it down; KIND 5 to 7 are not taken; the
management context takes nothing. -/
def State.pcCtrlWrite (s : State) (x : Nat) (v : Word) : State :=
  let m := v &&& 0x3_FFFF_FF7F
  if 4095 ≤ x then s
  else if s.core.pcKind x ≠ 0 then
    (if getF v 2 0 = 0 then (s.tearDown x 1).onCore fun c => c.wr (Reg.pcCtrl x) m else s)
  else if 4 < getF v 2 0 then s.onCore fun c => c.wr (Reg.pcCtrl x) (setF m 2 0 0)
  else
    let c1 := s.core.wr (Reg.pcCtrl x) m
    if getF v 2 0 = 0 then { s with core := c1 }
    else
      ({ s with core := (c1.setBit (Reg.pcStatus x) 0 true).wr (Reg.pcSeq x) (BitVec.ofNat 64 (1 + 2 ^ 32)) } : State).putPc
        (PcRun.fresh x)

/-- PC_CTRL_WRITE. -/
def execPcCtrlWrite (x : Nat) (v : Word) (s : State) : Host.Outcome State Fault Refusal :=
  s.clocked <| .next (s.pcCtrlWrite x v).takeWork.settle

/-! ## Queue pushes (R389) -/

/-- HEAD of an outbound queue advanced past acknowledged entries (R396). -/
def Core.qAdvance (c : Core) (q n : Nat) : Core :=
  (c.setFld (Reg.qHead q) 31 0 (c.fld (Reg.qHead q) 31 0 + n)).bump (Reg.qCount q) n

/-- Entries put in a ring, when all of them fit (R371, R389). -/
def Core.qDeliver (c : Core) (q : Nat) (es : List (List Byte)) : Option Core :=
  if es.length ≤ c.qRoom q then some (es.foldl (fun c e => c.qPush q e) c) else none

/-- The 64-byte entries of a payload. -/
def entriesOf (n : Nat) (bs : List Byte) : List (List Byte) := (List.range n).map fun i => bytesAt bs (64 * i) 64

/-- A queue that takes a partner's entries: enabled, bound to the context, of class 0 to 4 (R371, R396). -/
def Core.qTakes (c : Core) (q x : Nat) : Bool :=
  decide (q < 16382) && c.qEn q && c.fld (Reg.qCfg q) 19 8 == x && decide (c.fld (Reg.qCfg q) 3 1 ≤ 4)

/-- QUEUE_PUSH at its receiver (R389): 0x00 accepted, 0xFF full, 0x41 refused. -/
def State.queuePush (s : State) (m : Msg) : State :=
  let n := leField m.bytes 1 1
  let q := leField m.bytes 4 2
  let tag := leField m.bytes 2 2
  let x := s.core.fld (Reg.qCfg q) 19 8
  let answer := fun (s : State) (st : Nat) => s.onCore fun c => c.send m.src 3 (msgAck 0x17 st tag)
  if s.core.qTakes q x && s.core.pcLive x && s.core.pcKind x == 3 && s.core.fld (Reg.pcCtrl x) 19 8 == m.src then
    match s.core.qDeliver q (entriesOf n (m.bytes.drop 16)) with
    | some c => answer { s with core := c } 0
    | none => answer (s.onCore fun c => c.setBit (Reg.qStatus q) 0 true) 0xFF
  else answer s 0x41

/-- See `State.queuePush`. A push wakes the module from S1 to S3 (R454). -/
def execQueuePush (s : State) : Host.Outcome State Fault Refusal :=
  s.clocked <| .next (match s.takeMsg 0x16 with
    | some (m, s1) => (s1.wake.queuePush m).takeWork.settle
    | none => s)

/-- QUEUE_ACK (R389): accepted entries leave their ring; a full ring's push is kept to be sent again; a refusal tears the context
down with cause 3. -/
def State.queueAck (s : State) (m : Msg) : State :=
  match s.core.reqOf (leField m.bytes 2 2) m.src 0x16 with
  | none => s.lateResp m 0x16
  | some r =>
    match r.waiter, leField m.bytes 1 1 with
    | .push q n, 0 => ((s.dropReq r).onCore fun c => c.qAdvance q n).issueTags
    | .push _ _, 0xFF => s.onCore fun c =>
        { c with reqs := c.reqs.map fun x => if x.tag = r.tag then { x with full := true, since := c.now.toNat } else x }
    | .push q _, 0x41 => s.tearDown (s.core.fld (Reg.qCfg q) 19 8) 3
    | _, _ => (s.dropReq r).issueTags

/-- See `State.queueAck`. -/
def execQueueAck (s : State) : Host.Outcome State Fault Refusal :=
  s.clocked <| .next (match s.takeMsg 0x17 with
    | some (m, s1) => (s1.queueAck m).takeWork.settle
    | none => s)

/-- QUEUE_PUSH_RETRY (R389): 1,024 timebase ticks after a full answer. -/
def execQueuePushRetry (tag : Nat) (s : State) : Host.Outcome State Fault Refusal :=
  s.clocked <| .next
    (match s.core.reqs.find? fun r => r.tag == tag && r.full with
    | some r =>
      if r.since + 1024 ≤ s.core.now.toNat then
        s.onCore fun c => { (c.send r.dest 3 r.msg) with
          reqs := c.reqs.map fun x => if x.tag = r.tag then { x with full := false, since := c.now.toNat } else x }
      else s
    | none => s)

/-- A tag, or an exchange of the Hatbox, whose request timed out: its response may still come (R391). -/
def Core.timedOut (c : Core) (r : Req) : Core :=
  { c with lateTags := c.lateTags ++ [(if r.waiter = .hatbox then hbKey r.msg else r.tag, r.dest, leField r.msg 0 1)] }

/-- REMOTE_TIMEOUT_EXPIRE (R391): a request without a response for REMOTE_TIMEOUT ticks ends with LINK_DOWN. A number of 0x1_0000
and more names the RED_SEND of a descriptor, whose header no reply has answered; one of 2^64 and more an exchange of the Hatbox. -/
def execRemoteTimeoutExpire (tag : Nat) (s : State) : Host.Outcome State Fault Refusal :=
  s.clocked <| .next
    (if tag < 0x10000 ∨ 2 ^ 64 ≤ tag then
      match s.core.reqs.find? fun r => r.tag == tag && !r.full with
      | some r =>
        if r.since + r.limit ≤ s.core.now.toNat then ((s.onCore fun c => (c.bump Reg.qrTimeouts 1).timedOut r).failReq r 0x40).settle else s
      | none => s
    else
      match s.red.sends.find? fun y => y.desc + 0x10000 == tag && !y.accepted with
      | some y =>
        if y.since + y.limit ≤ s.core.now.toNat ∧ s.core.isLocal y.landing = false then
          (({ s with red := { s.red with late := s.red.late ++ [y] } } : State).onCore fun c => c.bump Reg.qrTimeouts 1).endSend y 0x40 |>.settle
        else s
      | none => s)

/-! ## A route that is lost (R381, R391) -/

/-- Everything that waits on a hop ends with LINK_DOWN: requests, RED_SENDs, and the Hatbox's exchange when its route is gone. -/
def State.routeLost (s : State) (h : Nat) : State :=
  let hit := fun (r : Req) => s.core.hop r.dest == h || (r.waiter == .hatbox && !(s.core.reachable r.dest))
  let lost := s.core.reqs.filter hit
  let sends := s.red.sends.filter fun y => !(s.core.isLocal y.landing) && s.core.hop (gaModule y.landing) == h
  let s1 := s.onCore fun c => { c with msgOut := c.msgOut.filter fun m =>
    !(m.link + 1 == h || (m.link == 12 && c.hop m.dest == h && !(m.cls == 4))) }
  let s2 := s1.failReqs lost 0x40
  sends.foldl (fun s y => s.endSend y 0x40) s2

end Sys2Proof.Machine
end

