-- ==== Sys2Proof/Machine/Queues.lean ====
section
/-! DEFINITION. Hardware queues and command framing (R369 to R372, R392, R395 to R398). -/

namespace Sys2Proof.Machine

/-! ## Queue registers (R395, R397, R407) -/

/-- Whether a ring may be enabled: 64-byte aligned local memory outside control space (R395). -/
def Core.ringOk (c : Core) (q log : Nat) : Bool :=
  let r := c.fld (Reg.qRing q) 55 0
  r % 64 == 0 && c.isLocal r && c.memRange (gaLocal r) (64 * 2 ^ (log + 6))

/-- Whether a binding lets EN be set (R395, R396, R407). -/
def Core.bindOk (c : Core) (q : Nat) (v : Word) : Bool :=
  let x := getF v 19 8
  decide (getF v 3 1 ≤ 5) && decide (getF v 31 28 ≤ 10) && c.pcLive x && !(getF v 3 1 == 5 && c.pcKind x == 2) &&
  c.ringOk q (getF v 31 28)

/-- A write to Q_CFG (R395): while EN is set only a write that clears it is taken; setting EN sets HEAD and TAIL to zero. The error
queue keeps CLASS 5 (R398); the management queue's is fixed (R399). -/
def State.qCfgWrite (s : State) (q : Nat) (v : Word) : State :=
  let m0 := v &&& 0xF7FF_FF1F
  let m := if q = 16383 then setF m0 3 1 5 else m0
  if 16384 ≤ q ∨ q = 16382 then s
  else if s.core.qEn q then (if getF v 0 0 = 1 then s else s.onCore fun c => c.wr (Reg.qCfg q) m)
  else if getF v 0 0 = 1 ∧ s.core.bindOk q m = true then
    s.onCore fun c => ((c.wr (Reg.qCfg q) m).wr (Reg.qHead q) 0).wr (Reg.qTail q) 0
  else s.onCore fun c => c.wr (Reg.qCfg q) (setF m 0 0 0)

/-- Q_CFG_WRITE. -/
def execQCfgWrite (q : Nat) (v : Word) (s : State) : Host.Outcome State Fault Refusal := s.clocked <| .next (s.qCfgWrite q v)

/-- A direct entry (R397): written at TAIL, or waiting for room; `by_` is the Palm context that stores. A store of another size, to a
disabled queue or to the management queue puts nothing in a ring. The queue of a context that was torn down takes nothing (R394), so a
store to it waits until the queue resumes: DESIGN CHOICE (log entry 74). -/
def State.directEntry (s : State) (q : Nat) (data : List Byte) (by_ : Option (Nat × Nat)) : State :=
  if data.length ≠ 64 ∨ 16384 ≤ q ∨ q = 16382 ∨ s.core.qEn q = false then s
  else if s.core.qLive q && decide (0 < s.core.qRoom q) then s.onCore fun c => c.qPush q data
  else
    let s1 : State := { s with work := { s.work with direct := s.work.direct ++ [{ queue := q, data := data, by_ := by_ }] } }
    match by_ with
    | none => s1
    | some k => s1.block k.1 k.2

/-- Q_DIRECT_ENTRY, which wakes the module from S1 to S3 (R454). -/
def execQDirectEntry (q : Nat) (data : List Byte) (s : State) : Host.Outcome State Fault Refusal :=
  s.clocked <| .next (s.wake.directEntry q data none).takeWork.settle

/-- A write to Q_DOORBELL (R397): TAIL takes the value unless it would move back or pass HEAD plus the size. The queue of a context
that was torn down takes nothing (R394). -/
def State.doorbell (s : State) (q : Nat) (v : Word) : State :=
  let t := v.toNat % 2 ^ 32
  let tail := s.core.fld (Reg.qTail q) 31 0
  let head := s.core.fld (Reg.qHead q) 31 0
  if 16384 ≤ q ∨ q = 16382 ∨ s.core.qLive q = false then s
  else if 2 ^ 31 ≤ (t + 2 ^ 32 - tail) % 2 ^ 32 ∨ s.core.qSize q < (t + 2 ^ 32 - head) % 2 ^ 32 then
    s.onCore fun c => c.setBit (Reg.qStatus q) 1 true
  else s.onCore fun c => c.setFld (Reg.qTail q) 31 0 t

/-- Q_DOORBELL_WRITE, which wakes the module from S1 to S3 (R454). -/
def execQDoorbellWrite (q : Nat) (v : Word) (s : State) : Host.Outcome State Fault Refusal :=
  s.clocked <| .next (s.wake.doorbell q v).takeWork.settle

/-- A write to Q_HEAD (R407): taken for a mailbox, or an outbound queue with LOCAL; the entries passed count in Q_COUNT. -/
def State.headWrite (s : State) (q : Nat) (v : Word) : State :=
  let k := s.core.fld (Reg.qCfg q) 3 1
  if q < 16384 ∧ q ≠ 16382 ∧ (k = 4 ∨ (k = 5 ∧ s.core.bit (Reg.qCfg q) 4 = true)) then
    let h := v.toNat % 2 ^ 32
    s.onCore fun c => (c.setFld (Reg.qHead q) 31 0 h).bump (Reg.qCount q) ((h + 2 ^ 32 - c.fld (Reg.qHead q) 31 0) % 2 ^ 32)
  else s

/-- Q_HEAD_WRITE. -/
def execQHeadWrite (q : Nat) (v : Word) (s : State) : Host.Outcome State Fault Refusal :=
  s.clocked <| .next (s.headWrite q v).takeWork.settle

/-! ## Command framing of a partner context (R369 to R372) -/

/-- Where a context's datagrams go (R366). -/
def Core.pcAddr (c : Core) (x : Nat) : Nat × NetAddr :=
  let p := c.fld (Reg.pcCtrl x) 3 3
  let v6 := c.bit (Reg.pcCtrl x) 4
  (p, { mac := c.fld (Reg.pcMac x) 47 0, v6 := v6, udp := c.fld (Reg.pcPort x) 15 0, port := c.fld (Reg.epCmdPort p) 15 0,
        ip := if v6 then (c.rd (Reg.pcAddrLo x)).toNat + 2 ^ 64 * (c.rd (Reg.pcAddrHi x)).toNat else c.fld (Reg.pcAddrLo x) 31 0,
        me := if v6 then c.ipv6 p else c.fld (Reg.epIpv4 p) 31 0 })

/-- A datagram sent to a context's partner. -/
def Core.sendDg (c : Core) (x : Nat) (d : List Byte) : Core := c.sendUdp (c.pcAddr x).1 (c.pcAddr x).2 d

/-- Next expected inbound SEQ and next outbound SEQ. -/
def Core.seqIn (c : Core) (x : Nat) : Nat := c.fld (Reg.pcSeq x) 31 0

/-- See `Core.seqIn`. -/
def Core.seqOut (c : Core) (x : Nat) : Nat := c.fld (Reg.pcSeq x) 63 32

/-- A datagram of a KIND in its context's series, kept until it is acknowledged (R370, R372). QUEUE is the number of the queue it
comes from and CONTEXT the context's own number: the spec gives no register for the partner's. -/
def State.sendSeq (s : State) (x kind queue count : Nat) (body : List Byte) : State :=
  let c := s.core
  let d := datagram kind x (c.seqOut x) (c.seqIn x + 2 ^ 32 - 1) queue count (c.fld (Reg.pcKey x) 31 0) body
  let r := s.pcRun x
  let s1 : State := { s with core := (c.setFld (Reg.pcSeq x) 63 32 (c.seqOut x + 1)).sendDg x d }
  s1.putPc { r with unacked := r.unacked ++ [(c.seqOut x, d)], progress := if r.unacked.isEmpty then c.now.toNat else r.progress }

/-- The acknowledgement of everything received from a partner, KIND 0x02 (R369, R370). -/
def Core.sendAck (c : Core) (x : Nat) : Core :=
  c.sendDg x (datagram 2 x 0 (c.seqIn x + 2 ^ 32 - 1) 0 0 (c.fld (Reg.pcKey x) 31 0) [])

/-- Datagrams up to an ACKSEQ acknowledged (R370, R372, R396): entries of outbound queues leave their rings. -/
def State.ackSeq (s : State) (x ack : Nat) : State :=
  let r := s.pcRun x
  let done := r.unacked.filter fun u => !(seqBefore ack u.1)
  if done.isEmpty then s
  else
    let s1 := s.putPc { r with unacked := r.unacked.filter (fun u => seqBefore ack u.1), timeouts := 0, progress := s.core.now.toNat }
    done.foldl (fun s u => if leField u.2 5 1 = 1 then s.onCore fun c => c.qAdvance (leField u.2 16 2) (leField u.2 18 2) else s) s1

/-- The command datagram at the head of a port's received payloads, when it has the KIND, with its sender, and the state without
it. -/
def State.takeDg (s : State) (p kind : Nat) : Option (UpPkt × State) :=
  match s.net.rxUp.find? fun u => u.port == p with
  | some u =>
    if u.roce = false ∧ leField u.bytes 5 1 = kind then
      some (u, { s with net := { s.net with rxUp := s.net.rxUp.erase u } })
    else none
  | none => none

/-- A datagram dropped and counted in EP_CMD_BAD (R370). -/
def State.badDg (s : State) (p : Nat) : State := s.onCore fun c => c.bump (Reg.epCmdBad p) 1

/-- The context that a datagram names, when MAGIC, CRC, CONTEXT and TOKEN are right and it is live on the port (R370, R394). -/
def State.dgContext (s : State) (u : UpPkt) : Option Nat :=
  let x := leField u.bytes 6 2
  if datagramGood u.bytes ∧ x < 4095 ∧ s.core.pcLive x = true ∧ (s.core.pcKind x = 1 ∨ s.core.pcKind x = 4) ∧
      s.core.fld (Reg.pcCtrl x) 3 3 = u.port ∧ leField u.bytes 20 4 = s.core.fld (Reg.pcKey x) 31 0 then some x
  else none

/-- A sequenced datagram (R370): `accept` handles one with the expected SEQ and answers whether it is accepted; one below is
acknowledged again, one above dropped and acknowledged. -/
def State.inSeries (s : State) (u : UpPkt) (x : Nat) (accept : State → State × Bool) : State :=
  let seq := leField u.bytes 8 4
  let s0 := s.ackSeq x (leField u.bytes 12 4)
  if seq = s0.core.seqIn x then
    let r := accept s0
    if r.2 then r.1.onCore fun c => (c.setFld (Reg.pcSeq x) 31 0 (seq + 1)).sendAck x else r.1
  else if seqBefore seq (s0.core.seqIn x) then s0.onCore fun c => (c.bump (Reg.epCmdDup u.port) 1).sendAck x
  else (s0.badDg u.port).onCore fun c => c.sendAck x

/-- The entries of a datagram delivered (R371), and whether it is accepted: not when they do not all fit, which sets FULL. -/
def State.deliverEntries (s : State) (x q n : Nat) (body : List Byte) : State × Bool :=
  if s.core.qTakes q x then
    match s.core.qDeliver q (entriesOf n body) with
    | some c => ({ s with core := c }, true)
    | none => (s.onCore fun c => c.setBit (Reg.qStatus q) 0 true, false)
  else (s.onCore fun c => c.err { type := 3, event := 0x40, queue := q }, true)

/-- Messages of a KIND 4 context (R392): each comes from its PEER, through the port. -/
def State.deliverMsgs (s : State) (p x : Nat) (body : List Byte) : State :=
  let ms := (splitMsgs (body.length + 1) body).1.map fun b =>
    ({ src := s.core.fld (Reg.pcCtrl x) 19 8, dest := s.core.moduleNo, cls := 1, link := 13 + p, tick := s.core.now.toNat, bytes := b } : Msg)
  { s with net := { s.net with rxMsgs := s.net.rxMsgs ++ ms } }

/-- CMD_ACK (R370). -/
def execCmdAck (p : Nat) (s : State) : Host.Outcome State Fault Refusal :=
  s.clocked <| .next
    (match s.takeDg p 2 with
    | none => s
    | some (u, s1) =>
      match s1.dgContext u with
      | none => s1.badDg p
      | some x => (s1.ackSeq x (leField u.bytes 12 4)).takeWork.settle)

/-- CMD_MESSAGES (R392). A datagram of messages for a KIND 1 context, or whose length is not that of COUNT, is dropped. -/
def execCmdMessages (p : Nat) (s : State) : Host.Outcome State Fault Refusal :=
  s.clocked <| .next
    (match s.takeDg p 3 with
    | none => s
    | some (u, s1) =>
      match s1.dgContext u with
      | none => s1.badDg p
      | some x =>
        if s1.core.pcKind x ≠ 4 ∨ u.bytes.length ≠ 32 + 16 * leField u.bytes 18 2 then s1.badDg p
        else (s1.inSeries u x fun s => (s.deliverMsgs p x (u.bytes.drop 32), true)).takeWork.settle)

/-- RTO_EXPIRE (R372): RTO has passed without progress, so everything unacknowledged is sent again; the eighth timeout in a row tears
the context down with cause 2. RTO counts 1,024 ticks. -/
def execRtoExpire (x : Nat) (s : State) : Host.Outcome State Fault Refusal :=
  s.clocked <| .next
    (let r := s.pcRun x
     if s.core.pcLive x = false ∨ 4095 ≤ x ∨ r.unacked.isEmpty = true ∨
        s.core.now.toNat < r.progress + 1024 * s.core.fld (Reg.pcPort x) 63 48 then s
     else if 7 ≤ r.timeouts then (s.tearDown x 2).takeWork.settle
     else
       let s1 := s.putPc { r with timeouts := r.timeouts + 1, progress := s.core.now.toNat }
       s1.onCore fun c => r.unacked.foldl (fun c u => (c.sendDg x u.2).bump (Reg.epRetransmit (c.pcAddr x).1) 1) c)

/-! ## Outbound queues (R396) -/

/-- Entries of an outbound queue on their way: in datagrams or pushes not yet acknowledged. -/
def State.inFlight (s : State) (q x : Nat) : Nat :=
  ((((s.pcRun x).unacked.filter fun u => leField u.2 5 1 == 1 && leField u.2 16 2 == q).map fun u => leField u.2 18 2).sum) +
  ((s.core.reqs.map fun r => match r.waiter with
    | .push k n => if k = q then n else 0
    | _ => 0).sum)

/-- Pushes of a context that are outstanding (R389). -/
def Core.pushesOut (c : Core) (x : Nat) : Nat :=
  (c.reqs.filter fun r => match r.waiter with
    | .push q _ => c.fld (Reg.qCfg q) 19 8 == x
    | _ => false).length

/-- The next entry of an outbound queue sent to its partner (R389, R396). Its read of the ring is counted, with an uncorrectable error
that it meets (R320, log entry 107). -/
def State.sendOutbound (s0 : State) (q : Nat) : State :=
  let x := s0.core.fld (Reg.qCfg q) 19 8
  let k := s0.inFlight q x
  let a := s0.core.qSlot q (s0.core.fld (Reg.qHead q) 31 0 + k)
  let s := s0.onCore fun c => c.slotRead a
  let c := s.core
  let e := c.rdBytes a 64
  if q < 16384 ∧ c.qEn q = true ∧ c.fld (Reg.qCfg q) 3 1 = 5 ∧ c.bit (Reg.qCfg q) 4 = false ∧ c.pcLive x = true ∧ k < c.qUsed q then
    match c.pcKind x with
    | 3 =>
      let peer := c.fld (Reg.pcCtrl x) 19 8
      if c.pushesOut x < 16 ∧ c.reachable peer = true then
        s.onCore fun c => c.request peer 3 (.push q 1) fun tag => msgQueuePush 1 tag q e
      else s0
    | 0 => s0
    | 2 => s0
    | _ => if (s.pcRun x).unacked.length < 32 then s.sendSeq x 1 q 1 e else s0
  else s0

/-- OUTBOUND_ENTRY_SEND. -/
def execOutboundEntrySend (q : Nat) (s : State) : Host.Outcome State Fault Refusal := s.clocked <| .next (s.sendOutbound q)

/-- Whether a context of KIND 4 can take a message now, in whole 16-byte units of one datagram (R369, R372, R392). -/
def State.ctxTakes (s : State) (m : Msg) : Bool :=
  s.core.reachable m.dest && (s.core.ctxTo m.dest).any fun x => decide ((s.pcRun x).unacked.length < 32) && decide (m.bytes.length ≤ 8192)

/-- One message for a module behind a port handed to its KIND 4 context: the first of a context that can take it (R392). Class H stays on
the links in HATBOX_LINKS (R377). -/
def State.sendByEthernet (s : State) : State :=
  let waits := s.core.msgOut.filter fun m => m.link == 12 && m.cls != 4 && (s.core.ctxTo m.dest).isSome
  match waits.find? fun m => s.ctxTakes m && (waits.find? fun w => s.core.ctxTo w.dest == s.core.ctxTo m.dest) == some m with
  | none => s
  | some m =>
    ({ s with core := { s.core.groupLeft m with msgOut := s.core.msgOut.erase m } } : State).sendSeq (s.core.fld (Reg.modRoute m.dest) 27 16) 3 0
      (ceilDiv m.bytes.length 16) (pad16 m.bytes)

end Sys2Proof.Machine
end

