-- ==== Sys2Proof/Machine/Ethernet.lean ====
section
/-! DEFINITION. The host ports (R364 to R368, R371, R373, R403, R408): sorting received frames, PTP captures, ARP and neighbour
replies, the RoCEv2 responder, entries of command framing, EP_CTRL and the port's link. BTH, RETH, AETH and the ICRC are laid out as
RoCEv2 lays them out (PRESUMED, log entry 51). -/

namespace Sys2Proof.Machine

/-! ## PTP (R373) -/

/-- EP_PTP_TIME and EP_PTP_INFO show the oldest capture of a port. -/
def State.showPtp (s : State) (p : Nat) : State :=
  let mine := s.net.ptp.filter fun x => x.port == p
  let c1 := s.core.setFld (Reg.epPtpInfo p) 24 20 mine.length
  match mine with
  | [] => { s with core := (c1.wr (Reg.epPtpTime p) 0).setFld (Reg.epPtpInfo p) 19 0 0 }
  | x :: _ =>
    { s with core := ((c1.wr (Reg.epPtpTime p) (BitVec.ofNat 64 x.tick)).setFld (Reg.epPtpInfo p) 15 0 x.seqId).setFld (Reg.epPtpInfo p) 19 16 x.kind }

/-- An event message captured; a full FIFO discards it and sets OVERFLOW. `m` begins at the PTP header. -/
def State.ptpCapture (s : State) (p : Nat) (m : List Byte) : State :=
  let kind := leField m 0 1 % 16
  if 3 < kind ∨ leField m 1 1 % 16 ≠ 2 then s
  else if 16 ≤ (s.net.ptp.filter fun x => x.port == p).length then s.onCore fun c => c.setBit (Reg.epPtpInfo p) 25 true
  else
    ({ s with net := { s.net with ptp := s.net.ptp ++
        [{ port := p, tick := s.core.now.toNat, seqId := beNat (bytesAt m 30 2), kind := kind }] } } : State).showPtp p

/-- A write of 1 to EP_PTP_NEXT: the oldest capture of the port is discarded. -/
def State.ptpNext (s : State) (p : Nat) : State :=
  match s.net.ptp.find? fun x => x.port == p with
  | some x => ({ s with net := { s.net with ptp := s.net.ptp.erase x } } : State).showPtp p
  | none => s

/-- PTP_NEXT. -/
def execPtpNext (p : Nat) (s : State) : Host.Outcome State Fault Refusal := s.clocked <| .next (s.ptpNext p)

/-- Where a frame's PTP message begins: Ethertype 0x88F7, or UDP to port 319, at any destination address. -/
def ptpAt (f : List Byte) : Option Nat :=
  match beNat (bytesAt f 12 2) with
  | 0x88F7 => some 14
  | 0x0800 => if (udpView f).any fun u => u.dport == 319 then some (22 + 4 * (leField f 14 1 % 16)) else none
  | 0x86DD => if (udpView f).any fun u => u.dport == 319 then some ((ip6Proto f).2 + 8) else none
  | _ => none

/-! ## Address resolution (R365) -/

/-- The reply to an ARP request for EP_IPV4. -/
def Core.arpReply (c : Core) (p : Nat) (f : List Byte) : Option (List Byte) :=
  let be := fun (o n : Nat) => beNat (bytesAt f o n)
  let me := c.fld (Reg.epIpv4 p) 31 0
  let mac := c.fld (Reg.epMac p) 47 0
  if be 12 2 = 0x0806 ∧ be 14 6 = 0x0001_0800_0604 ∧ be 20 2 = 1 ∧ be 38 4 = me ∧ me ≠ 0 then
    some (ethBytes (be 22 6) mac 0x0806
      (beBytes 6 0x0001_0800_0604 ++ beBytes 2 2 ++ beBytes 6 mac ++ beBytes 4 me ++ bytesAt f 22 10))
  else none

/-- The neighbour advertisement for a solicitation of EP_IPV6, with the hop limit of R366. -/
def Core.neighbourReply (c : Core) (p : Nat) (f : List Byte) : Option (List Byte) :=
  let be := fun (o n : Nat) => beNat (bytesAt f o n)
  let me := c.ipv6 p
  let mac := c.fld (Reg.epMac p) 47 0
  let o := (ip6Proto f).2
  if be 12 2 = 0x86DD ∧ (ip6Proto f).1 = 58 ∧ be o 2 = 0x8700 ∧ be (o + 8) 16 = me ∧ me ≠ 0 then
    let icmp := fun (k : Nat) => [0x88, 0] ++ beBytes 2 k ++ [0x60, 0, 0, 0] ++ beBytes 16 me ++ [2, 1] ++ beBytes 6 mac
    let pseudo := beBytes 16 me ++ bytesAt f 22 16 ++ beBytes 4 32 ++ [0, 0, 0, 58]
    some (ethBytes (be 6 6) mac 0x86DD
      ([0x60, 0, 0, 0] ++ beBytes 2 32 ++ [58, 64] ++ beBytes 16 me ++ bytesAt f 22 16 ++ icmp (inetSum (pseudo ++ icmp 0))))
  else none

/-! ## RoCEv2 packets (R367) -/

/-- Bytes with some of their positions set to 0xFF. -/
def maskBytes (at_ : List Nat) (bs : List Byte) : List Byte :=
  (List.range bs.length).map fun i => if at_.contains i then 0xFF else bs.getD i 0

/-- The invariant CRC of an IP packet without its ICRC: the fields that routers change are taken as ones. -/
def icrc (v6 : Bool) (ip : List Byte) : Nat :=
  let m := if v6 then maskBytes [1, 2, 3, 7, 46, 47, 52] ((ip.getD 0 0 ||| 0x0F) :: ip.drop 1)
    else maskBytes [1, 8, 10, 11, 26, 27, 32] ip
  crc32 (List.replicate 8 0xFF ++ m)

/-- A RoCEv2 packet: the base transport header of an opcode to a queue pair, and what follows it. -/
def bth (op qp psn pads : Nat) (ackReq : Bool) (rest : List Byte) : List Byte :=
  leBytes 1 op ++ leBytes 1 (16 * pads) ++ [0xFF, 0xFF, 0] ++ beBytes 3 qp ++ leBytes 1 (128 * ackReq.toNat) ++ beBytes 3 psn ++ rest

/-- An acknowledge header: syndrome and message sequence number. -/
def aeth (syndrome msn : Nat) : List Byte := leBytes 1 syndrome ++ beBytes 3 msn

/-- A RoCEv2 response sent to a context's partner, with its ICRC. -/
def Core.sendRoce (c : Core) (x : Nat) (pkt : List Byte) : Core :=
  let r := c.pcAddr x
  let dst : NetAddr := { r.2 with port := 4791 }
  let ip := fun (tail : List Byte) =>
    ipBytes dst.v6 dst.me dst.ip (Config.freeNat c.freeCtr) (udpBytes dst.v6 dst.me dst.ip 4791 dst.udp (pkt ++ tail))
  let crc := icrc dst.v6 ((ip [0, 0, 0, 0]).take ((ip []).length))
  c.fresh.2.sendFrame r.1 (ethBytes dst.mac (c.rd (Reg.epMac r.1)).toNat (if dst.v6 then 0x86DD else 0x0800) (ip (leBytes 4 crc)))

/-- An acknowledgement or negative acknowledgement of a packet; a NAK counts in EP_ROCE_NAK. -/
def State.roceAck (s : State) (x syndrome psn : Nat) : State :=
  s.onCore fun c =>
    let c1 := if 0x20 ≤ syndrome then c.bump (Reg.epRoceNak (c.fld (Reg.pcCtrl x) 3 3)) 1 else c
    c1.sendRoce x (bth 0x11 (c.fld (Reg.pcPort x) 39 16) psn 0 false (aeth syndrome (s.pcRun x).msn))

/-- The parts of a request packet: opcode, acknowledge request, PSN, RETH address, key and length, and payload. -/
structure RocePkt where
  op : Nat
  ackReq : Bool
  psn : Nat
  va : Nat
  rkey : Nat
  len : Nat
  body : List Byte
  deriving DecidableEq, Repr

/-- Opcodes that carry a RETH. -/
def hasReth (op : Nat) : Bool := [6, 10, 12].contains op

/-- A request read from a UDP payload. -/
def rocePkt (b : List Byte) : RocePkt :=
  let be := fun (o n : Nat) => beNat (bytesAt b o n)
  let op := be 0 1
  let o := if hasReth op then 28 else 12
  { op := op, ackReq := bitOf (be 8 1) 7, psn := be 9 3, va := be 12 8, rkey := be 20 4, len := be 24 4,
    body := (b.drop o).take (b.length - o - 4 - bitsOf (be 1 1) 5 4) }

/-- The queue pair that a packet names: the live KIND 2 context of the port with that number (R367). -/
def State.roceContext (s : State) (p : Nat) (b : List Byte) : Option Nat :=
  let qp := beNat (bytesAt b 5 3)
  let x := qp - 0x1000
  if 0x1000 ≤ qp ∧ x < 4095 ∧ s.core.pcLive x = true ∧ s.core.pcKind x = 2 ∧ s.core.fld (Reg.pcCtrl x) 3 3 = p then some x
  else none

/-- The operations of R367 by BTH opcode: SEND First, Middle, Last, Only; WRITE First, Middle, Last, Only; READ Request. -/
def roceOps : List Nat := [0, 1, 2, 4, 6, 7, 8, 10, 12]

/-- The path MTU of a context (R404); code 3 is taken as 4,096. -/
def Core.pmtu (c : Core) (x : Nat) : Nat :=
  match c.fld (Reg.pcCtrl x) 6 5 with
  | 0 => 1024
  | 1 => 2048
  | _ => 4096

/-- The RETH conditions of R368. -/
def Core.rethOk (c : Core) (x : Nat) (k : RocePkt) : Bool :=
  c.awake && decide (k.va < 2 ^ 44) && k.rkey == c.fld (Reg.pcKey x) 63 32 && c.memRange k.va k.len

/-- Whether a packet's payload length fits its opcode: First and Middle carry the path MTU, Last and Only at most it. -/
def lengthOk (mtu : Nat) (k : RocePkt) : Bool :=
  if [0, 1, 6, 7].contains k.op then k.body.length == mtu
  else decide (k.body.length ≤ mtu) && (!([2, 8].contains k.op) || decide (0 < k.body.length))

/-- A request accepted: the expected PSN moves on by `n`, and the packet is acknowledged when it asks for that. -/
def State.roceDone (s : State) (x n : Nat) (k : RocePkt) : State :=
  let s1 := s.onCore fun c => c.setFld (Reg.pcSeq x) 31 0 ((k.psn + n) % 2 ^ 24)
  if k.ackReq && k.op != 12 then s1.roceAck x 0x1F k.psn else s1

/-- The PSN rule of a reliable connection: a request with the expected PSN is handled; one already received is acknowledged again,
or answered again when it is a READ; one ahead draws a NAK for a sequence error. -/
def State.inPsn (s : State) (x : Nat) (k : RocePkt) (again handle : State → State) : State :=
  let want := s.core.seqIn x % 2 ^ 24
  let d := (k.psn + 2 ^ 24 - want) % 2 ^ 24
  if d = 0 then handle s
  else if 2 ^ 23 ≤ d then again s
  else s.roceAck x 0x60 want

/-- The RoCEv2 packet at the head of a port's received payloads, if its opcode is one of those given: its context, the request, and
the state without it. -/
def State.takeRoce (s : State) (p : Nat) (ops : List Nat) : Option (Option Nat × RocePkt × State) :=
  match s.net.rxUp.find? fun u => u.port == p with
  | some u =>
    if u.roce = true ∧ ops.contains (rocePkt u.bytes).op = true then
      some (s.roceContext p u.bytes, rocePkt u.bytes, { s with net := { s.net with rxUp := s.net.rxUp.erase u } })
    else none
  | none => none

/-- A SEND of the expected PSN (R368): at its end the whole message is delivered to SEND_QUEUE, or refused for its length, or
answered with an RNR NAK when the ring cannot hold it, which sets FULL (R407). -/
def State.sendPacket (s : State) (x : Nat) (k : RocePkt) : State :=
  let r := s.pcRun x
  let begins := k.op == 0 || k.op == 4
  if lengthOk (s.core.pmtu x) k = false ∨ begins = r.sendBuf.isSome then (s.putPc { r with sendBuf := none }).roceAck x 0x61 k.psn
  else
    let whole := r.sendBuf.getD [] ++ k.body
    if k.op ≤ 1 then (s.putPc { r with sendBuf := some whole }).roceDone x 1 k
    else if whole.length % 64 ≠ 0 then (s.putPc { r with sendBuf := none }).roceAck x 0x61 k.psn
    else
      let q := s.core.fld (Reg.pcCtrl x) 33 20
      match (if s.core.qTakes q x then s.core.qDeliver q (entriesOf (whole.length / 64) whole) else none) with
      | some c => (({ s with core := c } : State).putPc { r with sendBuf := none, msn := (r.msn + 1) % 2 ^ 24 }).roceDone x 1 k
      | none =>
        let s1 := if s.core.qTakes q x then s.onCore fun c => c.setBit (Reg.qStatus q) 0 true else s
        s1.roceAck x (0x20 + s.core.fld (Reg.pcPort x) 44 40) k.psn

/-- ROCE_SEND. -/
def execRoceSend (p : Nat) (s : State) : Host.Outcome State Fault Refusal :=
  s.clocked <| .next
    (match s.takeRoce p [0, 1, 2, 4] with
    | some (some x, k, s1) =>
      (s1.inPsn x k (fun s => s.roceAck x 0x1F ((s.core.seqIn x + 2 ^ 24 - 1) % 2 ^ 24)) fun s => s.sendPacket x k).takeWork.settle
    | some (none, _, s1) => s1
    | none => s)

/-- A WRITE of the expected PSN (R368): its RETH is checked on First and Only, nothing is written when it fails. -/
def State.writePacket (s : State) (x : Nat) (k : RocePkt) : State :=
  let r := s.pcRun x
  let begins := k.op == 6 || k.op == 10
  if lengthOk (s.core.pmtu x) k = false ∨ begins = r.writeAt.isSome then (s.putPc { r with writeAt := none }).roceAck x 0x61 k.psn
  else if begins && !(s.core.rethOk x k) then s.roceAck x 0x62 k.psn
  else
    let w := if begins then (k.va, k.len) else r.writeAt.getD (0, 0)
    let ends := k.op == 8 || k.op == 10
    if (if ends then k.body.length ≠ w.2 else w.2 ≤ k.body.length) then (s.putPc { r with writeAt := none }).roceAck x 0x61 k.psn
    else
      let o := ((s.core.countServed .wr w.1 k.body.length).bump Reg.obsRemoteIn k.body.length).store w.1 k.body
      let c1 := o.2.foldl (fun c l => c.countMemErr (l * 64) true) o.1
      let s1 : State := { s with core := c1 }
      if o.2.isEmpty = false then (s1.putPc { r with writeAt := none }).roceAck x 0x63 k.psn
      else
        (s1.putPc { r with writeAt := if ends then none else some (w.1 + k.body.length, w.2 - k.body.length),
                           msn := if ends then (r.msn + 1) % 2 ^ 24 else r.msn }).roceDone x 1 k

/-- Whether a WRITE must wait before memory can take its bytes: a page of a running checkpoint has to be copied first and the staging has
no room (R422). -/
def State.writeHeld (s : State) (x : Nat) (k : RocePkt) : Bool :=
  let a := if k.op == 6 || k.op == 10 then k.va else ((s.pcRun x).writeAt.getD (0, 0)).1
  let pages := ((linesOf a k.body.length).map fun l => l / 256).eraseDups.filter fun p => s.core.pend.contains p
  !pages.isEmpty && decide (stagingPages < s.core.pageOut.length + pages.length)

/-- ROCE_WRITE. A WRITE that must wait stays at the head of its port's received payloads, so that it is acknowledged only once memory has
taken it (R368; DESIGN CHOICE, log entry 112). -/
def execRoceWrite (p : Nat) (s : State) : Host.Outcome State Fault Refusal :=
  s.clocked <| .next
    (match s.takeRoce p [6, 7, 8, 10] with
    | some (some x, k, s1) =>
      if s.writeHeld x k then s
      else (s1.inPsn x k (fun s => s.roceAck x 0x1F ((s.core.seqIn x + 2 ^ 24 - 1) % 2 ^ 24)) fun s => s.writePacket x k).settle
    | some (none, _, s1) => s1
    | none => s)

/-- The response packets of a READ: First, Middle, Last or Only, of the path MTU each. -/
def Core.readPackets (c : Core) (x psn msn : Nat) (data : List Byte) : Core :=
  let mtu := c.pmtu x
  let n := max 1 (ceilDiv data.length mtu)
  (List.range n).foldl (fun c i =>
    let part := (data.drop (mtu * i)).take mtu
    let op := if n = 1 then 0x10 else if i = 0 then 0x0D else if i + 1 = n then 0x0F else 0x0E
    let pads := (4 - part.length % 4) % 4
    c.sendRoce x (bth op (c.fld (Reg.pcPort x) 39 16) (psn + i) pads false
      ((if op = 0x0E then [] else aeth 0x1F msn) ++ part ++ List.replicate pads 0))) c

/-- A READ Request (R368) served: checked, read, and its responses sent; `first` says that it is not a repeat. -/
def State.readPacket (s : State) (x : Nat) (k : RocePkt) (first : Bool) : State :=
  let r := s.pcRun x
  if r.sendBuf.isSome ∨ r.writeAt.isSome then (s.putPc { r with sendBuf := none, writeAt := none }).roceAck x 0x61 k.psn
  else if s.core.rethOk x k = false then s.roceAck x 0x62 k.psn
  else
    let c1 := (s.core.countServed .rd k.va k.len).bump Reg.obsRemoteIn k.len
    match c1.ueLines (c1.global k.va) k.len with
    | [] =>
      let msn := if first then (r.msn + 1) % 2 ^ 24 else r.msn
      let s1 := ({ s with core := c1.readPackets x k.psn msn (c1.rdBytes k.va k.len) } : State).putPc { r with msn := msn }
      if first then s1.roceDone x (max 1 (ceilDiv k.len (c1.pmtu x))) k else s1
    | bad => ({ s with core := bad.foldl (fun c l => c.countMemErr (l * 64) true) c1 } : State).roceAck x 0x63 k.psn

/-- Whether the packet at the head of a port's received payloads is a READ that found 16 outstanding on its queue pair (R368). -/
def State.overRead (s : State) (p : Nat) : Bool := (s.net.rxUp.find? fun u => u.port == p).any fun u => u.excess

/-- ROCE_READ_REQUEST. A READ is outstanding from its arrival until it is served; one that found 16 before it draws a NAK for an
invalid request in its turn. -/
def execRoceReadRequest (p : Nat) (s : State) : Host.Outcome State Fault Refusal :=
  s.clocked <| .next
    (match s.takeRoce p [12] with
    | some (some x, k, s1) =>
      if s.overRead p then s1.roceAck x 0x61 k.psn
      else (s1.inPsn x k (fun s => s.readPacket x k false) fun s => s.readPacket x k true).settle
    | some (none, _, s1) => s1
    | none => s)

/-! ## Sorting (R365) -/

/-- A frame dropped and counted in EP_RX_DROP. -/
def State.dropFrame (s : State) (p : Nat) : State := s.onCore fun c => c.bump (Reg.epRxDrop p) 1

/-- The READs outstanding on a queue pair: received and not yet served (R368). -/
def State.readsOut (s : State) (p qp : Nat) : Nat :=
  (s.net.rxUp.filter fun u => u.port == p && u.roce && !u.excess && leField u.bytes 0 1 == 12 && beNat (bytesAt u.bytes 5 3) == qp).length

/-- A UDP payload handed on to the port's RoCEv2 responder or command framing. -/
def State.handUp (s : State) (p : Nat) (roce : Bool) (f : List Byte) (u : UdpView) : State :=
  let from_ : NetAddr := { mac := beNat (bytesAt f 6 6), ip := u.src, v6 := u.v6, udp := u.sport, me := u.dst, port := u.dport }
  let excess := roce && leField u.body 0 1 == 12 && decide (16 ≤ s.readsOut p (beNat (bytesAt u.body 5 3)))
  { s with net := { s.net with rxUp := s.net.rxUp ++ [{ port := p, roce := roce, excess := excess, from_ := from_, bytes := u.body }] } }

/-- UDP to port 4791: a packet whose ICRC fails is discarded, an operation that the module does not have draws a NAK for invalid
request at once (R367). -/
def State.roceIn (s : State) (p : Nat) (f : List Byte) (u : UdpView) : State :=
  let n := u.body.length
  if n < 16 ∨ icrc u.v6 ((f.drop 14).take ((if u.v6 then 48 else 28) + n - 4)) ≠ leField u.body (n - 4) 4 then s
  else if roceOps.contains (leField u.body 0 1) then s.handUp p true f u
  else
    match s.roceContext p u.body with
    | some x => s.roceAck x 0x61 (beNat (bytesAt u.body 9 3))
    | none => s

/-- UDP to EP_CMD_PORT: a payload that is no command datagram is dropped and counted in EP_CMD_BAD. -/
def State.cmdIn (s : State) (p : Nat) (f : List Byte) (u : UdpView) : State :=
  if u.body.length < 32 ∨ 8224 < u.body.length ∨ leField u.body 4 1 ≠ 1 ∨ leField u.body 5 1 = 0 ∨ 3 < leField u.body 5 1 then s.badDg p
  else s.handUp p false f u

/-- A received frame sorted by the first row of R365 that matches it. `f` is the frame without its FCS. -/
def State.sortFrame (s : State) (p : Nat) (fcsOk : Bool) (f : List Byte) : State :=
  if fcsOk = false ∨ 9216 < f.length ∨ beNat (bytesAt f 12 2) = 0x8100 then s.dropFrame p
  else
    match ptpAt f with
    | some o => (s.ptpCapture p (f.drop o)).dropFrame p
    | none =>
      if beNat (bytesAt f 0 6) ≠ s.core.fld (Reg.epMac p) 47 0 then s.dropFrame p
      else
        match s.core.arpReply p f, s.core.neighbourReply p f with
        | some r, _ => s.onCore fun c => c.sendFrame p r
        | none, some r => s.onCore fun c => c.sendFrame p r
        | none, none =>
          match udpView f with
          | none => s.dropFrame p
          | some u =>
            if u.clean = false then s.dropFrame p
            else if u.dport = 4791 then s.roceIn p f u
            else if u.dport = s.core.fld (Reg.epCmdPort p) 15 0 then s.cmdIn p f u
            else s.dropFrame p

/-- The codewords of a received frame: how many were corrected, and how many of a frame with a bad FCS were not correctable, which no
operand says (R403, log entry 75). -/
def Core.countCodewords (c : Core) (p : Nat) (fcsOk : Bool) : Core :=
  let c1 := c.bump (Reg.epFecCorr p) (Config.freeNat c.freeCtr)
  let c2 := if fcsOk then c1 else c1.bump (Reg.epFecUncorr p) (Config.freeNat (c.freeCtr + 1))
  { c2 with freeCtr := c.freeCtr + 2 }

/-- ETH_FRAME_RX: an enabled port with its link up counts and sorts the frame. -/
def execEthFrameRx (p : Nat) (fcsOk : Bool) (bytes : List Byte) (s : State) : Host.Outcome State Fault Refusal :=
  s.whenAlive <| .next (if p < 2 ∧ s.core.bit (Reg.epStatus p) 0 = true then
    (s.onCore fun c => (c.bump (Reg.epRxBytes p) bytes.length).countCodewords p fcsOk).sortFrame p fcsOk bytes else s)

/-! ## EP_CTRL and the port's link (R364, R403, R408) -/

/-- A write to EP_CTRL: a new EN or MODE retrains the port, so its link is down until EP_LINK_UP_CHANGE; in Bare mode EP0 runs
400GBASE-R whatever MODE holds. CNT_CLEAR clears the counters. -/
def State.epCtrlWrite (s : State) (p : Nat) (v : Word) : State :=
  if 2 ≤ p then s
  else
    let old := s.core.fld (Reg.epCtrl p) 1 0
    let c1 := s.core.wr (Reg.epCtrl p) (v &&& 0x3)
    let c2 := if getF v 2 2 = 1 then c1.cntClear (Reg.epRxBytes p) 9 else c1
    if old = getF v 1 0 then { s with core := c2 }
    else
      let c3 := c2.setBit (Reg.epStatus p) 0 false
      { s with core := if c3.bit (Reg.epStatus p) 2 then c3 else c3.setBit (Reg.epStatus p) 1 (getF v 1 1 == 1) }

/-- EP_CTRL_WRITE. -/
def execEpCtrlWrite (p : Nat) (v : Word) (s : State) : Host.Outcome State Fault Refusal := s.clocked <| .next (s.epCtrlWrite p v)

/-- EP_LINK_UP_CHANGE: the link of an enabled port; EP1 is down in Bare mode (R364). -/
def execEpLinkUpChange (p : Nat) (up : Bool) (s : State) : Host.Outcome State Fault Refusal :=
  s.whenAlive <| .next
    (if p < 2 then
      let can := s.core.bit (Reg.epCtrl p) 0 && !(p == 1 && s.core.bit (Reg.epStatus 0) 2)
      s.onCore fun c => c.setBit (Reg.epStatus p) 0 (up && can)
    else s)

end Sys2Proof.Machine
end

