-- ==== Sys2Proof/Machine/Observe.lean ====
section
/-! DEFINITION. Doff (R476 to R481) and the counter clears of every block (R139). -/

namespace Sys2Proof.Machine

/-! ## Doff -/

/-- A write of 1 to DOFF_CTRL.FIRE (R477). -/
def execDoffFire (s : State) : Host.Outcome State Fault Refusal := s.clocked <| .next (s.doffTrigger 0 s.core.now.toNat)

/-- DOFF_IN held low (R477): this is its `ticks`-th low tick. From four on, with PIN_EN set, it fires, and the triggering tick is the fourth
(log entry 113). -/
def execDoffPinTrigger (ticks : Nat) (s : State) : Host.Outcome State Fault Refusal :=
  s.whenAlive <| .next (if 4 ≤ ticks ∧ s.core.bit Reg.doffCtrl 1 = true then s.doffTrigger 1 (s.core.now.toNat - (ticks - 4)) else s)

/-- The freeze (R476, R479): every counter reports its value of now, but for those of the blocks in `late`, which have not yet seen the
announcement; DOFF_OUT falls for 64 ticks from T_fire, `at_`. -/
def State.doffTake (s : State) (at_ : Nat) (late : List Nat) : State :=
  let c1 := { s.core with frozen := some s.core.ctl }
  { s with core := (c1.setFld Reg.doffStatus 1 0 2).bump Reg.doffFired 1,
           pwr := { s.pwr with doffFire := none, doffOutUntil := some (at_ + 64), lateBlocks := late } }

/-- The blocks that have now seen the announcement, all but those in `late`, latch; SKEWED is set, and a freeze counts once in
OBS_DOFF_SKEWED (R479). -/
def State.doffLatch (s : State) (late : List Nat) : State :=
  let seen := fun (p : Nat × Word) => s.pwr.lateBlocks.contains (p.1 / 0x1000) && !(late.contains (p.1 / 0x1000))
  let snap := (s.core.ctl.filter seen).foldl (fun l p => sPut l p.1 p.2 (resetWord p.1)) ((s.core.frozen.getD []).filter fun p => !(seen p))
  let c1 : Core := { s.core with frozen := some snap }
  let c2 := if s.core.bit Reg.doffStatus 6 then c1 else (c1.setBit Reg.doffStatus 6 true).bump Reg.obsDoffSkewed 1
  { s with core := c2, pwr := { s.pwr with lateBlocks := s.pwr.lateBlocks.filter fun b => late.contains b } }

/-- DOFF_FREEZE: an armed Doff reaches T_fire; `late` names the counter blocks, by control-space offset divided by 4 KiB, that see the
announcement too late. While such blocks are left, the row comes again for each tick in which some of them latch, and `late` names
those that still do not. -/
def execDoffFreeze (late : List Nat) (s : State) : Host.Outcome State Fault Refusal :=
  s.whenAlive <| .next
    (match s.pwr.doffFire with
    | some f => if f ≤ s.core.now.toNat then s.doffTake f late else s
    | none =>
      if s.core.fld Reg.doffStatus 1 0 = 2 ∧ (s.pwr.lateBlocks.any fun b => !(late.contains b)) = true then s.doffLatch late else s)

/-- DOFF_OUT_RELEASE (R479). -/
def execDoffOutRelease (s : State) : Host.Outcome State Fault Refusal :=
  s.whenAlive <| .next
    (match s.pwr.doffOutUntil with
    | some f => if f ≤ s.core.now.toNat then { s with pwr := { s.pwr with doffOutUntil := none } } else s
    | none => s)

/-- A write of 1 to DOFF_CTRL.THAW (R476): a freeze ends; reads of this tick still return its values. -/
def State.doffThaw (s : State) : State :=
  if s.core.fld Reg.doffStatus 1 0 = 2 then
    { s with core := { (s.core.setFld Reg.doffStatus 1 0 0) with frozen := none },
             pwr := { s.pwr with doffThawed := s.core.frozen.map fun l => (s.core.now.toNat, l) } }
  else s

/-- DOFF_THAW. -/
def execDoffThaw (s : State) : Host.Outcome State Fault Refusal := s.clocked <| .next s.doffThaw

/-- A tick of the neighbour on link `l` in this module's time (R481). -/
def Core.localTick (c : Core) (l t : Nat) : Int := (t : Int) - (signedOf 32 (c.fld (Reg.qlEchoOffset l) 31 0) + 8) / 16

/-- A DOFF message (R481): dropped, armed in place of a later one, or, when its time is past, armed for the first tick after its arrival. A
trigger of this module in the same tick stands higher (R477). -/
def State.doffMsg (s : State) (m : Msg) : State :=
  let hops := (leField m.bytes 1 1 + 1) % 256
  let seq := leField m.bytes 2 2
  let origin := leField m.bytes 4 2 % 4096
  let t := s.core.localTick m.link (leField m.bytes 8 8)
  let drop := s.onCore fun c => c.bump Reg.doffIgnored 1
  let st := s.core.fld Reg.doffStatus 1 0
  let held : Int := ((s.pwr.doffFire.getD 0 : Nat) : Int)
  if 12 ≤ m.link ∨ s.core.bit Reg.doffCtrl 2 = false ∨ s.pwr.doffIdent = some (origin, seq) then drop
  else if st = 2 ∨ (st = 1 ∧ s.pwr.doffTook = some s.core.now.toNat ∧ s.core.fld Reg.doffStatus 4 2 < 3) then drop
  else if st = 1 ∧ (held < t ∨ (held = t ∧ (s.pwr.doffIdent.getD (0, 0)).1 ≤ origin)) then drop
  else
    let word := (t % ((2 ^ 64 : Nat) : Int)).toNat
    let now := s.core.now.toNat
    let s0 := s.doffArm 3 word origin seq hops m.link
    let s1 : State := { s0 with pwr := { s0.pwr with doffTook := if st = 0 then some now else none } }
    if t < (now : Int) then
      { s1 with core := (s1.core.setBit Reg.doffStatus 5 true).setFld Reg.doffLate 31 0 ((now : Int) + 1 - t).toNat,
                pwr := { s1.pwr with doffFire := some (now + 1) } }
    else s1

/-- DOFF. -/
def execDoffMsg (s : State) : Host.Outcome State Fault Refusal :=
  s.clocked <| .next (match s.takeMsg 0x18 with
    | some (m, s1) => s1.doffMsg m
    | none => s)

/-! ## Counter clears (R139, R525) -/

/-- The counters of an active tile's block, from offset `off`, cleared. -/
def State.clearTile (s : State) (t off n : Nat) : State :=
  if t < s.core.active then s.onCore fun c => c.cntClear (tileCtl t + off) n else s

/-- MITT_CTRL.CNT_CLEAR: 0x010 to 0x070 (R138). -/
def execMittCntClear (t : Nat) (s : State) : Host.Outcome State Fault Refusal := s.clocked <| .next (s.clearTile t 0x2010 13)

/-- CUFF_CTRL.CNT_CLEAR: 0x010 to 0x070 (R172). -/
def execCuffCntClear (t : Nat) (s : State) : Host.Outcome State Fault Refusal := s.clocked <| .next (s.clearTile t 0x3010 13)

/-- GLOVE_CTRL.CNT_CLEAR: 0x060 to 0x0D8 (R200). -/
def execGloveCntClear (t : Nat) (s : State) : Host.Outcome State Fault Refusal := s.clocked <| .next (s.clearTile t 0x4060 16)

/-- EXP_CTRL.CNT_CLEAR: 0x110 to 0x158 (R229). -/
def execExpCntClear (t : Nat) (s : State) : Host.Outcome State Fault Refusal := s.clocked <| .next (s.clearTile t 0x4110 10)

/-- SIZER_CTRL.CNT_CLEAR: 0x028 to 0x060 (R252). -/
def execSizerCntClear (t : Nat) (s : State) : Host.Outcome State Fault Refusal := s.clocked <| .next (s.clearTile t 0x5028 8)

/-- NUM_CTRL.CNT_CLEAR: 0x0338 to 0x0388 (R282). -/
def execNumCntClear (s : State) : Host.Outcome State Fault Refusal := s.clocked <| .next (s.onCore fun c => c.cntClear 0x338 11)

/-- PALM_CTRL.CNT_CLEAR: 0x008 to 0x040 (R308). -/
def execPalmCntClear (t : Nat) (s : State) : Host.Outcome State Fault Refusal := s.clocked <| .next (s.clearTile t 0x808 8)

/-- BAND_CTRL.CNT_CLEAR: 0x0028 to 0x0040 (R309). -/
def execBandCntClear (s : State) : Host.Outcome State Fault Refusal := s.clocked <| .next (s.onCore fun c => c.cntClear Reg.bandBoundaries 4)

/-- ADD_CTRL.CNT_CLEAR: 0x008 to 0x048 (R341). -/
def execAddCntClear (s : State) : Host.Outcome State Fault Refusal := s.clocked <| .next (s.onCore fun c => c.cntClear Reg.addLines 9)

/-- The CE and UE fields of channel status registers cleared, unless a Doff freeze holds. -/
def Core.clearChannels (c : Core) (reg : Nat → Nat) (n : Nat) : Core :=
  if c.frozen.isSome then c else (List.range n).foldl (fun c i => c.setFld (reg i) 47 16 0) c

/-- HBM_CTRL.CNT_CLEAR (R343): HBM_CE to HBM_LANES_REPAIRED and the channels' CE and UE. -/
def execHbmCntClear (s : State) : Host.Outcome State Fault Refusal :=
  s.clocked <| .next (s.onCore fun c => (c.cntClear Reg.hbmCe 4).clearChannels Reg.hbmChStatus 384)

/-- DDR_CTRL.CNT_CLEAR (R343): DDR_CE to DDR_PPR_FAIL and the channels' CE and UE. -/
def execDdrCntClear (s : State) : Host.Outcome State Fault Refusal :=
  s.clocked <| .next (s.onCore fun c => (c.cntClear Reg.ddrCe 4).clearChannels Reg.ddrChStatus 16)

/-- RED_CTRL.CNT_CLEAR: 0x018 to 0x060 (R362). -/
def execRedCntClear (s : State) : Host.Outcome State Fault Refusal := s.clocked <| .next (s.onCore fun c => c.cntClear Reg.redSentGroups 10)

/-- EP_CTRL.CNT_CLEAR: 0x050 to 0x090 (R403). -/
def execEpCntClear (p : Nat) (s : State) : Host.Outcome State Fault Refusal :=
  s.clocked <| .next (if p < 2 then s.onCore fun c => c.cntClear (Reg.epRxBytes p) 9 else s)

/-- QL_CTRL.CNT_CLEAR: 0x50 to 0x90 (R405). -/
def execQlCntClear (l : Nat) (s : State) : Host.Outcome State Fault Refusal :=
  s.clocked <| .next (if l < 12 then s.onCore fun c => c.cntClear (Reg.qlTxBytes l) 9 else s)

/-- QR_CTRL.CNT_CLEAR: 0x010 and 0x018 (R406). -/
def execQrCntClear (s : State) : Host.Outcome State Fault Refusal := s.clocked <| .next (s.onCore fun c => c.cntClear Reg.qrTimeouts 2)

/-- DET_CTRL.CNT_CLEAR: 0x040 to 0x050 (R435). -/
def execDetCntClear (s : State) : Host.Outcome State Fault Refusal := s.clocked <| .next (s.onCore fun c => c.cntClear Reg.detChecks 3)

/-- JNL_CTRL.CNT_CLEAR: JNL_ENTRIES, the journal's one counter (R435). -/
def execJnlCntClear (s : State) : Host.Outcome State Fault Refusal := s.clocked <| .next (s.onCore fun c => c.cntClear Reg.jnlEntries 1)

/-- HB_CTRL.CNT_CLEAR: 0x320 and 0x328 (R435). -/
def execHbCntClear (s : State) : Host.Outcome State Fault Refusal := s.clocked <| .next (s.onCore fun c => c.cntClear Reg.hbBytesOut 2)

/-- DROOP_CTRL.CNT_CLEAR: the counters of the 16 regions (R470). -/
def execDroopCntClear (s : State) : Host.Outcome State Fault Refusal := s.clocked <| .next (s.onCore fun c => c.cntClear (Reg.droopEvents 0) 32)

/-- PWR_CTRL.CNT_CLEAR: 0x400 to 0x478 (R458, R470). -/
def execPwrCntClear (s : State) : Host.Outcome State Fault Refusal := s.clocked <| .next (s.onCore fun c => c.cntClear (Reg.residS 0) 16)

/-- OBS_CTRL.CNT_CLEAR: 0x040, 0x048, 0x060 to 0x098 and 0x198 to 0x1A8 (R488). -/
def execObsCntClear (s : State) : Host.Outcome State Fault Refusal :=
  s.clocked <| .next (s.onCore fun c => ((c.cntClear Reg.doffIgnored 2).cntClear Reg.obsHbmRd 8).cntClear Reg.dumpDone 3)

/-- TCNT_CTRL.CNT_CLEAR: 0x008 to 0x088 (R489). -/
def execTcntCntClear (t : Nat) (s : State) : Host.Outcome State Fault Refusal := s.clocked <| .next (s.clearTile t 0x6008 17)

end Sys2Proof.Machine
end

