-- ==== Sys2Proof/Machine/Quiras.lean ====
section
/-! DEFINITION. The Quiras links (R374 to R385, R387): frames, credits, retry, recovery, spare-lane handover and the echo. -/

namespace Sys2Proof.Machine

/-! ## Links and frames -/

/-- FKIND of a received frame. -/
def frameKind (f : QFrame) : Nat := bitsOf f.hdr 16 15

/-- A bad frame (R375): decoding failed, CRC failed, or reserved bits are set. -/
def frameBad (f : QFrame) : Bool :=
  !f.rsOk || bitsOf f.hdr 47 41 != 0 || decide (2 ^ 48 ≤ f.hdr) || crc16 (leBytes 6 f.hdr ++ bytesAt f.payload 0 256) != f.crc

/-- Corrected bytes counted in QL_FEC_CORR (R375). -/
def Core.countFec (c : Core) (l : Nat) (f : QFrame) : Core := if f.rsOk then c.bump (Reg.qlFecCorr l) f.corrected else c

/-- A bad or out-of-order frame: one NAK until a frame is accepted again (R380). -/
def Link.oweNak (x : Link) : Link := if x.nakSent then x else { x with nakOwed := true, nakSent := true }

/-- A bad frame counted, with its NAK. -/
def State.badFrame (s : State) (l : Nat) : State :=
  (s.onCore fun c => c.bump (Reg.qlBadFrames l) 1).putLink l (s.link l).oweNak

/-! ## Handover (R383, R384) -/

/-- A transmit handover abandoned: FAIL, QL_HANDOVER_FAIL, the maps unchanged. -/
def State.abandonHandover (s : State) (l : Nat) : State :=
  let s1 := s.putLink l { s.link l with tx := none }
  s1.onCore fun c => ((c.setBit (Reg.qlHandover l) 3 true).setBit (Reg.qlStatus l) 2 false).bump (Reg.qlHandoverFail l) 1

/-- A write of 1 to QL_HANDOVER.GO (R383, R384): shadowing begins, and GO has then done its work and reads 0, while TX_HANDOVER shows the
move (R12). While a handover runs, or on a link that is not UP, the request is refused, which sets FAIL and counts. -/
def State.handoverGo (s : State) (l pos : Nat) : State :=
  if 12 ≤ l then s
  else
    let c1 := s.core.setFld (Reg.qlHandover l) 1 0 pos
    if (s.link l).tx.isSome ∨ s.core.linkUp l = false then
      { s with core := (c1.setBit (Reg.qlHandover l) 3 true).bump (Reg.qlHandoverFail l) 1 }
    else
      let m := s.core.rd (Reg.qlTxmap l)
      let p := pos % 4
      ({ s with core := c1.setBit (Reg.qlStatus l) 2 true } : State).putLink l
        { s.link l with tx := some { pos := p, old := getF m (3 * p + 2) (3 * p), new := getF m 14 12, switched := false } }

/-- QL_HANDOVER_GO. -/
def execQlHandoverGo (l pos : Nat) (s : State) : Host.Outcome State Fault Refusal := s.clocked <| .next (s.handoverGo l pos)

/-- See `State.handoverDone`. -/
def execHandoverComplete (l : Nat) (s : State) : Host.Outcome State Fault Refusal := s.whenAlive <| .next (s.handoverDone l)

/-- HANDOVER_TIMEOUT (R384): READY has not come. -/
def execHandoverTimeout (l : Nat) (s : State) : Host.Outcome State Fault Refusal :=
  s.whenAlive <| .next (match (s.link l).tx with
    | some h => if h.switched then s else s.abandonHandover l
    | none => s)

/-- The switch that markers announced, made at the receiver (R383): the position is read from its new lane. -/
def State.rxSwitchNow (s : State) (l : Nat) : State :=
  match (s.link l).rxSwitch with
  | some (_, new, old) =>
    (s.onCore fun c => (c.wr (Reg.qlRxmap l) (swapLanes (c.rd (Reg.qlRxmap l)) old new)).setBit (Reg.qlStatus l) 3 false).putLink l
      { s.link l with rxSwitch := none, rxShadow := none, rxReady := none }
  | none => s

/-- HANDOVER_MARKER (R383): any one of the four sets the switch; the slot after COUNTDOWN 0 is the first in which the position comes on
its new lane. -/
def execHandoverMarker (l : Nat) (f : QFrame) (s : State) : Host.Outcome State Fault Refusal :=
  s.whenAlive <| .next
    (if s.core.linkUp l = false then s
     else
      let s0 := s.onCore fun c => c.countFec l f
      if frameBad f then s0.badFrame l
      else if frameKind f ≠ 2 then s0
      else
        let b := fun i => leField f.payload i 1
        let s1 := s0.putLink l { s0.link l with rxSwitch := some (b 0, b 1, b 2) }
        if b 3 = 0 then s1.rxSwitchNow l else s1)

/-! ## Recovery and loss (R381) -/

/-- RECOVERY (R381, R384, R478): every lane is retrained, retry buffers and SEQ series are kept; a handover before its first marker is
abandoned. -/
def State.enterRecovery (s : State) (l : Nat) : State :=
  let s1 := if (s.link l).tx.any fun h => !h.switched then s.abandonHandover l else s
  s1.onCore fun c => { ((c.setFld (Reg.qlStatus l) 1 0 3).bump (Reg.qlRecoveries l) 1) with events := c.events ++ [3] }

/-- LINK_RECOVERY (R381): eight replays without progress. -/
def execLinkRecovery (l : Nat) (s : State) : Host.Outcome State Fault Refusal :=
  s.whenAlive <| .next (if s.core.linkUp l && decide (8 ≤ (s.link l).stalls) then (s.enterRecovery l).settle else s)

/-- A write of 1 to QL_CTRL.RETRAIN (R405): an UP link enters RECOVERY. -/
def State.retrain (s : State) (l : Nat) : State :=
  if s.core.linkUp l then (s.enterRecovery l).onCore fun c => c.setBit (Reg.qlCtrl l) 1 true else s

/-- QL_RETRAIN. -/
def execQlRetrain (l : Nat) (s : State) : Host.Outcome State Fault Refusal := s.clocked <| .next (s.retrain l).settle

/-- The links that carry class H (R55). -/
def State.hatboxLink (s : State) (l : Nat) : Bool := bitOf (leField s.pat.layout 6 2) l

/-- A link DOWN (R381): its buffers are discarded, what waits on its route ends with LINK_DOWN, and a handover of its own is
abandoned; a link of HATBOX_LINKS abandons a checkpoint or restore that runs with RESULT 0x03 (R426). What it knows of the partner's handover stays until the lane maps are exchanged again. -/
def State.linkDown (s0 : State) (l : Nat) : State :=
  let s := if (s0.link l).tx.isSome then s0.abandonHandover l else s0
  let c1 := (((s.core.setFld (Reg.qlStatus l) 3 0 0).setBit (Reg.qlCtrl l) 1 false).setBit (Reg.qlCtrl l) 2 false).bump
    (Reg.qlRecoveries l) 1
  let s1 : State := { s with core := { c1 with events := c1.events ++ [3] } }
  let s2 := (s1.putLink l { Link.initial with rxReady := (s.link l).rxReady, rxSwitch := (s.link l).rxSwitch }).routeLost (l + 1)
  if s2.hatboxLink l && decide (2 ≤ s2.core.fld Reg.hbStatus 2 0) then s2.hbFail 3 else s2

/-- RECOVERY_TIMEOUT (R381): recovery has not finished within 1 ms. -/
def execRecoveryTimeout (l : Nat) (s : State) : Host.Outcome State Fault Refusal :=
  s.whenAlive <| .next (if l < 12 ∧ s.core.linkState l = 3 then (s.linkDown l).takeWork.settle else s)

/-- LINK_TRAIN_RETRY (R381): a DOWN link whose EN is set trains again. -/
def execLinkTrainRetry (l : Nat) (s : State) : Host.Outcome State Fault Refusal :=
  s.whenAlive <| .next (if l < 12 ∧ s.core.linkState l = 0 ∧ s.core.bit (Reg.qlCtrl l) 0 = true then
    s.onCore fun c => c.setFld (Reg.qlStatus l) 1 0 1 else s)

/-- The lane maps exchanged (R381, R384): QL_RXMAP becomes the partner's map. It differs from the map held only by a handover of the
partner for which this side has sent READY; whether the partner has made the switch, whose markers may have been missed, is the partner's to say. -/
def State.exchangeMaps (s : State) (l : Nat) : State :=
  match (s.link l).rxSwitch, (s.link l).rxReady with
  | some _, _ => s.rxSwitchNow l
  | none, some p =>
    if Config.freeBit s.core.freeCtr then
      let m := s.core.rd (Reg.qlRxmap l)
      let s1 := s.putLink l { s.link l with rxSwitch := some (p, getF m 14 12, getF m (3 * p + 2) (3 * p)) }
      ({ s1 with core := s1.core.fresh.2 } : State).rxSwitchNow l
    else { s with core := s.core.fresh.2 }
  | none, none => s

/-- LINK_TRAINING_DONE (R381, R382, R408): lane maps and credit divisions are exchanged, and a trained link is UP with new SEQ series
and whole credit; out of RECOVERY, replay resumes from the retry buffer, and the divisions stay. -/
def execLinkTrainingDone (l : Nat) (credit : Word) (s : State) : Host.Outcome State Fault Refusal :=
  s.whenAlive <| .next
    (if l < 12 ∧ s.core.linkState l = 1 then
      let s1 := s.exchangeMaps l
      let own := s.core.rd (Reg.qlCredit l)
      (s1.onCore fun c => (c.setFld (Reg.qlStatus l) 1 0 2).tellPartner l own).putLink l
        ((s1.link l).up (s.core.rd (Reg.qlSched l)) credit own)
    else if l < 12 ∧ s.core.linkState l = 3 then
      let s1 := s.exchangeMaps l
      (s1.onCore fun c => ((c.setFld (Reg.qlStatus l) 1 0 2).setBit (Reg.qlCtrl l) 1 false).tellPartner l (s.link l).own).putLink l
        { s1.link l with replay := (s.link l).retry, stalls := 0 }
    else s)

/-- ALIGNMENT_MARKER (R374). -/
def execAlignmentMarker (l : Nat) (s : State) : Host.Outcome State Fault Refusal :=
  s.whenAlive <| .next (if s.core.linkUp l then s.onCore fun c => c.emit (.marker l) else s)

/-! ## Sending data frames (R378, R379) -/

/-- Whether a waiting message leaves by a link: its own link, the route of its destination, or for class H a link of HATBOX_LINKS. -/
def State.leavesBy (s : State) (l : Nat) (m : Msg) : Bool :=
  m.link == l || (m.link == 12 && (if m.cls = 4 then s.hatboxLink l else s.core.hop m.dest == l + 1))

/-- The first message of a class for a link. -/
def State.nextMsg (s : State) (l k : Nat) : Option Msg := s.core.msgOut.find? fun m => m.cls == k && s.leavesBy l m

/-- Whether the partner's buffers of a class have room (R378): QL_CREDIT counts units of 16 frames. -/
def Link.hasCredit (x : Link) (k : Nat) : Bool :=
  decide ((x.sent.getD k 0 + 2 ^ 16 - x.creditIn.getD k 0 % 2 ^ 16) % 2 ^ 16 < 16 * getF x.peerCredit (8 * k + 6) (8 * k))

/-- The class of a schedule slot: codes above 4 are taken as 1 (R405). -/
def slotClass (sched : Word) (i : Nat) : Nat :=
  let v := getF sched (4 * (i % 16) + 3) (4 * (i % 16))
  if 4 < v then 1 else v

/-- Whether a class has a frame ready for a link. -/
def State.classReady (s : State) (l k : Nat) : Bool :=
  ((s.link l).forward.any fun f => f.cls == k) || (s.nextMsg l k).isSome

/-- A data frame put on the link: kept for retry, counted, its SEQ and credit used (R379, R380). -/
def State.sendData (s : State) (l : Nat) (cls src dest : Nat) (payload : List Byte) : State :=
  let x := s.link l
  let f : TxFrame := { seq := x.txSeq, cls := cls, src := src, dest := dest, payload := bytesAt payload 0 256 }
  (s.onCore fun c => (c.bump (Reg.qlTxBytes l) 256).emit (s.frameOut l (frameHdr x.txSeq cls 0 src dest) f.payload)).putLink l
    { x with txSeq := (x.txSeq + 1) % 4096, retry := x.retry ++ [f], sent := x.sent.set cls ((x.sent.getD cls 0 + 1) % 2 ^ 16) }

/-- The next frame of a class: a frame to forward, else the next 256 bytes of the class's first message, the rest of which stays on
this link. -/
def State.sendClass (s : State) (l k : Nat) : State :=
  match (s.link l).forward.find? fun f => f.cls == k with
  | some f => (s.putLink l { s.link l with forward := (s.link l).forward.erase f }).sendData l k f.src f.dest f.payload
  | none =>
    match s.nextMsg l k with
    | none => s
    | some m =>
      let rest := m.bytes.drop 256
      let out := if rest.isEmpty then s.core.msgOut.erase m
        else (s.core.msgOut.takeWhile (· != m)) ++ [{ m with bytes := rest, link := l }] ++ ((s.core.msgOut.dropWhile (· != m)).drop 1)
      ({ s with core := { (if m.link = 12 then s.core.groupLeft m else s.core) with msgOut := out } } : State).sendData l k m.src m.dest (m.bytes.take 256)

/-- Whether a control frame waits for the next frame slot (R378): a NAK is owed, or 32 frames have been freed since the last one. -/
def Link.controlDue (x : Link) : Bool := x.nakOwed || decide (32 ≤ x.freedSince)

/-- A control frame sent (R376): the last SEQ accepted, a NAK that is owed, the frames freed, the own number, the handovers. -/
def State.sendControl (s : State) (l : Nat) : State :=
  let x := s.link l
  let shadow := match x.tx with
    | some h => if h.switched then 0 else 1 + 2 * h.pos
    | none => 0
  let ready := match x.rxReady with
    | some p => 8 + 16 * p
    | none => 0
  let body := leBytes 2 ((x.rxSeq + 4095) % 4096 + 2 ^ 15 * x.nakOwed.toNat) ++ (List.range 5).flatMap (fun k => leBytes 2 (x.freed.getD k 0)) ++
    leBytes 2 (s.core.moduleNo + 2 ^ 15 * s.core.isSet.toNat) ++ leBytes 1 (shadow + ready)
  (s.onCore fun c => c.emit (s.frameOut l (frameHdr 0 0 1 s.core.moduleNo 0) (bytesAt body 0 256))).putLink l
    { x with nakOwed := false, freedSince := 0 }

/-- FRAME_SLOT (R378 to R380): a control frame that is due first, then a frame of a replay; else the schedule picks a class that has a
frame and credit, while fewer than 2,048 frames are unacknowledged. The schedule moves on by one slot whichever class took it, and a new
QL_SCHED starts with a round. -/
def State.frameSlot (s : State) (l : Nat) : State :=
  if s.core.linkUp l = false then s
  else if (s.link l).controlDue then s.sendControl l
  else
    let x := s.link l
    match x.replay with
    | f :: r =>
      (s.onCore fun c => (c.bump (Reg.qlTxBytes l) 256).emit (s.frameOut l (frameHdr f.seq f.cls 0 f.src f.dest) f.payload)).putLink l
        { x with replay := r }
    | [] =>
      let sched := if x.slot = 0 then s.core.rd (Reg.qlSched l) else x.sched
      let s1 := s.putLink l { x with sched := sched }
      if 2048 ≤ x.retry.length then s1
      else
        match (List.range 16).find? fun i =>
          s.classReady l (slotClass sched (x.slot + i)) && x.hasCredit (slotClass sched (x.slot + i)) with
        | none => s1
        | some i =>
          let s2 := s1.sendClass l (slotClass sched (x.slot + i))
          s2.putLink l { s2.link l with slot := (x.slot + 1) % 16 }

/-- See `State.frameSlot`. -/
def execFrameSlot (l : Nat) (s : State) : Host.Outcome State Fault Refusal := s.whenAlive <| .next (s.frameSlot l)

/-- A replay from ACK + 1 (R380). -/
def State.replayLink (s : State) (l : Nat) : State :=
  let x := s.link l
  (s.onCore fun c => c.bump (Reg.qlReplays l) 1).putLink l { x with replay := x.retry, stalls := x.stalls + 1 }

/-- QL_REPLAY_TIMEOUT (R380): no progress while frames are unacknowledged. -/
def execQlReplayTimeout (l : Nat) (s : State) : Host.Outcome State Fault Refusal :=
  s.whenAlive <| .next (if s.core.linkUp l && !(s.link l).retry.isEmpty then s.replayLink l else s)

/-! ## Receiving (R376, R378, R380, R387) -/

/-- A payload joined to its stream, and the messages that are now whole (R376). -/
def State.joinStream (s : State) (l cls src dest : Nat) (payload : List Byte) : State × List Msg :=
  let x := s.link l
  let same := fun (t : Stream) => t.cls == cls && t.src == src && t.dest == dest
  let buf := ((x.streams.find? same).map (·.buf)).getD [] ++ payload
  let r := splitMsgs (buf.length + 1) buf
  let left := x.streams.filter fun t => !(same t)
  (s.putLink l { x with streams := if r.2.isEmpty then left else left ++ [{ cls := cls, src := src, dest := dest, buf := r.2 }] },
   r.1.map fun b => { src := src, dest := dest, cls := cls, link := l, tick := s.core.now.toNat, bytes := b })

/-- A payload for this module: whole messages go to the received messages (R376). -/
def State.deliverFrame (s : State) (l : Nat) (f : TxFrame) : State :=
  let r := s.joinStream l f.cls f.src f.dest f.payload
  { r.1 with net := { r.1.net with rxMsgs := r.1.net.rxMsgs ++ r.2 } }

/-- A frame for another module forwarded by DEST's entry, or dropped and counted in QL_ROUTE_DROP (R387). Behind a port there are no
frames: the messages go on through the KIND 4 context as they come whole. DESIGN CHOICE (log entry 76): class H whose entry names no
link in HATBOX_LINKS (R377), and an entry of 15, are dropped. -/
def State.forwardFrame (s : State) (l : Nat) (f : TxFrame) : State :=
  let h := s.core.hop f.dest
  if h = 0 ∨ h = l + 1 ∨ h = 15 ∨ (f.cls = 4 ∧ s.hatboxLink (h - 1) = false) then s.onCore fun c => c.bump (Reg.qlRouteDrop l) 1
  else if 12 < h then
    let r := s.joinStream l f.cls f.src f.dest f.payload
    { r.1 with core := { r.1.core with msgOut := r.1.core.msgOut ++ r.2.map fun m => { m with link := 12, tick := 0 } } }
  else s.putLink (h - 1) { s.link (h - 1) with forward := (s.link (h - 1)).forward ++ [f] }

/-- A data frame accepted (R380): its buffer counts as freed once it has been delivered or handed on. -/
def State.acceptFrame (s : State) (l : Nat) (f : TxFrame) : State :=
  let x := s.link l
  let s1 := s.putLink l { x with rxSeq := (x.rxSeq + 1) % 4096, nakSent := false,
                                 freed := x.freed.set f.cls ((x.freed.getD f.cls 0 + 1) % 2 ^ 16), freedSince := x.freedSince + 1 }
  let s2 := s1.onCore fun c => c.bump (Reg.qlRxBytes l) 256
  if s.core.isSet ∧ f.dest = s.core.moduleNo then s2.deliverFrame l f else s2.forwardFrame l f

/-- QUIRAS_DATA_FRAME (R380): a frame with the expected SEQ is accepted; a bad or out-of-order one draws a NAK. -/
def execQuirasDataFrame (l : Nat) (f : QFrame) (s : State) : Host.Outcome State Fault Refusal :=
  s.whenAlive <| .next
    (if s.core.linkUp l = false then s
     else
      let s0 := (s.rxSwitchNow l).onCore fun c => c.countFec l f
      if frameBad f then s0.badFrame l
      else if frameKind f ≠ 0 then s0
      else if bitsOf f.hdr 11 0 ≠ (s.link l).rxSeq then s0.putLink l (s0.link l).oweNak
      else s0.acceptFrame l { seq := bitsOf f.hdr 11 0, cls := bitsOf f.hdr 14 12, src := bitsOf f.hdr 28 17,
                              dest := bitsOf f.hdr 40 29, payload := bytesAt f.payload 0 256 })

/-- Frames up to an ACK taken out of the retry buffer (R380). -/
def Link.ackTo (x : Link) (ack : Nat) : Link :=
  match x.retry.findIdx? fun f => f.seq == ack % 4096 with
  | none => x
  | some i => { x with retry := x.retry.drop (i + 1), replay := x.replay.filter fun f => !((x.retry.take (i + 1)).contains f),
                       stalls := 0 }

/-- The fields of a control frame taken in (R376, R378): ACK, credits, PEER, the shadowed position. -/
def State.controlIn (s : State) (l : Nat) (p : List Byte) : State :=
  let x := (s.link l).ackTo (leField p 0 2 % 4096)
  let peer := leField p 12 2
  let b := leField p 14 1
  let shadow := if bitOf b 0 then some (bitsOf b 2 1) else none
  let ready := if bitOf b 0 then (if x.rxReady = shadow ∨ Config.freeBit s.core.freeCtr = true then shadow else x.rxReady) else none
  let s1 := s.putLink l { x with creditIn := (List.range 5).map fun k => leField p (2 + 2 * k) 2, rxShadow := shadow, rxReady := ready }
  let c1 := s1.core.fresh.2.setBit (Reg.qlStatus l) 3 (bitOf b 0)
  { s1 with core := if bitOf peer 15 then (c1.setFld (Reg.qlStatus l) 27 16 peer).setBit (Reg.qlStatus l) 28 true else c1 }

/-- CONTROL_FRAME (R378, R380, R383): a NAK starts a replay, READY the markers of a handover. -/
def execControlFrame (l : Nat) (f : QFrame) (s : State) : Host.Outcome State Fault Refusal :=
  s.whenAlive <| .next
    (if s.core.linkUp l = false then s
     else
      let s0 := s.onCore fun c => c.countFec l f
      if frameBad f then s0.badFrame l
      else if frameKind f ≠ 1 then s0
      else
        let s1 := s0.controlIn l f.payload
        let s2 := if bitOf (leField f.payload 0 2) 15 then s1.replayLink l else s1
        let b := leField f.payload 14 1
        if bitOf b 3 then s2.handoverReady l (bitsOf b 5 4) else s2)

/-- CONTROL_FRAME_TIMER (R376, R378): a control frame is sent. -/
def execControlFrameTimer (l : Nat) (s : State) : Host.Outcome State Fault Refusal :=
  s.whenAlive <| .next (if s.core.linkUp l = false then s else s.sendControl l)

/-! ## The echo (R385) -/

/-- A write of 1 to QL_CTRL.ECHO: a run of 64 exchanges begins, and ECHO reads 1 until it ends. -/
def State.echoStart (s : State) (l : Nat) : State :=
  if 12 ≤ l ∨ s.core.bit (Reg.qlCtrl l) 2 = true ∨ s.core.linkUp l = false then s
  else (s.onCore fun c => c.setBit (Reg.qlCtrl l) 2 true).putLink l { s.link l with echoLeft := 64, echoes := [] }

/-- QL_ECHO. -/
def execQlEcho (l : Nat) (s : State) : Host.Outcome State Fault Refusal := s.clocked <| .next (s.echoStart l)

/-- An exchange put behind those of at most its RTT. -/
def echoInsert (e : Nat × Int) : List (Nat × Int) → List (Nat × Int)
  | [] => [e]
  | f :: r => if f.1 ≤ e.1 then f :: echoInsert e r else e :: f :: r

/-- The averages over the 8 exchanges with the smallest RTT, in 1/16 ticks: QL_ECHO_RTT and QL_ECHO_OFFSET; fewer than 8 leave both. -/
def State.echoEnd (s : State) (l : Nat) : State :=
  let best := ((s.link l).echoes.foldl (fun acc e => echoInsert e acc) []).take 8
  let c1 := s.core.setBit (Reg.qlCtrl l) 2 false
  if best.length < 8 then { s with core := c1 }
  else
    let rtt := 2 * (best.map fun e => e.1).sum
    let off := ((best.map fun e => e.2).sum % ((2 ^ 32 : Nat) : Int)).toNat
    { s with core := (c1.setFld (Reg.qlEchoRtt l) 31 0 rtt).setFld (Reg.qlEchoOffset l) 31 0 off }

/-- ECHO_EXCHANGE: the next exchange is sent; after the 64th the averages are stored. -/
def execEchoExchange (l : Nat) (s : State) : Host.Outcome State Fault Refusal :=
  s.whenAlive <| .next
    (if s.core.linkUp l = false ∨ s.core.bit (Reg.qlCtrl l) 2 = false then s
     else if (s.link l).echoLeft = 0 then s.echoEnd l
     else
      (s.onCore fun c => c.emit (s.frameOut l (frameHdr 0 0 3 c.moduleNo 0) (bytesAt (leBytes 8 c.now.toNat) 0 256))).putLink l
        { s.link l with echoLeft := (s.link l).echoLeft - 1 })

/-- ECHO_FRAME: a request is answered; a reply gives RTT and twice the offset of one exchange. -/
def execEchoFrame (l : Nat) (f : QFrame) (s : State) : Host.Outcome State Fault Refusal :=
  s.whenAlive <| .next
    (if s.core.linkUp l = false then s
     else
      let s0 := s.onCore fun c => c.countFec l f
      if frameBad f then s0.badFrame l
      else if frameKind f ≠ 3 then s0
      else
        let t := fun (o : Nat) => ((leField f.payload o 8 : Nat) : Int)
        let now := s.core.now.toNat
        if bitOf (leField f.payload 24 1) 0 then
          let rtt := ((now : Int) - t 0) - (t 16 - t 8)
          let off := (t 8 - t 0) - ((now : Int) - t 16)
          if s.core.bit (Reg.qlCtrl l) 2 then s0.putLink l { s0.link l with echoes := (s0.link l).echoes ++ [(rtt.toNat, off)] } else s0
        else
          s0.onCore fun c => c.emit (s.frameOut l (frameHdr 0 0 3 c.moduleNo 0)
            (bytesAt (bytesAt f.payload 0 8 ++ leBytes 8 now ++ leBytes 8 now ++ [1]) 0 256)))

end Sys2Proof.Machine
end

