-- ==== Sys2Proof/Machine/Access.lean ====
section
/-! DEFINITION. Loads and stores of control space (R12 to R16, R79, R476, R524): what every register reads and what a store to it
does, whoever makes the access. -/

namespace Sys2Proof.Machine

/-! ## Loads -/

/-- Whether a descriptor's shares have been handed on (R250). -/
def State.handedOn (s : State) (id : Nat) : Bool := (s.desc? id).any fun d => d.phase == .ready || d.phase == .running

/-- The state of an array as MITT_STATUS shows it (R138): DRAINING while a tile of sums may drain, QUEUED the shares handed on and not
started. Whether a shadow load runs at this moment, while a share has passes left, is a time that the model does not hold: free. -/
def State.mittStatus (s : State) (t : Nat) : Nat :=
  let mine := s.work.shares.filter fun h => h.tile == t
  let tiles := mine.flatMap (·.acc)
  (mine.any (·.started)).toNat + 2 * (s.arrayOf t).tag.toNat + 4 * (s.drainable t).isSome.toNat +
    8 * ((s.inArray t).isSome && Config.freeBit s.core.freeCtr).toNat + 2 ^ 8 * min 32 tiles.length +
    2 ^ 16 * min 15 (mine.filter fun h => !h.started && s.handedOn h.desc).length

/-- The state of a Cuff as CUFF_STATUS shows it (R172). -/
def State.cuffStatus (s : State) (t : Nat) : Nat :=
  let mine := s.work.jobs.filter fun j => j.tile == t
  let run := mine.find? (·.started)
  let d := run.bind fun j => s.desc? j.desc
  let b := s.bufsOf t
  run.isSome.toNat + 2 * (run.isSome && b.full0).toNat + 4 * (run.isSome && b.full1).toNat + 8 * (d.any (·.pastFirst)).toNat +
    2 ^ 8 * ((d.map (·.opcode)).getD 0 % 256) + 2 ^ 16 * min 15 (mine.filter fun j => !j.started && s.handedOn j.desc).length

/-- The state of a Glove as GLOVE_STATUS shows it (R200). Whether the make-up pass of a gather that has begun under PREDICT is what
runs is free. -/
def State.gloveStatus (s : State) (t : Nat) : Nat :=
  let run := s.gloveRun? t
  let d := run.bind fun g => s.desc? g.desc
  let sorting := (s.chainAt t).any fun c => c.2 == 2
  let waiting := s.work.descs.filter fun d => d.tile == t && d.engine == 2 && (d.phase == .ready || d.phase == .dumping)
  run.isSome.toNat + 2 * sorting.toNat + 4 * ((s.chainAt t).any (fun c => c.2 == 1 && c.1.flag 6) && Config.freeBit s.core.freeCtr).toNat +
    2 ^ 8 * ((d.map (·.opcode)).getD 0 % 256) + 2 ^ 16 * min 15 waiting.length +
    2 ^ 20 * min 2 ((s.work.ra.filter fun b => b.tile == t).map (·.desc)).eraseDups.length

/-- HB_PENDING (R435): the bytes of pages not yet acknowledged. -/
def State.hbPendingBytes (s : State) : Nat :=
  if s.core.hbBusy then 0x4000 * (s.core.pend.length + s.core.pageOut.length) else 0

/-- A register whose value, or some of whose bits, the rest of the state gives. -/
def State.shown (s : State) (b : Blk) (o : Nat) (w : Word) : Word :=
  match b, o with
  | .tile t, 0x2000 => BitVec.ofNat 64 (s.mittStatus t)
  | .tile t, 0x3000 => BitVec.ofNat 64 (s.cuffStatus t)
  | .tile t, 0x4000 => BitVec.ofNat 64 (s.gloveStatus t)
  | .obs, 0x50 => s.core.now
  | .rst, 0x28 => BitVec.ofNat 64 s.blkIdle.toNat
  | .band, 0x8 => BitVec.ofNat 64 (s.integ.boundaryWait.toNat + 2 * min 255 s.core.enabledGroups.length)
  | .integ, 0x8 => setF w 4 4 (decide (s.core.fld Reg.detParam 51 36 ≤ s.core.fld Reg.detAvg 47 32)).toNat
  | .integ, 0x218 => BitVec.ofNat 64 s.hbPendingBytes
  | .integ, 0x418 => setF w 31 24 (min 255 s.core.dueCount)
  | .integ, 0x410 => 0
  | _, _ => w

/-- Whether an offset of a block lies in one of the ranges [lo, hi], 8 bytes apart. -/
def inRanges (o : Nat) (rs : List (Nat × Nat)) : Bool := rs.any fun r => decide (r.1 ≤ o) && decide (o ≤ r.2)

/-- The bits of a register that are counters, which a Doff freeze holds (R474, R476). NUM_CHECK_WORST counts nothing. -/
def counterBits (b : Blk) (o : Nat) : Nat :=
  let all := 2 ^ 64 - 1
  let rs : List (Nat × Nat) := match b with
    | .tile _ => [(0x808, 0x840), (0x2010, 0x2070), (0x3010, 0x3070), (0x4060, 0x40D8), (0x4110, 0x4158), (0x5028, 0x5060), (0x6008, 0x6080)]
    | .glob => [(0x10, 0x20), (0x338, 0x378), (0x388, 0x388)]
    | .pat => [(0x30, 0x30), (0x88, 0x88)]
    | .clk => [(0x200, 0x2F8), (0x400, 0x478)]
    | .obs => [(0x40, 0x48), (0x60, 0x98), (0x198, 0x1A8)]
    | .sec => [(0x440, 0x448)]
    | .band => [(0x28, 0x40)]
    | .add => [(0x8, 0x48)]
    | .addCh _ => [(0x8, 0x18)]
    | .red => [(0x18, 0x60)]
    | .integ => [(0x40, 0x50), (0x150, 0x150), (0x320, 0x328), (0x420, 0x438)]
    | .ep _ => [(0x50, 0x90)]
    | .ql _ => [(0x50, 0x90)]
    | .qr => [(0x10, 0x18)]
    | .queue _ => [(0x30, 0x30)]
    | .hbm => [(0x10, 0x28)]
    | .ddr => [(0x18, 0x30)]
    | .pc _ => []
    | .rst => []
    | .none => []
  if inRanges o rs then all
  else match b with
    | .hbm => if 0x1000 ≤ o ∧ o < 0x1000 + 384 * 0x10 ∧ o % 0x10 = 0 then 0xFFFF_FFFF_0000 else 0
    | .ddr => if 0x1000 ≤ o ∧ o < 0x1000 + 16 * 0x10 ∧ o % 0x10 = 0 then 0xFFFF_FFFF_0000 else 0
    | _ => 0

/-- A register of the Pattern and boot block is 32 bits wide, but for the hashes, whose 32-bit registers stand close (R71). -/
def patNarrow (o : Nat) : Bool := !(inRanges o [(0x40, 0x78), (0x90, 0xC8)])

/-- What reads of counters return in place of the live counts: the values at T_fire while a freeze holds, but for a block that has not yet
latched, and still in the tick of its THAW (R476, R479). -/
def State.snapshot (s : State) (off : Nat) : Option (List (Nat × Word)) :=
  match s.core.frozen, s.pwr.doffThawed with
  | some l, _ => if s.pwr.lateBlocks.contains (off / 0x1000) then none else some l
  | none, some (t, l) => if t = s.core.now.toNat then some l else none
  | none, none => none

/-- The 64 bits that a load finds at an 8-byte aligned offset: while a freeze holds, its counters as they were at T_fire. -/
def State.readReg (s : State) (off : Nat) : Word :=
  let l := locate s.core.active off
  let live := s.shown l.1 l.2 (s.core.rd off)
  let v := match s.snapshot off with
    | none => live
    | some snap =>
      let m : Word := BitVec.ofNat 64 (counterBits l.1 l.2)
      (live &&& ~~~m) ||| (sGet snap off (resetWord off) &&& m)
  match l.1 with
  | .none => 0
  | .pat => if patNarrow l.2 then v &&& 0xFFFF_FFFF else v
  | _ => v

/-- A load of 4 or 8 bytes of control space. -/
def State.ctlLoad (s : State) (off size : Nat) : List Byte :=
  leBytes size ((s.readReg (off / 8 * 8)).toNat / 2 ^ (8 * (off % 8)))

/-! ## Stores -/

/-- A store as a block sees it: the register's word with the stored bytes in it, and the bits that the store reaches. -/
structure Store where
  /-- stored bits where the store reaches, RW bits as they were elsewhere, other bits 0 -/
  word : Word
  /-- whether the low half is reached, where the actions of WO registers stand -/
  low : Bool
  deriving DecidableEq, Repr

/-- A word stored by its access codes (R12): RW bits take it, its ones clear W1C bits, the other bits keep their values. -/
def Core.storeCodes (c : Core) (off : Nat) (v : Word) : Core :=
  let l := locate c.active off
  let rw : Word := BitVec.ofNat 64 (masks l.1 l.2).1
  let w1c : Word := BitVec.ofNat 64 (masks l.1 l.2).2
  c.wr off (((c.rd off &&& ~~~rw) ||| (v &&& rw)) &&& ~~~(v &&& w1c))

/-- See `Core.storeCodes`. -/
def State.plain (s : State) (off : Nat) (v : Word) : State := s.onCore fun c => c.storeCodes off v

/-- What a command leaves. -/
def State.after (s : State) (f : State → Host.Outcome State Fault Refusal) : State :=
  match f s with
  | .next t => t
  | _ => s

/-- A command that a 1 in bit `i` of a stored word starts. -/
def State.starts (s : State) (v : Word) (i : Nat) (f : State → Host.Outcome State Fault Refusal) : State :=
  if v.getLsbD i then s.after f else s

/-- A register that takes its RW bits, with a CNT_CLEAR in bit `i`. -/
def State.plainClear (s : State) (off : Nat) (v : Word) (i : Nat) (f : State → Host.Outcome State Fault Refusal) : State :=
  (s.plain off v).starts v i f

/-- A store to the control window of tile `t` (R75, R79, R138, R172, R200, R229, R252, R308, R489). -/
def State.tileStore (s : State) (t off o : Nat) (w : Store) (bytes : List Byte) : State :=
  if o < 0x800 then
    let n := o / 0x20
    match o % 0x20 with
    | 0x00 => (s.starts w.word 0 (execCtxStart t n)).starts w.word 1 (execCtxStop t n)
    | 0x08 => if s.core.ctxState t n = 0 ∨ s.core.ctxState t n = 3 then s.plain off w.word else s
    | _ => s.plain off w.word
  else if 0x1000 ≤ o ∧ o < 0x2000 then s.submitStore t ((o - 0x1000) / 0x40) (o % 0x40) bytes none
  else
    match o with
    | 0x800 => s.starts w.word 0 (execPalmCntClear t)
    | 0x2008 => s.plainClear off w.word 1 (execMittCntClear t)
    | 0x3008 => s.starts w.word 0 (execCuffCntClear t)
    | 0x4008 => s.plainClear off w.word 0 (execGloveCntClear t)
    | 0x4108 => s.starts w.word 0 (execExpCntClear t)
    | 0x5008 => s.starts w.word 0 (execSizerCntClear t)
    | 0x5018 => if 128 < getF w.word 6 0 + getF w.word 15 8 then s else s.plain off w.word
    | 0x6000 => s.starts w.word 0 (execTcntCntClear t)
    | _ => s.plain off w.word

/-- A store to the global block (R108, R230, R282). PLACE_CTRL's REQ acts before its CANCEL. -/
def State.globStore (s : State) (off o : Nat) (w : Store) : State :=
  if 0x100 ≤ o ∧ o < 0x180 then s.genWrite ((o - 0x100) / 8) w.word
  else
    match o with
    | 0x008 => s.moduleWrite w.word
    | 0x200 => s.placeWrite w.word
    | 0x208 => (s.starts w.word 0 execPlaceEpochReq).starts w.word 1 execPlaceEpochCancel
    | 0x300 => s.plainClear off w.word 7 execNumCntClear
    | 0x310 => s.fbBaseWrite w.word
    | _ => s.plain off w.word

/-- A store to the Pattern and boot block (R71): CANCEL beside REQ performs the CANCEL alone (R70). -/
def State.patStore (s : State) (off o : Nat) (w : Store) : State :=
  if o = 0x20 then
    let s1 := s.plain off w.word
    if w.word.getLsbD 2 then (if w.word.getLsbD 0 then s.epochCancel else s1.epochCancel)
    else if w.word.getLsbD 0 then s1.epochReq (getF w.word 1 1)
    else s1
  else s.plain off w.word

/-- A store to SLEEP_CTRL (R470, R472): STATE of 1 to 4 requests entry, another value is kept; WAKE wakes. -/
def State.sleepStore (s : State) (w : Store) : State :=
  let k := getF w.word 2 0
  let s1 :=
    if w.low = false ∨ s.core.sleepState ≠ 0 ∨ s.pwr.sleepPending.isSome = true then s
    else if 1 ≤ k ∧ k ≤ 4 then s.sleepRequest k
    else s.onCore fun c => c.setFld Reg.sleepCtrl 2 0 k
  if w.word.getLsbD 3 then s1.wake else s1

/-- A store to the clocks and power block (R470). -/
def State.clkStore (s : State) (off o : Nat) (w : Store) : State :=
  match o with
  | 0x008 => s.after (execPlTargetWrite w.word)
  | 0x1F8 => s.plainClear off w.word 0 execDroopCntClear
  | 0x300 => s.sleepStore w
  | 0x318 => s.padRelease w.word
  | 0x548 => s.starts w.word 0 execPwrCntClear
  | _ => s.plain off w.word

/-- The block that RST_BLOCK names reset (R468); another CLASS is ignored. -/
def State.resetBlock (s : State) : State :=
  let i := s.core.fld Reg.rstBlock 15 4
  match s.core.fld Reg.rstBlock 3 0 with
  | 0 => s.after (execBlockResetPalm i)
  | 1 => s.after (execBlockResetMitt i)
  | 2 => s.after (execBlockResetCuff i)
  | 3 => s.after (execBlockResetGlove i)
  | 4 => s.after (execBlockResetSizer i)
  | 5 => s.after (execBlockResetCounters i)
  | 6 => s.after (execBlockResetEthPort i)
  | 7 => s.after (execBlockResetQuirasLink i)
  | _ => s

/-- A store to the reset block (R471). -/
def State.rstStore (s : State) (off o : Nat) (w : Store) : State :=
  match o with
  | 0x10 => s.starts w.word 0 execRstWarm
  | 0x20 => if w.word.getLsbD 16 then (s.plain off w.word).resetBlock else s.plain off w.word
  | _ => s.plain off w.word

/-- A store to the security block (R502, R503). -/
def State.secStore (s : State) (off o : Nat) (w : Store) : State :=
  if o = 0x10 then s.keyCommand w.word
  else if 0x40 ≤ o ∧ o < 0x80 ∧ s.core.bit Reg.secStatus 8 = true then s
  else s.plain off w.word

/-- A store to the observability block (R488). -/
def State.obsStore (s : State) (off o : Nat) (w : Store) : State :=
  match o with
  | 0x00 => ((s.plain off w.word).starts w.word 0 execDoffFire).starts w.word 3 execDoffThaw
  | 0x58 => s.starts w.word 0 execObsCntClear
  | 0x188 => s.dumpNextWrite w.word.toNat
  | _ => s.plain off w.word

/-- A store to the Band block (R309, R311). -/
def State.bandStore (s : State) (off o : Nat) (w : Store) : State :=
  if 0x1000 ≤ o ∧ o < 0x9000 then
    let g := (o - 0x1000) / 0x80
    let r := (o - 0x1000) % 0x80 / 8
    if r = 5 ∨ r = 6 then s.restoreWrite g r w.word else s.scheduleWrite g r w.word
  else
    match o with
    | 0x00 => (s.starts w.word 0 execBandAdvance).starts w.word 1 execBandCntClear
    | 0x10 => s.stepWrite w.word
    | 0x20 =>
      let h := getF w.word 4 0
      if h = 0 ∨ (10 ≤ h ∧ h ≤ 20) then s.plain off w.word else s
    | _ => s.plain off w.word

/-- A store to the adder block (R341, R344): CLOSE beside ABORT performs the ABORT; a window's addresses are taken while it is
idle. -/
def State.addStore (s : State) (off o : Nat) (w : Store) : State :=
  if 0x100 ≤ o ∧ o < 0x500 then
    let n := (o - 0x100) / 0x40
    match (o - 0x100) % 0x40 with
    | 0x20 =>
      let s1 := s.starts w.word 0 (execWinOpen n)
      if w.word.getLsbD 2 then s1.after (execWinAbort n) else s1.starts w.word 1 (execWinClose n)
    | 0x28 => s.plain off w.word
    | _ => if s.core.winState n = 0 then s.plain off w.word else s
  else if o = 0 then s.starts w.word 0 execAddCntClear
  else s

/-- A store to HB_CTRL (R428, R435): ABORT performs no TAKE or RESTORE; TAKE beside RESTORE is ignored whole. -/
def State.hbStore (s : State) (off : Nat) (v : Word) : State :=
  if v.getLsbD 1 then ((s.plain off v).after execHbAbort).starts v 4 execHbCntClear
  else if v.getLsbD 0 && v.getLsbD 2 then s
  else (((s.plain off v).starts v 0 execHbTake).starts v 2 execHbRestore).starts v 4 execHbCntClear

/-- A store to the integrity block (R435): the actions of DET_CTRL in the order of their bits. -/
def State.integStore (s : State) (off o : Nat) (w : Store) : State :=
  if 0x220 ≤ o ∧ o < 0x320 then s.hbRegWrite o w.word
  else
    match o with
    | 0x000 =>
      (((((s.plain off w.word).starts w.word 0 execDetCheck).starts w.word 1 execDetHold).starts w.word 2 execDetRelease).starts w.word 4
        execDetArmReset).starts w.word 5 execDetCntClear
    | 0x100 => s.plainClear off w.word 2 execJnlCntClear
    | 0x200 => s.hbStore off w.word
    | 0x410 => if w.low then s.makeDue (getF w.word 9 0) else s
    | _ => s.plain off w.word

/-- A store to a link's block (R405): clearing EN takes the link DOWN; a credit division above 128 units is ignored. -/
def State.qlStore (s : State) (l off o : Nat) (w : Store) : State :=
  match o with
  | 0x00 =>
    let up := s.core.fld (Reg.qlStatus l) 1 0 != 0
    let s1 := s.plain off w.word
    let s2 := if up && !(w.word.getLsbD 0) then s1.linkDown l else s1
    ((s2.starts w.word 1 (execQlRetrain l)).starts w.word 2 (execQlEcho l)).starts w.word 3 (execQlCntClear l)
  | 0x20 =>
    let s1 := s.plain off w.word
    if w.word.getLsbD 2 then s1.handoverGo l (getF w.word 1 0) else s1
  | 0x30 => if 128 < ((List.range 5).map fun k => getF w.word (8 * k + 6) (8 * k)).sum then s else s.plain off w.word
  | _ => s.plain off w.word

/-- A store to a queue's window (R407). -/
def State.queueStore (s : State) (q off o : Nat) (w : Store) : State :=
  match o with
  | 0x00 => s.qCfgWrite q w.word
  | 0x08 => if s.core.qEn q then s else s.plain off w.word
  | 0x10 => s.headWrite q w.word
  | 0x20 => if w.low then s.wake.doorbell q w.word else s
  | _ => s.plain off w.word

/-- A store of `size` bytes, 4 or 8 and naturally aligned (R79); an offset that no block defines ignores it (R16). -/
def State.writeReg (s : State) (off size : Nat) (v : Word) : State :=
  let a := off / 8 * 8
  let l := locate s.core.active a
  let hit : Word := if size = 8 then BitVec.allOnes 64 else if off % 8 = 0 then 0xFFFF_FFFF else 0xFFFF_FFFF_0000_0000
  let put : Word := if off % 8 = 0 then v else v <<< 32
  let w : Store := { word := (s.core.rd a &&& BitVec.ofNat 64 (masks l.1 l.2).1 &&& ~~~hit) ||| (put &&& hit),
                     low := decide (off % 8 = 0) }
  if (size ≠ 4 ∧ size ≠ 8) ∨ off % size ≠ 0 ∨ 0x1000_0000 ≤ off then s
  else
    match l.1 with
    | .none => s
    | .addCh _ => s
    | .tile t => s.tileStore t a l.2 w (leBytes size v.toNat)
    | .glob => s.globStore a l.2 w
    | .pat => s.patStore a l.2 w
    | .clk => s.clkStore a l.2 w
    | .rst => s.rstStore a l.2 w
    | .sec => s.secStore a l.2 w
    | .obs => s.obsStore a l.2 w
    | .band => s.bandStore a l.2 w
    | .add => s.addStore a l.2 w
    | .red =>
      if l.2 = 0 then s.starts w.word 0 execRedCntClear
      else if 0x400 ≤ l.2 ∧ l.2 < 0x600 then s.fillCntWrite ((l.2 - 0x400) / 8) w.word
      else s.plain a w.word
    | .integ => s.integStore a l.2 w
    | .ep p =>
      if l.2 = 0 then s.epCtrlWrite p w.word
      else if l.2 = 0x48 then s.starts w.word 0 (execPtpNext p)
      else s.plain a w.word
    | .pc x => if l.2 = 0 then s.pcCtrlWrite x w.word else if s.core.pcLive x then s else s.plain a w.word
    | .ql k => s.qlStore k a l.2 w
    | .qr => if l.2 = 0 then s.starts w.word 0 execQrCntClear else s.plain a w.word
    | .queue q => s.queueStore q a l.2 w
    | .hbm => if l.2 = 8 then s.plainClear a w.word 0 execHbmCntClear else s.plain a w.word
    | .ddr =>
      if l.2 = 8 then s.plainClear a w.word 0 execDdrCntClear
      else if l.2 = 0x40 then s.onCore fun c => c.xlateIn w.word
      else s.plain a w.word

/-- REGISTER_WRITE: a store to any register, with the effect of the row that describes it where it has one. -/
def execRegisterWrite (off size : Nat) (v : Word) (s : State) : Host.Outcome State Fault Refusal :=
  s.clocked <| .next (s.writeReg off size v).takeWork.settle

end Sys2Proof.Machine
end

