-- ==== Sys2Proof/Machine/Manage.lean ====
section
/-! DEFINITION. Entries that arrive in command datagrams (R371) and the management queue (R399 to R402): its claim, its commands, the
calibration set (R60 to R62) and the attestation report (R500, R501). -/

namespace Sys2Proof.Machine

/-! ## Replies and the claim (R400, R401) -/

/-- Whether two senders are one: their IP addresses and UDP ports (R400). -/
def NetAddr.same (a b : NetAddr) : Bool := a.ip == b.ip && a.v6 == b.v6 && a.udp == b.udp

/-- A request's OP, ARG0, ARG1 and DATA. -/
def MgmtEntry.op (e : MgmtEntry) : Nat := leField e.bytes 0 1

/-- See `MgmtEntry.op`. -/
def MgmtEntry.arg0 (e : MgmtEntry) : Nat := leField e.bytes 4 4

/-- See `MgmtEntry.op`. -/
def MgmtEntry.arg1 (e : MgmtEntry) : Nat := leField e.bytes 8 8

/-- See `MgmtEntry.op`. -/
def MgmtEntry.data (e : MgmtEntry) : List Byte := bytesAt e.bytes 16 48

/-- The datagram of one reply entry; SEQ and ACKSEQ are the request's SEQ. -/
def MgmtEntry.answer (e : MgmtEntry) (result arg0 value : Nat) (data : List Byte) : List Byte :=
  datagram 1 4095 e.seq e.seq 16382 1 0
    (leBytes 1 e.op ++ leBytes 1 result ++ bytesAt e.bytes 2 2 ++ leBytes 4 arg0 ++ leBytes 8 value ++ bytesAt data 0 48)

/-- A reply sent to its requester by EP0, and kept when it answers the datagram accepted last from the claimant. -/
def State.reply (s : State) (e : MgmtEntry) (result arg0 value : Nat) (data : List Byte) : State :=
  let d := e.answer result arg0 value data
  let keep := fun (c : Claim) =>
    if c.who.same e.from_ ∧ c.next = (e.seq + 1) % 2 ^ 32 then { c with replies := c.replies ++ [d] } else c
  { s with core := s.core.sendUdp 0 e.from_ d, net := { s.net with claim := s.net.claim.map keep } }

/-- A reply of a RESULT alone (R402). -/
def State.result (s : State) (e : MgmtEntry) (code : Nat) : State := s.reply e code e.arg0 0 []

/-- Whether an entry's OP is one of R401. -/
def MgmtEntry.listed (e : MgmtEntry) : Bool := decide (1 ≤ e.op) && decide (e.op ≤ 0x0B)

/-- Management entries from the first that waits for its row: those before it, whose OP is none of R401, are answered BAD_OP in their turn. -/
def State.mgmtSkip : List MgmtEntry → State → State
  | [], s => { s with net := { s.net with mgmtIn := [] } }
  | e :: r, s => if e.listed then { s with net := { s.net with mgmtIn := e :: r } } else State.mgmtSkip r (s.result e 1)

/-- The queue's next entry taken: none while a report is being signed (R501). -/
def State.mgmtNext (s : State) : State := if s.net.attest.isSome then s else State.mgmtSkip s.net.mgmtIn s

/-- The entries of a management datagram wait their turn. -/
def State.mgmtQueue (s : State) (es : List MgmtEntry) : State :=
  ({ s with net := { s.net with mgmtIn := s.net.mgmtIn ++ es } } : State).mgmtNext

/-- A management datagram (R400): from the claimant its SEQ decides, as in R370, a repeat of the last accepted one drawing its replies
again; while none has claimed the queue, every datagram is taken. -/
def State.mgmtArrive (s : State) (u : UpPkt) (es : List MgmtEntry) : State :=
  let seq := leField u.bytes 8 4
  match s.net.claim with
  | none => s.mgmtQueue es
  | some c =>
    if c.who.same u.from_ = false then es.foldl (fun s e => s.result e 6) s
    else
      let now := s.core.now.toNat
      let put := fun (c : Claim) => ({ s with net := { s.net with claim := some c } } : State)
      if seq = c.next then
        (put { c with next := (seq + 1) % 2 ^ 32, since := now, replies := [] }).mgmtQueue es
      else if (seq + 1) % 2 ^ 32 = c.next then
        (put { c with since := now }).onCore fun k => c.replies.foldl (fun k d => k.sendUdp 0 u.from_ d) (k.bump (Reg.epCmdDup 0) 1)
      else if seqBefore seq c.next then (put { c with since := now }).onCore fun k => k.bump (Reg.epCmdDup 0) 1
      else (put { c with since := now }).badDg 0

/-- CMD_ENTRIES (R369 to R371, R399): context 4,095 is the management context on EP0; its entries for another queue are discarded
with EVENT 0x40; a management datagram wakes the module from S1 to S3 (R454). -/
def execCmdEntries (p : Nat) (s : State) : Host.Outcome State Fault Refusal :=
  s.whenAlive <| .next
    (match s.takeDg p 1 with
    | none => s
    | some (u, s1) =>
      let n := leField u.bytes 18 2
      let q := leField u.bytes 16 2
      if n = 0 ∨ 128 < n ∨ u.bytes.length ≠ 32 + 64 * n then s1.badDg p
      else if leField u.bytes 6 2 = 4095 then
        if p ≠ 0 ∨ leField u.bytes 20 4 ≠ 0 ∨ datagramGood u.bytes = false then s1.badDg p
        else if q ≠ 16382 then (s1.onCore fun c => c.err { type := 3, event := 0x40, queue := q }).settle
        else
          s1.wake.mgmtArrive u ((entriesOf n (u.bytes.drop 32)).map fun b =>
            ({ from_ := u.from_, seq := leField u.bytes 8 4, bytes := b } : MgmtEntry))
      else
        match s1.dgContext u with
        | none => s1.badDg p
        | some x => (s1.inSeries u x fun s => s.deliverEntries x q n (u.bytes.drop 32)).takeWork.settle)

/-- The management entry at the head of those waiting, when it has the OP and no report is being signed (R501). -/
def State.takeMgmt (s : State) (op : Nat) : Option (MgmtEntry × State) :=
  match s.net.mgmtIn, s.net.attest with
  | e :: r, none => if e.op = op then some (e, { s with net := { s.net with mgmtIn := r } }) else none
  | _, _ => none

/-- One management command run (R400): unclaimed, the queue takes only REG_READ, FLASH_READ, ATTEST and CLAIM; claimed, only the
claimant's commands. -/
def State.mgmtRun (s : State) (op : Nat) (f : MgmtEntry → State → State) : State :=
  match s.takeMgmt op with
  | none => s
  | some (e, s1) =>
    match s.net.claim with
    | none => (if op = 1 ∨ op = 3 ∨ op = 8 ∨ op = 0x0A then f e s1 else s1.result e 1).mgmtNext
    | some c => (if c.who.same e.from_ then f e s1 else s1.result e 6).mgmtNext

/-! ## Registers (R401, R402) -/

/-- Whether the module is in Bare mode. -/
def Core.bare (c : Core) : Bool := c.bit Reg.startStatus 4

/-- The refusal of an access to the registers at [off, off + n): 0 for none. -/
def State.regRefusal (s : State) (off n : Nat) : Nat :=
  if off % 8 ≠ 0 ∨ 0x1000_0000 < off + n then 2
  else if s.core.bare = true ∧ ¬(0x1_0000 ≤ off ∧ off + n ≤ 0x5_0000) ∧ ¬(0x20_0000 ≤ off ∧ off + n ≤ 0x20_1000) then 5
  else 0

/-- REG_READ. -/
def execRegRead (s : State) : Host.Outcome State Fault Refusal :=
  s.whenAlive <| .next (s.mgmtRun 1 fun e s =>
    if e.arg1 = 0 ∨ 6 < e.arg1 then s.result e 2
    else
      match s.regRefusal e.arg0 (8 * e.arg1) with
      | 0 => s.reply e 0 e.arg0 0 ((List.range e.arg1).flatMap fun i => leBytes 8 (s.readReg (e.arg0 + 8 * i)).toNat)
      | k => s.result e k)

/-- REG_WRITE: the store acts, then the reply goes. -/
def execRegWrite (s : State) : Host.Outcome State Fault Refusal :=
  s.whenAlive <| .next (s.mgmtRun 2 fun e s =>
    match s.regRefusal e.arg0 8 with
    | 0 => (s.writeReg e.arg0 8 (BitVec.ofNat 64 e.arg1)).result e 0
    | k => s.result e k).takeWork.settle

/-! ## The flash (R36, R401, R402) -/

/-- Whether a flash offset lies in a slot that runs or that a pending epoch names (R36). -/
def State.slotBusy (s : State) (a : Nat) : Bool :=
  let slot := a / 0x80_0000
  decide (a < 0x100_0000) &&
    (s.pat.run.any (fun i => i.slot == slot) || s.pat.checking == some slot || s.pat.ready.any fun i => i.slot == slot)

/-- Bytes of the flash after a failed erase or program: free. -/
def State.spoilFlash (s : State) (a n : Nat) : State :=
  { s with core := s.core.fresh.2,
           part := { s.part with flash := flashPut s.part.flash a ((List.range n).map fun i => Config.freeByte s.core.freeCtr (a + i)) } }

/-- Whether the device reports errors in the sectors of a range. -/
def State.flashFails (s : State) (a n : Nat) : Bool :=
  s.part.badSectors.any fun k => decide (a / 0x1_0000 ≤ k) && decide (k ≤ (a + n - 1) / 0x1_0000)

/-- FLASH_READ. -/
def execFlashRead (s : State) : Host.Outcome State Fault Refusal :=
  s.whenAlive <| .next (s.mgmtRun 3 fun e s =>
    if e.arg1 = 0 ∨ 48 < e.arg1 ∨ 0x210_0000 < e.arg0 + e.arg1 then s.result e 2
    else s.reply e 0 e.arg0 0 (flashBytes s.part.flash e.arg0 e.arg1))

/-- FLASH_ERASE of one sector, or of the whole calibration region; `ok` says whether the device reports success. -/
def execFlashErase (ok : Bool) (s : State) : Host.Outcome State Fault Refusal :=
  s.whenAlive <| .next (s.mgmtRun 4 fun e s =>
    let r : Nat × Nat := if e.arg0 < 0x100_0000 then (e.arg0, 0x1_0000) else (0x100_0000, 0x10_0000)
    if e.arg0 % 0x1_0000 ≠ 0 ∨ 0x110_0000 ≤ e.arg0 then s.result e 2
    else if s.slotBusy e.arg0 then s.result e 3
    else if ok = false ∨ s.flashFails r.1 r.2 = true then (s.spoilFlash r.1 r.2).result e 4
    else ({ s with part := { s.part with flash := flashErase s.part.flash r.1 r.2 } } : State).result e 0)

/-- FLASH_WRITE within one page; `ok` says whether the device reports success. -/
def execFlashWrite (ok : Bool) (s : State) : Host.Outcome State Fault Refusal :=
  s.whenAlive <| .next (s.mgmtRun 5 fun e s =>
    let n := e.arg1
    if n = 0 ∨ 48 < n ∨ 0x110_0000 < e.arg0 + n ∨ e.arg0 / 256 ≠ (e.arg0 + n - 1) / 256 then s.result e 2
    else if s.slotBusy e.arg0 then s.result e 3
    else if (flashBytes s.part.flash e.arg0 n).any (· != 0xFF) then s.result e 7
    else if ok = false ∨ s.flashFails e.arg0 n = true then (s.spoilFlash e.arg0 n).result e 4
    else ({ s with part := { s.part with flash := flashPut s.part.flash e.arg0 (bytesAt e.data 0 n) } } : State).result e 0)

/-! ## The calibration set (R60 to R62) -/

/-- The wear-journal record of a set written (R63): its ORIGIN and the first 32 bytes of its SHA-512. The spec gives the record no
OBJECT: free. -/
def State.calRecord (s : State) : State :=
  let set := flashBytes s.part.flash 0x100_0000 calLength
  let r := appendWear s.part s.core.fresh.2 8 (Config.freeNat s.core.freeCtr % 2 ^ 16)
    (leBytes 2 (leField set 6 2) ++ bytesAt (sha512 set) 0 32)
  { s with part := r.1, core := r.2 }

/-- CAL_COMMIT. -/
def execCalCommit (s : State) : Host.Outcome State Fault Refusal :=
  s.whenAlive <| .next (s.mgmtRun 6 fun e s => s.calRecord.reply e 0 e.arg0 (calClass s.part.fuses s.part.flash) []).settle

/-- The sensor trims and droop thresholds in use (R60, R61, R445): those of the valid set that B2 read, but free for a region
whose detector has trimmed itself, and free where the module runs on generic values, which the spec does not give. -/
def State.liveTrims (s : State) : List Byte :=
  (List.range 0x1200).map fun i =>
    let moved := decide (0x1000 ≤ i) && sGet s.pwr.trims ((i - 0x1000) / 32) 0 != 0
    if s.pat.calTrims.isEmpty || moved then Config.liveSeeds s.core.freeCtr (0x1_F000 + i) else s.pat.calTrims.getD i 0

/-- A set of the values in use (R60, R62): PHY seeds and equalisation as live calibration has them, which are free, the trims and
thresholds, and the voltage offsets in force. -/
def State.liveSet (s : State) : List Byte :=
  let seeds := fun (lo hi : Nat) => (List.range (hi - lo)).map fun i => Config.liveSeeds s.core.freeCtr (lo + i)
  let zeros := fun (n : Nat) => List.replicate n (0 : Byte)
  let offsets := (List.range 64).flatMap fun i =>
    leBytes 2 (if 6 ≤ i % 8 then 0 else (s.pat.calOffsets.getD i 0 % ((2 ^ 16 : Nat) : Int)).toNat)
  let body := leBytes 8 s.part.fuses.serial ++ leBytes 8 s.core.now.toNat ++ zeros 0xFE0 ++ seeds 0x1000 0x1_E300 ++ zeros 0xD00 ++
    s.liveTrims ++ offsets
  let head := leBytes 4 0x4C41_435A ++ leBytes 2 1 ++ leBytes 2 2 ++ leBytes 4 calLength
  head ++ leBytes 4 (crc32 (head ++ zeros 4 ++ body)) ++ body

/-- CAL_CAPTURE: the set replaced by the live values with ORIGIN 2; the key store stays (R495). -/
def execCalCapture (s : State) : Host.Outcome State Fault Refusal :=
  s.whenAlive <| .next (s.mgmtRun 7 fun e s =>
    if s.flashFails 0x100_0000 0xF_0000 then (s.spoilFlash 0x100_0000 calLength).result e 4
    else
      let fl := flashPut (flashErase s.part.flash 0x100_0000 0xF_0000) 0x100_0000 s.liveSet
      ({ s with core := s.core.fresh.2, part := { s.part with flash := fl } } : State).calRecord.result e 0).settle

/-! ## Attestation (R500, R501) -/

/-- Every fuse value in one list, the identity's private half read as zero. -/
def Fuses.values (f : Fuses) : List Nat :=
  [f.grade, f.serial, f.maxRoot, f.tripDie, f.tripHbm, f.wakeGpio, f.i2cAddr, f.idModulus, 0] ++ f.mac ++ f.pins ++ [f.notGood.length] ++ f.notGood ++
    [f.overlayable.length] ++ f.overlayable ++ (f.keyHash.map leNat) ++ f.revoked.map (·.toNat)

/-- A 64-octet hash that eight registers show. -/
def Core.hashAt (c : Core) (off : Nat) : List Byte := (List.range 8).flatMap fun i => leBytes 8 (c.rd (off + 8 * i)).toNat

/-- Bytes 0x000 to 0x1BF of the report, captured now. -/
def State.report (s : State) (nonce : List Byte) : List Byte :=
  let c := s.core
  let hide := fun (bs : List Byte) => if c.bare then bs.map fun _ => (0 : Byte) else bs
  let st := c.rd Reg.patStatus
  let wear := ((halfLog s.part.flash (activeHalf s.part.flash)).filter fun r =>
    decide (2 ≤ leField r 0 1) && decide (leField r 0 1 ≤ 6) && recordGood r).flatten
  leBytes 4 0x5453_5441 ++ leBytes 2 1 ++ leBytes 2 (c.bare.toNat + 2 * getF st 4 3 + 8 * getF st 0 0) ++ leBytes 8 s.part.fuses.serial ++
    leBytes 8 c.now.toNat ++ hide (leBytes 4 (c.rd Reg.patSequence).toNat) ++ leBytes 1 s.part.fuses.grade ++
    leBytes 1 (c.fld Reg.secStatus 7 0) ++ leBytes 1 (c.fld Reg.moduleInfo 23 16) ++
    leBytes 1 ((s.pat.run.map (·.key)).getD 0xFF) ++ bytesAt nonce 0 32 ++
    hide (bytesAt ((s.pat.run.map (·.hash)).getD []) 0 64) ++ bytesAt (sha512 (Config.fuseOctets s.pat.atB1.values)) 0 64 ++
    c.hashAt (Reg.calHash 0) ++ hide (bytesAt (sha512 wear) 0 64) ++ hide ((List.range 96).map fun p => BitVec.ofNat 8 (s.pat.map.getD p 0)) ++
    List.replicate 32 0

/-- ATTEST: the report is captured, once no boundary applies changes, and its signing begins. -/
def execAttest (s : State) : Host.Outcome State Fault Refusal :=
  s.whenAlive <| .next (if s.integ.boundaryWait then s
    else s.mgmtRun 8 fun e s =>
      let a : Attest := { entry := e, body := s.report e.data }
      { s with core := s.core.setBit Reg.secStatus 9 true, net := { s.net with attest := some a } })

/-- The signature of a report with the identity key; its salt is free, and all of it is where the module holds no key. -/
def State.signReport (s : State) (body : List Byte) : List Byte :=
  let free := fun (n : Nat) => (List.range n).map fun i => Config.freeByte s.core.freeCtr i
  let f := s.part.fuses
  if f.idModulus = 0 then free 512 else bytesAt (pssSign f.idModulus f.idPrivate (sha512 body) (free 64)) 0 512

/-- ATTEST_SIGN_DONE: the 20 parts go, and the report counts in ATTEST_COUNT. -/
def execAttestSignDone (s : State) : Host.Outcome State Fault Refusal :=
  s.whenAlive <| .next
    (match s.net.attest with
    | none => s
    | some a =>
      let all := a.body ++ s.signReport a.body
      let c := ((s.core.fresh.2.setBit Reg.secStatus 9 false).bump Reg.attestCount 1)
      ((List.range 20).foldl (fun s i => s.reply a.entry 0 i 20 (bytesAt all (48 * i) 48))
        ({ s with core := c, net := { s.net with attest := none } } : State)).mgmtNext)

/-! ## RESET, CLAIM, RELEASE (R400, R401) -/

/-- RESET: the reply, and the warm reset 1 ms, 900,000 ticks, later. -/
def execMgmtReset (s : State) : Host.Outcome State Fault Refusal :=
  s.whenAlive <| .next (s.mgmtRun 9 fun e s =>
    if e.arg0 ≠ 0 then s.result e 2
    else
      let s1 := s.result e 0
      { s1 with net := { s1.net with resetAt := some (s.core.now.toNat + 900000) } })

/-- RESET_COMMAND_FIRE. -/
def execResetCommandFire (s : State) : Host.Outcome State Fault Refusal :=
  s.whenAlive <| .next
    (match s.net.resetAt with
    | none => s
    | some t => if t ≤ s.core.now.toNat then s.warmReset 3 else s)

/-- CLAIM: the sender is the claimant, and the SEQ expected next follows the CLAIM's. -/
def execMgmtClaim (s : State) : Host.Outcome State Fault Refusal :=
  s.whenAlive <| .next (s.mgmtRun 0x0A fun e s =>
    match s.net.claim with
    | some _ => s.result e 0
    | none =>
      let c : Claim := { who := e.from_, next := (e.seq + 1) % 2 ^ 32, since := s.core.now.toNat, replies := [] }
      ({ s with net := { s.net with claim := some c } } : State).result e 0)

/-- RELEASE. -/
def execMgmtRelease (s : State) : Host.Outcome State Fault Refusal :=
  s.whenAlive <| .next (s.mgmtRun 0x0B fun e s =>
    let s1 := s.result e 0
    { s1 with net := { s1.net with claim := none } })

/-- CLAIM_TIMEOUT: 2^36 ticks without a datagram from the claimant. -/
def execClaimTimeout (s : State) : Host.Outcome State Fault Refusal :=
  s.whenAlive <| .next
    (match s.net.claim with
    | none => s
    | some c => if c.since + 2 ^ 36 ≤ s.core.now.toNat then { s with net := { s.net with claim := none } } else s)

end Sys2Proof.Machine
end

