-- ==== Sys2Proof/Machine/PalmMem.lean ====
section
/-! DEFINITION. The Palm instructions that may reach control space: LD, ST (R289, R291) and VST with its narrowing and Lining
stores (R281, R286, R293). -/

namespace Sys2Proof.Machine

/-! ## Control space from a context (R79, R291, R524) -/

/-- The offset in control space of a local address. -/
def ctlOff (a : Nat) : Nat := gaLocal a - 0x7F0_0000_0000

/-- Bytes of a store that leave the tile for control space travel on plane C (R473, R524). -/
def Core.countCtl (c : Core) (t off n : Nat) : Core :=
  if tileCtl t ≤ off ∧ off < tileCtl t + 0x1_0000 then c else c.bump (Reg.tcntPlane t 3) n

/-- Whether LD or ST may make an access of control space: 4 or 8 bytes, naturally aligned (R291). -/
def ctlSized (ga n : Nat) : Bool := (n == 4 || n == 8) && ga % n == 0

/-- LD (R289, R291): a load of 2^f4[1:0] bytes; a load of another module waits for its responses, an aligned one for one. -/
def execLd (t n : Nat) (w : BitVec 27) (s : State) : Host.Outcome State Fault Refusal :=
  .next (s.issue t n 0x04 w false fun s x =>
    let size := 2 ^ bitsOf (fF4 w) 1 0
    let ga := x.ldAddr w
    if bitOf (fF4 w) 3 then s.illegal x
    else
      match s.core.reach ga size with
      | .halt k => s.halt t n k
      | .ctl =>
        if ctlSized ga size then s.advance (x.setX (fD w) (ldValue w (s.ctlLoad (ctlOff ga) size)))
        else s.halt t n 5
      | .mem => s.ldMem x w
      | .remote =>
        if ga % size = 0 ∧ s.core.reachable (gaModule ga) = true then
          (s.onCore fun c => (c.countAccess t 1 .rd ga size).request (gaModule ga) 1 (.load t n (0x04 * 2 ^ 27 + w.toNat)) fun tag =>
            msgReadReq ga size tag).block t n
        else s.loading x 0x04 w fun s x => s.ldMem x w).settle

/-- ST (R289, R291): the low 2^f4[1:0] bytes of xd; PC has moved past the instruction when a store to control space acts. -/
def execSt (t n : Nat) (w : BitVec 27) (s : State) : Host.Outcome State Fault Refusal :=
  .next (s.issue t n 0x05 w false fun s x =>
    let size := 2 ^ bitsOf (fF4 w) 1 0
    let ga := x.ldAddr w
    let v := x.xr (fD w)
    let put := (splitAccess ga size).foldl (fun s p => s.palmWrite t n p.1 (leBytes p.2 (v.toNat / 2 ^ (8 * (p.1 - ga))))) s
    if 4 ≤ fF4 w then s.illegal x
    else
      match s.core.reach ga size with
      | .halt k => s.halt t n k
      | .ctl =>
        if ctlSized ga size then
          ((s.onCore fun c => c.countCtl t (ctlOff ga) size).advance x).writeReg (ctlOff ga) size v
        else s.halt t n 5
      | .mem => put.advance x
      | .remote => put.advance x).takeWork.settle

/-! ## VST (R293) -/

/-- How element `k` of a store rounds: to nearest even, or by the draw for c = RC + k (R276). -/
def Core.roundingOf (c : Core) (x : Ctx) (stochastic : Bool) (k : Nat) : Rounding :=
  if stochastic then .draw (drawG (c.rd Reg.numSrStepSeed) (x.rc + BitVec.ofNat 64 k)).toNat else .nearest

/-- A value rounded into BF16 or FP16 (R255), by a draw where the store is stochastic (R278): beyond the range an infinity. -/
def narrowWide (code : Nat) (rn : Rounding) (a : Lane) : Nat :=
  let f := ffmt code
  match valOf a with
  | .fin neg m e =>
    if m = 0 then fpack code neg 0 0
    else
      let u := ulpExp f.p f.emin m e
      let q := roundAt rn m e u
      if magLt (fmax code).1 (fmax code).2 q u then fencode code (.inf neg) else fpack code neg q u
  | v => fencode code v

/-- A BF16 value and its Lining of 8 bits (R281); the step away from the largest finite value reaches the infinity. -/
def lineBf16 (rn : Rounding) (a : Lane) : Nat × Nat :=
  match lineTo 2 8 rn 127 a with
  | some p => p
  | none => (fencode 2 (.inf (a.getLsbD 31)), 0)

/-- Elements of `bits` bits laid one after another, low bits first. -/
def packElems (bits : Nat) (ps : List Nat) : List Byte :=
  leBytes (ps.length * bits / 8) ((List.range ps.length).foldl (fun acc j => acc + ps.getD j 0 % 2 ^ bits * 2 ^ (bits * j)) 0)

/-- The draws of a store counted in units of 4,096 (R276, R525). -/
def Core.countDraws (c : Core) (stochastic : Bool) (n : Nat) : Core := if stochastic then c.bumpUnits Reg.numSrDraws n 4096 else c

/-- Bytes stored by a context at several addresses. -/
def State.palmWrites (s : State) (x : Ctx) (ws : List (Nat × List Byte)) : State :=
  ws.foldl (fun s p => s.palmWrite x.t x.n p.1 p.2) s

/-- A 64-byte store to control space (R291, R293): a submission port or a queue window takes it, anything else halts the context. -/
def State.store64 (s : State) (x : Ctx) (ga : Nat) (bs : List Byte) : State :=
  let off := ctlOff ga
  let s1 := (s.onCore fun c => c.countCtl x.t off 64).advance x
  if ga % 64 ≠ 0 ∨ bs.length ≠ 64 then s.halt x.t x.n 5
  else
    match locate s.core.active off with
    | (.tile t, o) =>
      if 0x1000 ≤ o ∧ o < 0x2000 then s1.submitStore t ((o - 0x1000) / 0x40) 0 bs (some (x.t, x.n)) else s.halt x.t x.n 5
    | (.queue q, _) => s1.directEntry q bs (some (x.t, x.n))
    | _ => s.halt x.t x.n 5

/-- Ranges that only this module's memory may hold: the halt cause of the first that lies elsewhere (R286). -/
def Core.localCause (c : Core) (rs : List (Nat × Nat)) : Option Nat :=
  match c.rangesCause rs with
  | some k => some k
  | none => if rs.all fun r => c.reach r.1 r.2 == .mem then none else some 3

/-- The wide stores, FK 0 to 2, and those of a kind whose recipe is BF16 (`kind`); `lining` writes the Lining at xc. A kind's and a
Lining's must stay in this module (R286). -/
def State.wideStore (s : State) (x : Ctx) (w : BitVec 27) (fk : Nat) (kind stochastic lining : Bool) : State :=
  let n := laneCount (x.xr (fB w))
  let ga := addr56 (x.xr (fA w))
  let xc := addr56 (x.xr (fC w))
  let ls := (x.vr (fD w)).take n
  let rn := s.core.roundingOf x (stochastic && fk != 0)
  let lined := (List.range ls.length).map fun k => lineBf16 (rn k) (ls.getD k 0)
  let els : List Byte :=
    if fk = 0 then lanesBytes ls
    else if lining then packElems 16 (lined.map (·.1))
    else packElems 16 ((List.range ls.length).map fun k => narrowWide (if fk = 1 then 2 else 1) (rn k) (ls.getD k 0))
  let put := [(ga, els)] ++ (if lining then [(xc, packElems 8 (lined.map (·.2)))] else [])
  let ranges := put.map fun p => (p.1, p.2.length)
  let go := fun (_ : Unit) =>
    ((s.palmWrites x put).onCore fun c =>
      ((c.countDraws (stochastic && fk != 0) n).bump (Reg.palmLining x.t) lining.toNat).bump (Reg.palmNarrow x.t) kind.toNat).advance x
  if lining || kind then
    match s.core.localCause ranges with
    | some k => s.halt x.t x.n k
    | none => go ()
  else
    match s.core.reach ga els.length with
    | .halt k => s.halt x.t x.n k
    | .ctl => if fk = 0 then s.store64 x ga els else s.halt x.t x.n 5
    | _ => go ()

/-- The elements of a recipe block: B of the kind, or 16·xb[63:56] for a whole row; none when the block passes v31 (R293). -/
def State.kindBlock (s : State) (x : Ctx) (w : BitVec 27) (kind : Nat) : Option Nat :=
  let b := match s.pat.blockSize kind with
    | 0 => 16 * ((x.xr (fB w)).toNat / 2 ^ 56)
    | k => k
  if b = 0 ∨ 256 < b ∨ 32 < fD w + b / 16 then none else some b

/-- The kind stores, FK 4 to 7 (R264, R266, R272, R281, R293): one recipe block narrowed, with its scale byte and any Lining. -/
def State.kindStore (s : State) (x : Ctx) (w : BitVec 27) (kind : Nat) (stochastic lining : Bool) : State :=
  let r := s.pat.recipe kind
  let code := recipeFmt r.1
  match s.kindBlock x w kind with
  | none => s.illegal x
  | some b =>
    let ga := addr56 (x.xr (fA w))
    let sa := addr56 (x.xr (fB w))
    let xc := addr56 (x.xr (fC w))
    let xs := ((List.range (b / 16)).flatMap fun k => x.vr (fD w + k)).take b
    let rs := (List.range xs.length).map fun k => (s.core.roundingOf x stochastic k, xs.getD k 0)
    let ranges := [(ga, b * fmtBits code / 8), (sa, 1)] ++ (if lining then [(xc, b / 2)] else [])
    match s.core.localCause ranges with
    | some k => s.halt x.t x.n k
    | none =>
      let plan : BlockPlan := if lining then lineLadder code 4 r.2.2 rs else { out := ladder code r.2.2 rs, lining := [] }
      let ctrl := (s.core.rd Reg.numCtrl).toNat
      let e : ErrInfo := { type := 3, engine := 0x0F, context := x.n, tile := x.t, tensor := x.tid }
      let blk := s.core.finishBlock x.t 1 ctrl kind code sa e plan.out xs (.store x.t x.n ga)
      let c1 := blk.core.checkUnit ctrl (s.core.rd Reg.numThresh).toNat kind x.tid s.core.step (gaLocal ga % 2 ^ 32) ga e
        (xs.zip (blk.widen code xs))
      let put := [(ga, packElems (fmtBits code) blk.pats), (sa, leBytes 1 blk.scale)] ++
        (if lining then [(xc, packElems 4 plan.lining)] else [])
      ((({ s with core := c1 } : State).palmWrites x put).onCore fun c =>
        ((c.countDraws stochastic b).bump (Reg.palmLining x.t) lining.toNat).bump (Reg.palmNarrow x.t) 1).advance x

/-- VST (R293). RND 2 and 3 are legal only where the written format is BF16 or FK is 6; field c is reserved without a Lining. -/
def execVst (t n : Nat) (w : BitVec 27) (s : State) : Host.Outcome State Fault Refusal :=
  .next (s.issue t n 0x10 w true fun s x =>
    let fk := bitsOf (fF w) 6 4
    let rnd := bitsOf (fF w) 3 2
    let lining := decide (2 ≤ rnd)
    let stochastic := rnd == 1 || rnd == 3
    let plainKind := decide (4 ≤ fk) && (s.pat.recipe (fk - 4)).1 == 0
    let bf16 := fk == 1 || plainKind
    if fk = 3 ∨ bitsOf (fF w) 1 0 ≠ 0 ∨ (lining && !bf16 && fk != 6) ∨ (lining = false ∧ fC w ≠ 0) then s.illegal x
    else if 4 ≤ fk ∧ plainKind = false then s.kindStore x w (fk - 4) stochastic lining
    else s.wideStore x w (if plainKind then 1 else fk) plainKind stochastic lining).takeWork.settle

end Sys2Proof.Machine
end

