-- ==== Sys2Proof/Machine/Dispatch.lean ====
section
/-! DEFINITION. The effect of each command on everything but the queue: one arm for each constructor of `Instr`. -/

namespace Sys2Proof.Machine

/-- The effect of a command (spec/opcode_table.json). -/
def exec (i : Instr) (s : State) : Host.Outcome State Fault Refusal :=
  match i with
  | .registerWrite off size v => Sys2Proof.Machine.execRegisterWrite off size v s
  | .vddAonRise => Sys2Proof.Machine.execVddAonRise s
  | .porN ns => Sys2Proof.Machine.execPorN ns s
  | .warmRstN ns => Sys2Proof.Machine.execWarmRstN ns s
  | .rstWarm => Sys2Proof.Machine.execRstWarm s
  | .stageB0 => Sys2Proof.Machine.execStageB0 s
  | .stageB1 crcOk vddbOk => Sys2Proof.Machine.execStageB1 crcOk vddbOk s
  | .stageB2 => Sys2Proof.Machine.execStageB2 s
  | .stageB3 pllOk pmbus => Sys2Proof.Machine.execStageB3 pllOk pmbus s
  | .stageB4 tr => Sys2Proof.Machine.execStageB4 tr s
  | .stageB5 => Sys2Proof.Machine.execStageB5 s
  | .stageB6 linksUp pmbus => Sys2Proof.Machine.execStageB6 linksUp pmbus s
  | .stageTimeout => Sys2Proof.Machine.execStageTimeout s
  | .epochReq slot => Sys2Proof.Machine.execEpochReq slot s
  | .epochCheckDone => Sys2Proof.Machine.execEpochCheckDone s
  | .epochCancel => Sys2Proof.Machine.execEpochCancel s
  | .marginSummary => Sys2Proof.Machine.execMarginSummary s
  | .journalCompaction => Sys2Proof.Machine.execJournalCompaction s
  | .ctxStart t n => Sys2Proof.Machine.execCtxStart t n s
  | .ctxStop t n => Sys2Proof.Machine.execCtxStop t n s
  | .contextWake t n => Sys2Proof.Machine.execContextWake t n s
  | .descriptorSubmit t n off data => Sys2Proof.Machine.execDescriptorSubmit t n off data s
  | .descriptorAdmit id => Sys2Proof.Machine.execDescriptorAdmit id s
  | .descriptorComplete id => Sys2Proof.Machine.execDescriptorComplete id s
  | .genDomainWrite d v => Sys2Proof.Machine.execGenDomainWrite d v s
  | .descriptorCancel id => Sys2Proof.Machine.execDescriptorCancel id s
  | .moduleNoWrite v => Sys2Proof.Machine.execModuleNoWrite v s
  | .mmFwd id => Sys2Proof.Machine.execMmFwd id s
  | .mmDgrad id => Sys2Proof.Machine.execMmDgrad id s
  | .mmWgrad id => Sys2Proof.Machine.execMmWgrad id s
  | .mmStats id => Sys2Proof.Machine.execMmStats id s
  | .copy id => Sys2Proof.Machine.execCopy id s
  | .permute id => Sys2Proof.Machine.execPermute id s
  | .skewCopy id => Sys2Proof.Machine.execSkewCopy id s
  | .packInput id => Sys2Proof.Machine.execPackInput id s
  | .unpackInput id => Sys2Proof.Machine.execUnpackInput id s
  | .runChain id => Sys2Proof.Machine.execRunChain id s
  | .touchReset id => Sys2Proof.Machine.execTouchReset id s
  | .expertDispatch id => Sys2Proof.Machine.execExpertDispatch id s
  | .expertCombineReturn id => Sys2Proof.Machine.execExpertCombineReturn id s
  | .expertCombineSum id => Sys2Proof.Machine.execExpertCombineSum id s
  | .redLocal id => Sys2Proof.Machine.execRedLocal id s
  | .redSend id => Sys2Proof.Machine.execRedSend id s
  | .redSendFillWait id => Sys2Proof.Machine.execRedSendFillWait id s
  | .bucketArm id => Sys2Proof.Machine.execBucketArm id s
  | .redZero id => Sys2Proof.Machine.execRedZero id s
  | .areaReserve id => Sys2Proof.Machine.execAreaReserve id s
  | .mittShare t => Sys2Proof.Machine.execMittShare t s
  | .mittPassSwap t => Sys2Proof.Machine.execMittPassSwap t s
  | .mittDrain t => Sys2Proof.Machine.execMittDrain t s
  | .combineAdd t => Sys2Proof.Machine.execCombineAdd t s
  | .multicastFill id blk => Sys2Proof.Machine.execMulticastFill id blk s
  | .cuffJob t => Sys2Proof.Machine.execCuffJob t s
  | .gloveStart t => Sys2Proof.Machine.execGloveStart t s
  | .sortStage t => Sys2Proof.Machine.execSortStage t s
  | .segmentMerge t => Sys2Proof.Machine.execSegmentMerge t s
  | .runAheadRead t => Sys2Proof.Machine.execRunAheadRead t s
  | .placeEpochReq => Sys2Proof.Machine.execPlaceEpochReq s
  | .placeEpochCancel => Sys2Proof.Machine.execPlaceEpochCancel s
  | .placeEpochWrite v => Sys2Proof.Machine.execPlaceEpochWrite v s
  | .numFbBaseWrite v => Sys2Proof.Machine.execNumFbBaseWrite v s
  | .numFbNextWrite v => Sys2Proof.Machine.execNumFbNextWrite v s
  | .bandAdvance => Sys2Proof.Machine.execBandAdvance s
  | .groupScheduleWrite g r v => Sys2Proof.Machine.execGroupScheduleWrite g r v s
  | .groupRestoreWrite g r v => Sys2Proof.Machine.execGroupRestoreWrite g r v s
  | .bandStepWrite v => Sys2Proof.Machine.execBandStepWrite v s
  | .palmEnd t n w => Sys2Proof.Machine.execPalmEnd t n w s
  | .alu t n w => Sys2Proof.Machine.execAlu t n w s
  | .alui t n w => Sys2Proof.Machine.execAlui t n w s
  | .lis t n w => Sys2Proof.Machine.execLis t n w s
  | .ld t n w => Sys2Proof.Machine.execLd t n w s
  | .st t n w => Sys2Proof.Machine.execSt t n w s
  | .br t n w => Sys2Proof.Machine.execBr t n w s
  | .jal t n w => Sys2Proof.Machine.execJal t n w s
  | .jr t n w => Sys2Proof.Machine.execJr t n w s
  | .waitne t n w => Sys2Proof.Machine.execWaitne t n w s
  | .fence t n w => Sys2Proof.Machine.execFence t n w s
  | .band t n w => Sys2Proof.Machine.execBand t n w s
  | .dgap t n w => Sys2Proof.Machine.execDgap t n w s
  | .tmnext t n w => Sys2Proof.Machine.execTmnext t n w s
  | .spr t n w => Sys2Proof.Machine.execSpr t n w s
  | .vld t n w => Sys2Proof.Machine.execVld t n w s
  | .vst t n w => Sys2Proof.Machine.execVst t n w s
  | .vop t n w => Sys2Proof.Machine.execVop t n w s
  | .vfma t n w => Sys2Proof.Machine.execVfma t n w s
  | .vfn t n w => Sys2Proof.Machine.execVfn t n w s
  | .vsel t n w => Sys2Proof.Machine.execVsel t n w s
  | .vred t n w => Sys2Proof.Machine.execVred t n w s
  | .vmov t n w => Sys2Proof.Machine.execVmov t n w s
  | .vacc t n w => Sys2Proof.Machine.execVacc t n w s
  | .vstep t n w => Sys2Proof.Machine.execVstep t n w s
  | .sfp t n w => Sys2Proof.Machine.execSfp t n w s
  | .vint t n w => Sys2Proof.Machine.execVint t n w s
  | .vperm t n w => Sys2Proof.Machine.execVperm t n w s
  | .palmEvent t n w => Sys2Proof.Machine.execPalmEvent t n w s
  | .vgth t n w => Sys2Proof.Machine.execVgth t n w s
  | .vsct t n w => Sys2Proof.Machine.execVsct t n w s
  | .trap t n w => Sys2Proof.Machine.execTrap t n w s
  | .memRead addr err => Sys2Proof.Machine.execMemRead addr err s
  | .memWrite addr mask data err => Sys2Proof.Machine.execMemWrite addr mask data err s
  | .cowWriteRelease => Sys2Proof.Machine.execCowWriteRelease s
  | .add addr rank mask data => Sys2Proof.Machine.execAdd addr rank mask data s
  | .bitset addr data => Sys2Proof.Machine.execBitset addr data s
  | .zero addr mask => Sys2Proof.Machine.execZero addr mask s
  | .addLateApply => Sys2Proof.Machine.execAddLateApply s
  | .scrubRead ch err => Sys2Proof.Machine.execScrubRead ch err s
  | .adderSelfCheck ch ok => Sys2Proof.Machine.execAdderSelfCheck ch ok s
  | .winOpen n => Sys2Proof.Machine.execWinOpen n s
  | .winOpenEffect n => Sys2Proof.Machine.execWinOpenEffect n s
  | .winClose n => Sys2Proof.Machine.execWinClose n s
  | .winCloseDone n => Sys2Proof.Machine.execWinCloseDone n s
  | .winAbort n => Sys2Proof.Machine.execWinAbort n s
  | .ddrXlateInWrite v => Sys2Proof.Machine.execDdrXlateInWrite v s
  | .fillCntWrite f v => Sys2Proof.Machine.execFillCntWrite f v s
  | .contributionHeader => Sys2Proof.Machine.execContributionHeader s
  | .lineGroup => Sys2Proof.Machine.execLineGroup s
  | .replyAccepted => Sys2Proof.Machine.execReplyAccepted s
  | .replyRefused => Sys2Proof.Machine.execReplyRefused s
  | .replyComplete => Sys2Proof.Machine.execReplyComplete s
  | .abandonReply => Sys2Proof.Machine.execAbandonReply s
  | .bucketDeadline b => Sys2Proof.Machine.execBucketDeadline b s
  | .bucketDrainLimit b => Sys2Proof.Machine.execBucketDrainLimit b s
  | .bucketFinalise b => Sys2Proof.Machine.execBucketFinalise b s
  | .ethFrameRx p fcsOk bytes => Sys2Proof.Machine.execEthFrameRx p fcsOk bytes s
  | .ptpNext p => Sys2Proof.Machine.execPtpNext p s
  | .roceSend p => Sys2Proof.Machine.execRoceSend p s
  | .roceWrite p => Sys2Proof.Machine.execRoceWrite p s
  | .roceReadRequest p => Sys2Proof.Machine.execRoceReadRequest p s
  | .cmdEntries p => Sys2Proof.Machine.execCmdEntries p s
  | .cmdAck p => Sys2Proof.Machine.execCmdAck p s
  | .cmdMessages p => Sys2Proof.Machine.execCmdMessages p s
  | .rtoExpire c => Sys2Proof.Machine.execRtoExpire c s
  | .epCtrlWrite p v => Sys2Proof.Machine.execEpCtrlWrite p v s
  | .quirasDataFrame l f => Sys2Proof.Machine.execQuirasDataFrame l f s
  | .controlFrame l f => Sys2Proof.Machine.execControlFrame l f s
  | .controlFrameTimer l => Sys2Proof.Machine.execControlFrameTimer l s
  | .handoverMarker l f => Sys2Proof.Machine.execHandoverMarker l f s
  | .echoFrame l f => Sys2Proof.Machine.execEchoFrame l f s
  | .echoExchange l => Sys2Proof.Machine.execEchoExchange l s
  | .qlReplayTimeout l => Sys2Proof.Machine.execQlReplayTimeout l s
  | .linkRecovery l => Sys2Proof.Machine.execLinkRecovery l s
  | .recoveryTimeout l => Sys2Proof.Machine.execRecoveryTimeout l s
  | .linkTrainRetry l => Sys2Proof.Machine.execLinkTrainRetry l s
  | .alignmentMarker l => Sys2Proof.Machine.execAlignmentMarker l s
  | .qlRetrain l => Sys2Proof.Machine.execQlRetrain l s
  | .qlEcho l => Sys2Proof.Machine.execQlEcho l s
  | .qlHandoverGo l pos => Sys2Proof.Machine.execQlHandoverGo l pos s
  | .handoverComplete l => Sys2Proof.Machine.execHandoverComplete l s
  | .handoverTimeout l => Sys2Proof.Machine.execHandoverTimeout l s
  | .readReq => Sys2Proof.Machine.execReadReq s
  | .readResp => Sys2Proof.Machine.execReadResp s
  | .msgWrite => Sys2Proof.Machine.execMsgWrite s
  | .writeAck => Sys2Proof.Machine.execWriteAck s
  | .accum => Sys2Proof.Machine.execAccum s
  | .accumAck => Sys2Proof.Machine.execAccumAck s
  | .queuePush => Sys2Proof.Machine.execQueuePush s
  | .queueAck => Sys2Proof.Machine.execQueueAck s
  | .queuePushRetry tag => Sys2Proof.Machine.execQueuePushRetry tag s
  | .remoteTimeoutExpire tag => Sys2Proof.Machine.execRemoteTimeoutExpire tag s
  | .pcCtrlWrite c v => Sys2Proof.Machine.execPcCtrlWrite c v s
  | .qCfgWrite q v => Sys2Proof.Machine.execQCfgWrite q v s
  | .qDirectEntry q data => Sys2Proof.Machine.execQDirectEntry q data s
  | .qDoorbellWrite q v => Sys2Proof.Machine.execQDoorbellWrite q v s
  | .qHeadWrite q v => Sys2Proof.Machine.execQHeadWrite q v s
  | .outboundEntrySend q => Sys2Proof.Machine.execOutboundEntrySend q s
  | .regRead => Sys2Proof.Machine.execRegRead s
  | .regWrite => Sys2Proof.Machine.execRegWrite s
  | .flashRead => Sys2Proof.Machine.execFlashRead s
  | .flashErase ok => Sys2Proof.Machine.execFlashErase ok s
  | .flashWrite ok => Sys2Proof.Machine.execFlashWrite ok s
  | .calCommit => Sys2Proof.Machine.execCalCommit s
  | .calCapture => Sys2Proof.Machine.execCalCapture s
  | .attest => Sys2Proof.Machine.execAttest s
  | .attestSignDone => Sys2Proof.Machine.execAttestSignDone s
  | .mgmtReset => Sys2Proof.Machine.execMgmtReset s
  | .resetCommandFire => Sys2Proof.Machine.execResetCommandFire s
  | .mgmtClaim => Sys2Proof.Machine.execMgmtClaim s
  | .mgmtRelease => Sys2Proof.Machine.execMgmtRelease s
  | .claimTimeout => Sys2Proof.Machine.execClaimTimeout s
  | .detCheck => Sys2Proof.Machine.execDetCheck s
  | .detCheckEvaluate => Sys2Proof.Machine.execDetCheckEvaluate s
  | .heldDescriptorStop id => Sys2Proof.Machine.execHeldDescriptorStop id s
  | .detHold => Sys2Proof.Machine.execDetHold s
  | .detRelease => Sys2Proof.Machine.execDetRelease s
  | .detArmReset => Sys2Proof.Machine.execDetArmReset s
  | .hbTake => Sys2Proof.Machine.execHbTake s
  | .pageCopy => Sys2Proof.Machine.execPageCopy s
  | .hbAbort => Sys2Proof.Machine.execHbAbort s
  | .hbRestore => Sys2Proof.Machine.execHbRestore s
  | .page => Sys2Proof.Machine.execPage s
  | .pageAck => Sys2Proof.Machine.execPageAck s
  | .commit => Sys2Proof.Machine.execCommit s
  | .commitAck => Sys2Proof.Machine.execCommitAck s
  | .journal => Sys2Proof.Machine.execJournal s
  | .restoreReq => Sys2Proof.Machine.execRestoreReq s
  | .restorePage => Sys2Proof.Machine.execRestorePage s
  | .restoreDone => Sys2Proof.Machine.execRestoreDone s
  | .calRoundHbm ch margin lane => Sys2Proof.Machine.execCalRoundHbm ch margin lane s
  | .calRoundQuiras l margin abandoned => Sys2Proof.Machine.execCalRoundQuiras l margin abandoned s
  | .darnReqWrite o => Sys2Proof.Machine.execDarnReqWrite o s
  | .tileReplace => Sys2Proof.Machine.execTileReplace s
  | .tileReplaceDefer => Sys2Proof.Machine.execTileReplaceDefer s
  | .plTargetWrite v => Sys2Proof.Machine.execPlTargetWrite v s
  | .levelChange pmbus => Sys2Proof.Machine.execLevelChange pmbus s
  | .railSettled => Sys2Proof.Machine.execRailSettled s
  | .pllRelockDone pmbus => Sys2Proof.Machine.execPllRelockDone pmbus s
  | .governorTick temps => Sys2Proof.Machine.execGovernorTick temps s
  | .pmbusTelemetryPoll rails => Sys2Proof.Machine.execPmbusTelemetryPoll rails s
  | .thermalTrip sensor temp => Sys2Proof.Machine.execThermalTrip sensor temp s
  | .droopDetect r => Sys2Proof.Machine.execDroopDetect r s
  | .droopStretchEnd r aclks => Sys2Proof.Machine.execDroopStretchEnd r aclks s
  | .sleepS1 => Sys2Proof.Machine.execSleepS1 s
  | .sleepS2 => Sys2Proof.Machine.execSleepS2 s
  | .sleepS3 => Sys2Proof.Machine.execSleepS3 s
  | .sleepS4 => Sys2Proof.Machine.execSleepS4 s
  | .sleepWake => Sys2Proof.Machine.execSleepWake s
  | .wakePin => Sys2Proof.Machine.execWakePin s
  | .padReleaseWrite v => Sys2Proof.Machine.execPadReleaseWrite v s
  | .blockResetPalm k => Sys2Proof.Machine.execBlockResetPalm k s
  | .blockResetMitt k => Sys2Proof.Machine.execBlockResetMitt k s
  | .blockResetCuff k => Sys2Proof.Machine.execBlockResetCuff k s
  | .blockResetGlove k => Sys2Proof.Machine.execBlockResetGlove k s
  | .blockResetSizer k => Sys2Proof.Machine.execBlockResetSizer k s
  | .blockResetCounters k => Sys2Proof.Machine.execBlockResetCounters k s
  | .blockResetEthPort k => Sys2Proof.Machine.execBlockResetEthPort k s
  | .blockResetQuirasLink k => Sys2Proof.Machine.execBlockResetQuirasLink k s
  | .doffFire => Sys2Proof.Machine.execDoffFire s
  | .doffPinTrigger ticks => Sys2Proof.Machine.execDoffPinTrigger ticks s
  | .doffMsg => Sys2Proof.Machine.execDoffMsg s
  | .doffFreeze late => Sys2Proof.Machine.execDoffFreeze late s
  | .doffOutRelease => Sys2Proof.Machine.execDoffOutRelease s
  | .doffThaw => Sys2Proof.Machine.execDoffThaw s
  | .tensorDumpCopy => Sys2Proof.Machine.execTensorDumpCopy s
  | .dumpNextWrite v => Sys2Proof.Machine.execDumpNextWrite v s
  | .keyProgram slot confirm => Sys2Proof.Machine.execKeyProgram slot confirm s
  | .keyRevoke slot confirm => Sys2Proof.Machine.execKeyRevoke slot confirm s
  | .keyCmdDone blown => Sys2Proof.Machine.execKeyCmdDone blown s
  | .i2cRead call => Sys2Proof.Machine.execI2cRead call s
  | .mittCntClear t => Sys2Proof.Machine.execMittCntClear t s
  | .cuffCntClear t => Sys2Proof.Machine.execCuffCntClear t s
  | .gloveCntClear t => Sys2Proof.Machine.execGloveCntClear t s
  | .expCntClear t => Sys2Proof.Machine.execExpCntClear t s
  | .sizerCntClear t => Sys2Proof.Machine.execSizerCntClear t s
  | .numCntClear => Sys2Proof.Machine.execNumCntClear s
  | .palmCntClear t => Sys2Proof.Machine.execPalmCntClear t s
  | .bandCntClear => Sys2Proof.Machine.execBandCntClear s
  | .addCntClear => Sys2Proof.Machine.execAddCntClear s
  | .hbmCntClear => Sys2Proof.Machine.execHbmCntClear s
  | .ddrCntClear => Sys2Proof.Machine.execDdrCntClear s
  | .redCntClear => Sys2Proof.Machine.execRedCntClear s
  | .epCntClear p => Sys2Proof.Machine.execEpCntClear p s
  | .qlCntClear l => Sys2Proof.Machine.execQlCntClear l s
  | .qrCntClear => Sys2Proof.Machine.execQrCntClear s
  | .detCntClear => Sys2Proof.Machine.execDetCntClear s
  | .jnlCntClear => Sys2Proof.Machine.execJnlCntClear s
  | .hbCntClear => Sys2Proof.Machine.execHbCntClear s
  | .droopCntClear => Sys2Proof.Machine.execDroopCntClear s
  | .pwrCntClear => Sys2Proof.Machine.execPwrCntClear s
  | .obsCntClear => Sys2Proof.Machine.execObsCntClear s
  | .tcntCntClear t => Sys2Proof.Machine.execTcntCntClear t s
  | .frameSlot l => Sys2Proof.Machine.execFrameSlot l s
  | .linkTrainingDone l credit => Sys2Proof.Machine.execLinkTrainingDone l credit s
  | .vddAonFall => Sys2Proof.Machine.execVddAonFall s
  | .epLinkUpChange p up => Sys2Proof.Machine.execEpLinkUpChange p up s
  | .marginMeasure o margin lane => Sys2Proof.Machine.execMarginMeasure o margin lane s
  | .idleCalTrim r trim => Sys2Proof.Machine.execIdleCalTrim r trim s

end Sys2Proof.Machine
end

