-- ==== Sys2Proof/Machine/Tick.lean ====
section
/-! DEFINITION. One timebase tick (R439): what an empty queue lets pass in place of idling. -/

namespace Sys2Proof.Machine

/-- The residency of one tick (R458): the sleep state in force, and in S0 and S1 the level. S4 is counted at its exit. -/
def Core.residency (c : Core) : Core :=
  let k := c.sleepState
  if k = 4 then c
  else
    let c1 := c.bump (Reg.residS k) 1
    if k ≤ 1 then c1.bump (Reg.residPl (c.fld Reg.plStatus 2 0)) 1 else c1

/-- A tick: while VDD_AON is up the timebase counts (R439, R456), the residency counters count in B7, one message that waits for an
Ethernet route is sent, and the journal's staged entries reach their ring, which a boundary may wait for (R415, R417), unless the clocks are
paused or off (R450, R453). -/
def State.tick (s : State) : State :=
  if s.pwr.powered then
    let c1 : Core := { s.core with now := s.core.now + 1 }
    let c2 := if c1.bit Reg.startStatus 3 then c1.residency else c1
    let s1 : State := { s with core := c2 }
    if s.ticking then s1.sendByEthernet.jnlDrain.boundaryResume else s1
  else s

end Sys2Proof.Machine
end

