-- ==== Sys2Proof/Machine/Step.lean ====
section
/-! DEFINITION. One step of the block: the command at the front of the queue, or one timebase tick when none waits. -/

namespace Sys2Proof.Machine

/-- The state with the queue's first command taken off. -/
def State.rest (s : State) : State := { s with pending := s.pending.tail }

/-- One step: the first waiting command is executed with the queue's rest; on an empty queue one timebase tick passes (log entry 1). -/
def step (s : State) : Host.Outcome State Fault Refusal :=
  match s.pending with
  | [] => .next s.tick
  | i :: _ => exec i s.rest

/-- The state with the command that a word spells put at the front of its queue; the table gives no row bits, so no word spells one. -/
def State.withFetchWord (s : State) (nbits w : Nat) : State :=
  match Sys2Proof.decodeTableWord nbits w with
  | some i => { s with pending := i :: s.pending }
  | none => s

end Sys2Proof.Machine
end

