-- ==== Sys2Proof/Safety.lean ====
section
/-! DEFINITION. The terms that claims about the module use: a command that completes, memories in their canonical form, one-time
fuses, and what a command leaves alone. -/

namespace Sys2Proof.Machine

/-- The command completes from `s`, in a state of which `P` holds. -/
def runs (i : Instr) (s : State) (P : State → Prop) : Prop := ∃ t, exec i s = .next t ∧ P t

/-- HBM, SRAM, DDR and the Pattern flash are in the one canonical form that equal contents have. -/
def State.memCanonical (s : State) : Prop :=
  Memory.wf s.core.mem = true ∧ Memory.flashWf s.part.flash = true

/-- Bit `b` of byte `i` of key slot `k` is blown. -/
def Fuses.keyBit (f : Fuses) (k i b : Nat) : Bool := ((f.keyHash.getD k []).getD i 0).getLsbD b

/-- Every key fuse blown in `f` is blown in `g`, and every key revoked in `f` is revoked in `g` (R496). -/
def Fuses.onlySet (f g : Fuses) : Prop :=
  (∀ k i b, i < 64 → f.keyBit k i b = true → g.keyBit k i b = true) ∧ ∀ k, f.revoked.getD k false = true → g.revoked.getD k false = true

/-- Every byte of the module's own memory reads as before (R78). -/
def State.sameMemory (s t : State) : Prop := ∀ a, t.core.rdByte a = s.core.rdByte a

/-- Every byte of memory outside `n` bytes from local address `a` reads as before. -/
def State.sameMemoryBut (s t : State) (a n : Nat) : Prop :=
  ∀ b, b < a ∨ a + n ≤ b → t.core.rdByte b = s.core.rdByte b

/-- Every register but those at the listed offsets reads its stored value as before (R12). -/
def State.sameRegsBut (s t : State) (offs : List Nat) : Prop :=
  ∀ o, o ∉ offs → t.core.rd o = s.core.rd o

/-- The registers that an event which fires Doff writes (R478). -/
def eventRegs : List Nat := [Reg.doffStatus, Reg.doffTime, Reg.doffId, Reg.doffIgnored]

/-- Between commands: no event is left over, every descriptor's number has been given out, and every bucket has one of the 64
entries (R354), and the links are the twelve of R374. -/
def State.tidy (s : State) : Prop :=
  s.core.events = [] ∧ (∀ d ∈ s.work.descs, d.id < s.work.nextId) ∧ (∀ b ∈ s.red.buckets, b.idx < 64) ∧
  s.links.length = 12

/-- Everything but the core, the contexts and the queue is as before. -/
def State.sameUnits (s t : State) : Prop :=
  t.part = s.part ∧ t.pat = s.pat ∧ t.pwr = s.pwr ∧ t.work = s.work ∧ t.red = s.red ∧ t.net = s.net ∧ t.links = s.links ∧ t.integ = s.integ

/-! ## Resets and stages (R459 to R463) -/

/-- What a reset loses: contexts, engines, buckets, partner contexts and received messages, links, and every register but those kept. -/
def State.lostBut (t : State) (kept : List Nat) : Prop :=
  t.palm = [] ∧ t.work = Work.initial ∧ t.red = State.reset.red ∧ t.net = Net.initial ∧ t.links = State.reset.links ∧
  ∀ o, o ∉ kept → t.core.rd o = resetWord o

/-- The registers of a reset itself, whose first stage is `k`: START_STATUS, START_STAGE_AT, RST_CAUSE, HB_STATUS (R426) and PAD_HOLD (R457). -/
def resetRegs (k : Nat) : List Nat := [Reg.startStatus, Reg.startStageAt k, Reg.rstCause, Reg.hbStatus, Reg.padHold]

/-- The residency counters, which a warm reset keeps (R524). -/
def residRegs : List Nat := (List.range 0x80).map (Reg.residS 0 + ·)

/-- Command `c` is a warm reset that the module takes now (R459): RST_CTRL.WARM, a pulse of 3 us or more on WARM_RST_N outside a reset of
POR_N, also one that ends S4, or the tick of a reset command of the management queue. -/
def State.warmsBy (s : State) (c : Instr) : Prop :=
  s.pwr.powered = true ∧ s.pwr.tripped = false ∧
  ((c = .rstWarm ∧ s.ticking = true) ∨ (∃ ns, c = .warmRstN ns ∧ 3000 ≤ ns ∧ s.underPor ns = false) ∨
   (c = .resetCommandFire ∧ s.alive = true ∧ ∃ t, s.net.resetAt = some t ∧ t ≤ s.core.now.toNat))

/-- The stage at which command `c` fails, and its FAIL_CODE (R42, R47, R314, R343, R448, R456, R462, R463): none where nothing is wrong. -/
def State.stageFailure (s : State) (c : Instr) : Option (Nat × Nat) :=
  match c with
  | .stageB1 crcOk vddbOk => if s.pwr.fromS4 && !vddbOk then some (1, 0x21) else if crcOk then none else some (1, 0x01)
  | .stageB2 =>
    if chooseImage (checkSlot s.part.fuses s.part.flash 0).2.2 (checkSlot s.part.fuses s.part.flash 1).2.2 = none then some (2, 0x10) else none
  | .stageB3 _ (.failed _ _) => some (3, 0x21)
  | .stageB3 pllOk .good => if pllOk then none else some (3, 0x20)
  | .stageB4 tr =>
    match tr.hbmFail, ddrFault s.pat.layout tr with
    | some (code, _), _ => some (4, 0x30 + code)
    | none, some (code, _) => some (4, 0x38 + code)
    | none, none => none
  | .stageB5 => if applyReplacements s.pat.map (recordsOf s.part.flash 2) = none then some (5, 0x40) else none
  | .stageTimeout => some (s.core.fld Reg.startStatus 2 0, 0xF1)
  | _ => none

/-- The control-space blocks whose state lies on the Brim dies, which S3 keeps (R12, R454): the global and boot blocks, the reset and security
blocks, ports with their contexts, links, DDR and queues. -/
def brimBlock (o : Nat) : Prop :=
  o < 0x300 ∨ (0x1_0000 ≤ o ∧ o < 0x2_0000) ∨ (0x3_0000 ≤ o ∧ o < 0x5_0000) ∨ (0x20_0000 ≤ o ∧ o < 0x40_0000) ∨
  (0x50_0000 ≤ o ∧ o < 0x60_0000) ∨ (0x100_0000 ≤ o ∧ o < 0x110_0000)

/-- The registers that entry into or exit from a sleep state writes (R454, R455, R470). -/
def sleepRegs : List Nat := [Reg.sleepStatus, Reg.sleepCtrl, Reg.padHold, Reg.clkStatus]

/-! ## Engine stages (R76, R95, R137) -/

/-- The state as a stage of an engine's work for owner `o` sees it. -/
def State.readBy (s : State) (o : Owner) : State := { s with core := { s.core with reader := some o, want := [] } }

/-- A stage of work has every byte of other modules that it reads, and none of its requests is out: it takes effect at once. -/
def State.lacksNothing (s : State) (o : Owner) (stage : State → State) : Prop :=
  s.core.fetching o = false ∧ (stage (s.readBy o)).core.want = []

/-- A stage of a descriptor's work takes effect at once: its generation is not retired (R95, R137), and it lacks nothing. -/
def State.mayRun (s : State) (d : Desc) (stage : State → State) : Prop :=
  s.works d = true ∧ s.lacksNothing (.desc d.id) stage

/-! ## Palm instructions (R287 to R290) -/

/-- Context `n` of tile `t` holds `x` and runs, nothing blocks it, the module is Running and clocked (R450), and its next instruction,
which it can fetch from a line without an uncorrectable error, is opcode `opc` with bits [26:0] `w`. No event of an earlier command is
left over. -/
def State.atInstr (s : State) (t n opc : Nat) (w : BitVec 27) (x : Ctx) : Prop :=
  t < 88 ∧ n < 64 ∧ s.ctx? t n = some x ∧ s.ticking = true ∧ s.core.bit Reg.startStatus 3 = true ∧ s.core.ctxState t n = 1 ∧ x.blocked = false ∧
  s.core.pcCause x.pc = none ∧ s.core.isUe (gaLocal x.pc / 64) = false ∧ s.core.rdNat (gaLocal x.pc) 4 = opc * 2 ^ 27 + w.toNat ∧ s.core.events = []

/-- The counters of bytes that a load of a context of tile `t`, or the fetch of its instruction, may raise (R473). -/
def loadCounters (t : Nat) : List Nat := [Reg.tcntSramRd t, Reg.tcntHbmRd t, Reg.tcntDdrRd t, Reg.obsHbmRd, Reg.obsDdrRd]

/-- The context moved past its instruction. -/
def Ctx.next (x : Ctx) : Ctx := { x with pc := (x.pc + 4) % 2 ^ 56 }

/-- `u` is `s` with one instruction of a context done that leaves the context `y` and changes nothing else but the counters of
instructions (`vec` 1 for a vector instruction, R308), the counters of the bytes fetched, and the registers at `offs`. -/
def State.became (u s : State) (t n vec : Nat) (y : Ctx) (offs : List Nat) : Prop :=
  u.ctx? t n = some y ∧ (∀ a b, a ≠ t ∨ b ≠ n → u.ctx? a b = s.ctx? a b) ∧
  u.core.rd (Reg.palmInstr t) = s.core.rd (Reg.palmInstr t) + 1 ∧
  u.core.rd (Reg.palmVector t) = s.core.rd (Reg.palmVector t) + BitVec.ofNat 64 vec ∧
  u.sameRegsBut s (Reg.palmInstr t :: Reg.palmVector t :: (loadCounters t ++ offs)) ∧ u.sameMemory s ∧ s.sameUnits u

/-- `u` is `s` with a context halted by its instruction for `cause`: PALM_HALTS counts the causes above 0x02 (R73, R308). -/
def State.haltedBy (u s : State) (t n cause : Nat) : Prop :=
  u.core.ctxState t n = 3 ∧ u.core.fld (Reg.ctxStatus t n) 15 8 = cause ∧ u.palm = s.palm ∧
  u.core.rd (Reg.palmHalts t) = s.core.rd (Reg.palmHalts t) + (if 3 ≤ cause then 1 else 0) ∧
  u.core.rd (Reg.palmInstr t) = s.core.rd (Reg.palmInstr t) + 1 ∧
  u.sameRegsBut s ([Reg.palmInstr t, Reg.palmVector t, Reg.palmHalts t, Reg.ctxStatus t n, Reg.ctxCtrl t n] ++ loadCounters t) ∧
  u.sameMemory s ∧ s.sameUnits u

/-- The instructions with reserved fields or codes whose own statement gives none of them, with their opcodes (R289). -/
def palmOpcodes : List ((Nat → Nat → BitVec 27 → Instr) × Nat) :=
  [(.palmEnd, 0x00), (.ld, 0x04), (.waitne, 0x09), (.fence, 0x0A), (.dgap, 0x0C), (.tmnext, 0x0D), (.vld, 0x0F), (.vfma, 0x12), (.vmov, 0x16),
   (.vacc, 0x17), (.vstep, 0x18), (.vperm, 0x1B), (.palmEvent, 0x1C), (.vgth, 0x1D), (.vsct, 0x1E)]

/-- Bits [26:0] of an instruction of one of those opcodes, of ST or of VST that hold an unlisted code or a non-zero reserved field (R289, R290). -/
def illegalWord (opc : Nat) (w : BitVec 27) : Prop :=
  match opc with
  | 0x00 => w ≠ 0
  | 0x04 => 8 ≤ fF4 w
  | 0x05 => 4 ≤ fF4 w
  | 0x09 => fD w ≠ 0 ∨ fC w ≠ 0 ∨ fF w ≠ 0
  | 0x0A => fD w ≠ 0 ∨ fA w ≠ 0 ∨ fB w ≠ 0 ∨ fC w ≠ 0 ∨ 2 < fF w
  | 0x0D => 4 ≤ fF4 w ∨ fImm13 w ≠ 0
  | 0x0F => 9 < bitsOf (fF w) 6 3 ∨ bitsOf (fF w) 2 0 ≠ 0 ∨ (fC w ≠ 0 ∧ bitsOf (fF w) 6 3 ∉ [1, 3, 4])
  | 0x10 => bitsOf (fF w) 6 4 = 3 ∨ bitsOf (fF w) 1 0 ≠ 0 ∨ (bitsOf (fF w) 3 2 < 2 ∧ fC w ≠ 0) ∨
      (2 ≤ bitsOf (fF w) 3 2 ∧ bitsOf (fF w) 6 4 ∈ [0, 2])
  | 0x12 => bitsOf (fF w) 5 2 ≠ 0
  | 0x16 => fC w ≠ 0 ∨ 16 ≤ fB w ∨ 6 ≤ fF w ∨ (fB w ≠ 0 ∧ fF w ∉ [1, 2])
  | 0x17 => fB w ≠ 0 ∨ fC w ≠ 0 ∨ fF w ≠ 0
  | 0x18 => bitsOf (fF w) 1 0 ≠ 0
  | 0x1C => fD w ≠ 0 ∨ fF4 w ≠ 0
  | 0x0C | 0x1B | 0x1D | 0x1E => fC w ≠ 0 ∨ fF w ≠ 0
  | _ => False

/-- The codes of ALU with their results (R290), over unsigned and signed numbers. -/
def aluCodes (a b : Word) : List (Nat × Word) :=
  [(0, a + b), (1, a - b), (2, a &&& b), (3, a ||| b), (4, a ^^^ b),
   (5, BitVec.ofNat 64 (a.toNat * 2 ^ (b.toNat % 64))), (6, BitVec.ofNat 64 (a.toNat / 2 ^ (b.toNat % 64))),
   (7, BitVec.ofInt 64 (a.toInt / 2 ^ (b.toNat % 64))), (8, BitVec.ofNat 64 (a.toNat * b.toNat)),
   (9, BitVec.ofNat 64 (a.toNat * b.toNat / 2 ^ 64)), (10, if a.toInt < b.toInt then 1 else 0), (11, if a.toNat < b.toNat then 1 else 0),
   (12, BitVec.ofInt 64 (min a.toInt b.toInt)), (13, BitVec.ofInt 64 (max a.toInt b.toInt)),
   (14, if b = 0 then BitVec.allOnes 64 else a / b), (15, if b = 0 then a else a % b)]

/-- The codes of VINT with their results per lane (R290). -/
def vintCodes (a b : Lane) : List (Nat × Lane) :=
  [(0, a + b), (1, a - b), (2, a &&& b), (3, a ||| b), (4, a ^^^ b),
   (5, BitVec.ofNat 32 (a.toNat * 2 ^ (b.toNat % 32))), (6, BitVec.ofNat 32 (a.toNat / 2 ^ (b.toNat % 32))),
   (7, BitVec.ofInt 32 (a.toInt / 2 ^ (b.toNat % 32))), (8, BitVec.ofInt 32 (min a.toInt b.toInt)),
   (9, BitVec.ofInt 32 (max a.toInt b.toInt))]

/-- The codes of VOP with their results per lane (R290). -/
def vopCodes (a b : Lane) : List (Nat × Lane) :=
  [(0, fAdd a b), (1, fSub a b), (2, fMul a b), (3, fDiv a b), (4, minMax false a b), (5, minMax true a b),
   (6, (a &&& 0x7FFF_FFFF) ||| (b &&& 0x8000_0000))]

/-- The codes of VFN with their results per lane (R290). -/
def vfnCodes (a : Lane) : List (Nat × Lane) :=
  [(0, fSqrt a), (1, palmFree 1 a), (2, palmFree 2 a), (3, palmFree 3 a), (4, palmFree 4 a),
   (5, a &&& 0x7FFF_FFFF), (6, a ^^^ 0x8000_0000),
   (7, if isNanL a = true ∨ a &&& 0x7FFF_FFFF = 0 then 0 else if a.getLsbD 31 then 0xBF80_0000 else 0x3F80_0000),
   (8, if a.toNat % 2 ^ 31 < 0x7F80_0000 then 0x3F80_0000 else 0), (9, palmFree 9 a)]

/-- The codes of VSEL's condition (R290). -/
def vselCodes (a b : Lane) : List (Nat × Bool) :=
  [(0, fEq a b), (1, !fEq a b), (2, fLt a b), (3, fLt a b || fEq a b), (4, isNanL a || isNanL b)]

/-- The conditions of BR (R289). -/
def brCodes (a b : Word) : List (Nat × Bool) :=
  [(0, decide (a = b)), (1, decide (a ≠ b)), (2, decide (a.toInt < b.toInt)), (3, decide (b.toInt ≤ a.toInt)),
   (4, decide (a.toNat < b.toNat)), (5, decide (b.toNat ≤ a.toNat))]

/-- The fields that BAND reads of a group (R310). -/
def bandCodes (c : Core) (g : Nat) : List (Nat × Word) :=
  [(0, BitVec.ofNat 64 (c.fld (Reg.grpEta g) 31 0)), (1, BitVec.ofNat 64 (c.fld (Reg.grpEta g) 63 32)),
   (2, BitVec.ofNat 64 (c.fld (Reg.grpState g) 0 0)), (3, BitVec.ofNat 64 (c.fld (Reg.grpCount g) 47 0)),
   (4, BitVec.ofNat 64 (c.fld (Reg.grpState g) 4 4)), (5, BitVec.ofNat 64 (c.fld (Reg.grpRoot g) 32 32)),
   (6, BitVec.ofNat 64 c.step), (7, c.rd (Reg.grpLambda g))]

/-- `n` bytes of this module's memory at a global address, none of whose lines holds an uncorrectable error. -/
def Core.clean64 (c : Core) (ga n : Nat) : Prop := c.isLocal ga = true ∧ c.reach ga n = .mem ∧ c.ueLines ga n = []

/-- The counters that the copy of a page may raise, and the uncorrectable errors that the copy meets (R320, R422, R473). -/
def copyCounters : List Nat := [Reg.obsHbmRd, Reg.obsHbmRsv, Reg.hbCowWait, Reg.hbmUe] ++ (List.range 384).map Reg.hbmChStatus

/-- The counters of bytes that a store of a context of tile `t`, and the fetch of its instruction, may raise, and those of the copy
of a page that a checkpoint awaits (R422, R473). -/
def storeCounters (t : Nat) : List Nat :=
  [Reg.tcntSramWr t, Reg.tcntHbmWr t, Reg.tcntDdrWr t, Reg.tcntPlane t 1, Reg.obsHbmWr, Reg.obsDdrWr] ++ loadCounters t ++ copyCounters

/-- The registers that an entry of the error queue may change: its queue's (R107), the counters of the bytes that the entry writes
(R473), and those of the copy of a page that it makes (R422). -/
def errorRegs : List Nat := [Reg.qTail 16383, Reg.qStatus 16383, Reg.errqLost, Reg.obsHbmWr, Reg.obsDdrWr] ++ copyCounters

/-- Changes to `n` pages of memory wait for no copy: no page is pending for a checkpoint, or its staging takes them all (R422). -/
def Core.copiesFit (c : Core) (n : Nat) : Prop := c.pend = [] ∨ c.pageOut.length + n ≤ stagingPages

/-- No line of `n` bytes from local address `a` lies in the staging region of a window that is open or closing, where a write leaves
undefined bytes (R334). -/
def Core.unstaged (c : Core) (a n : Nat) : Prop := ∀ i, i < n → c.stageAt (a + i) = none

/-- Nothing of who waits is held back by memory, and no error of it is noted (R327, R422). -/
def Core.nothingHeld (c : Core) (w : Waiter) : Prop := c.awaited w = false ∧ ∀ p ∈ c.heldBad, p.1 ≠ w

/-- Every request has its tag (R388). -/
def Core.allTagged (c : Core) : Prop := ∀ r ∈ c.reqs, r.tagless = false

/-- Nothing waits for an engine's slot or for room in a ring: no store to a port, no direct entry, no entry of an engine's queue. -/
def State.noneWaiting (s : State) : Prop :=
  s.work.stores = [] ∧ s.work.direct = [] ∧ ∀ q ∈ s.core.engineQueues, s.core.qUsed q = 0

/-! ## The management queue (R399 to R402) -/

/-- Entry `e`, of the claimant where there is one, is the next that the management queue takes, and its OP is `op`, which the queue takes
now; `r` waits behind it, and its first entry is of a listed OP (one that is not is answered BAD_OP in its turn, R402). -/
def State.mgmtTurn (s : State) (op : Nat) (e : MgmtEntry) (r : List MgmtEntry) : Prop :=
  s.net.mgmtIn = e :: r ∧ s.net.attest = none ∧ e.op = op ∧ (∀ c, s.net.claim = some c → c.who.same e.from_ = true) ∧
  (s.net.claim = none → op ∈ [1, 3, 8, 0xA]) ∧ ∀ e2, r.head? = some e2 → e2.listed = true

/-- `u` is `s` with entry `e` taken and answered to its sender. -/
def State.answered (u s : State) (e : MgmtEntry) (r : List MgmtEntry) (result arg0 value : Nat) (data : List Byte) : Prop :=
  u.net.mgmtIn = r ∧ u.core.outbox = (s.core.sendUdp 0 e.from_ (e.answer result arg0 value data)).outbox

/-- The commands that run a management entry, with their OPs (R401). -/
def mgmtOps : List (Instr × Nat) :=
  [(.regRead, 1), (.regWrite, 2), (.flashRead, 3), (.flashErase true, 4), (.flashErase false, 4), (.flashWrite true, 5),
   (.flashWrite false, 5), (.calCommit, 6), (.calCapture, 7), (.attest, 8), (.mgmtReset, 9), (.mgmtClaim, 0xA), (.mgmtRelease, 0xB)]

/-- The head of the received messages is `m`, of KIND `k`, with `ms` behind it. -/
def State.msgTurn (s : State) (k : Nat) (m : Msg) (ms : List Msg) : Prop := s.net.rxMsgs = m :: ms ∧ leField m.bytes 0 1 = k

/-- A message of class H for module `dest` waits to be sent with the content `b`. -/
def State.sendsH (u : State) (dest : Nat) (b : List Byte) : Prop := ∃ r, r ∈ u.core.msgOut ∧ r.dest = dest ∧ r.cls = 4 ∧ r.bytes = b

/-! ## Counters and plain registers (R12, R139) -/

/-- Command `c` is a counter clear that clears `n` registers from `o` on and no others (R139). -/
def clearsRun (t p l : Nat) (c : Instr) (o n : Nat) : Prop :=
  (c, o, n) ∈ [(Instr.mittCntClear t, tileCtl t + 0x2010, 13), (.cuffCntClear t, tileCtl t + 0x3010, 13), (.gloveCntClear t, tileCtl t + 0x4060, 16),
   (.expCntClear t, tileCtl t + 0x4110, 10), (.sizerCntClear t, tileCtl t + 0x5028, 8), (.palmCntClear t, tileCtl t + 0x808, 8),
   (.tcntCntClear t, tileCtl t + 0x6008, 17), (.numCntClear, 0x338, 11), (.bandCntClear, 0x6_0028, 4), (.addCntClear, 0x18_0008, 9),
   (.redCntClear, 0x19_0018, 10), (.epCntClear p, 0x20_0050 + 0x1000 * p, 9), (.qlCntClear l, 0x30_0050 + 0x100 * l, 9),
   (.qrCntClear, 0x30_1010, 2), (.detCntClear, 0x1A_0040, 3), (.jnlCntClear, Reg.jnlEntries, 1), (.hbCntClear, 0x1A_0320, 2),
   (.droopCntClear, Reg.droopEvents 0, 32), (.pwrCntClear, 0x2_0400, 16)]

/-- Registers whose bits under the mask store what is written and which a store changes in no other way. -/
def plainRegs (i l m : Nat) : List (Nat × Word) :=
  [(Reg.numSrJobSeed, BitVec.allOnes 64), (Reg.jnlBatch i, BitVec.allOnes 64), (Reg.bandHistBase, 0x00FF_FFFF_FFFF_FFFF),
   (Reg.thermCtrl, 0x1F_FFFF), (Reg.doffLead, 0xF_FFFF), (Reg.dumpStep i, 0xFFFF_FFFF_FFFF), (Reg.qlSched l, BitVec.allOnes 64),
   (Reg.modRoute m, 0x0FFF_000F), (Reg.remoteTimeout, 0xFFFF_FFFF)]

end Sys2Proof.Machine
end

