-- ==== Sys2Proof/Certificates/Slice0/Obligations.lean ====
section
/-! DEFINITION. The statements about the model, in the order of OBLIGATIONS.json. -/

open Sys2Proof Sys2Proof.Machine

/-! ## The queue -/

/-- The queue form of the model (log entries 1 and 4), no rule of the spec: a step takes the command at the front of the queue and
executes it on the state with the queue's rest. -/
def Obligations.StepTakesFrontCommand : Prop :=
  ∀ (s : State) (c : Instr) (cs : List Instr), s.pending = c :: cs → step s = exec c { s with pending := cs }

/-! ## Resets and bring-up -/

/-- R459 to R461, R511: the resets that are not taken during a start. Each loses the contexts, engines, buckets, partner contexts, queues,
received messages and links, and every register but the reset's own, a warm one also keeping the residency counters (R524); each keeps the
fuse bank, the flash and the waiting commands, and begins at its stage with its cause, the start's registers alone changed by VDD_AON_RISE. A
pulse below 2 us changes no register and no unit. -/
def Obligations.ResetsBeginAtTheirStage : Prop :=
  (∀ s : State, s.pwr.powered = false → runs .vddAonRise s fun t =>
    t.lostBut [Reg.startStatus, Reg.startStageAt 0] ∧ t.core.now = 0 ∧
    t.core.fld Reg.startStatus 2 0 = 0 ∧ t.pwr.starting = true ∧ t.pwr.powered = true ∧ t.part = s.part ∧ t.pending = s.pending) ∧
  (∀ (s : State) (ns : Nat), s.pwr.powered = true → s.pwr.starting = false → 3000 ≤ ns → runs (.porN ns) s fun t =>
    t.lostBut (resetRegs 0) ∧ t.core.fld Reg.startStatus 2 0 = 0 ∧ t.core.fld Reg.rstCause 3 0 = 1 ∧ t.core.now = 0 ∧
    t.pwr.starting = true ∧ t.part = s.part ∧ t.pending = s.pending) ∧
  (∀ (s : State) (ns : Nat), s.pwr.powered = true → s.pwr.tripped = false → s.pwr.starting = false → 3000 ≤ ns →
    runs (.warmRstN ns) s fun t =>
      t.lostBut (resetRegs 1 ++ residRegs) ∧ t.core.fld Reg.startStatus 2 0 = 1 ∧ t.core.fld Reg.rstCause 3 0 = 2 ∧
      t.core.now = s.core.now ∧ t.pwr.starting = true ∧ t.part = s.part ∧ t.pending = s.pending) ∧
  (∀ (s : State) (ns : Nat) (c : Instr), ns < 2000 → (c = .porN ns ∨ c = .warmRstN ns) → runs c s fun t =>
    t.sameRegsBut s [] ∧ t.palm = s.palm ∧ s.sameUnits t) ∧
  (∀ s : State, s.pwr.starting = false → s.ticking = true → runs .rstWarm s fun t =>
    t.lostBut (resetRegs 1 ++ residRegs) ∧ t.core.fld Reg.startStatus 2 0 = 1 ∧ t.core.fld Reg.rstCause 3 0 = 4 ∧
    t.core.now = s.core.now ∧ t.pwr.starting = true ∧ t.part = s.part ∧ t.pending = s.pending) ∧
  (∀ s : State, runs .vddAonFall s fun t =>
    t.lostBut [] ∧ t.pwr.powered = false ∧ t.part = s.part ∧ t.pending = s.pending)

/-- R426, R457, R459, R523: a warm reset, by WARM_RST_N, also out of S4, by RST_CTRL or by the management queue, keeps HBM and DDR byte for
byte and zeroes every byte of tile SRAM. One that finds a checkpoint or a restore under way abandons it, RESULT 0x04 (log entry 81), and of
DRAM changes at most the entry that it leaves in the error queue. -/
def Obligations.WarmResetKeepsDramAndZeroesSram : Prop :=
  (∀ (s : State) (c : Instr), s.warmsBy c → s.core.fld Reg.hbStatus 2 0 = 0 → runs c s fun t =>
    (∀ a, a < 0x120_0000_0000 ∨ 0x800_0000_0000 ≤ a → t.core.rdByte a = s.core.rdByte a) ∧
    (∀ a, 0x400_0000_0000 ≤ a → a < 0x7F0_0000_0000 → t.core.rdByte a = 0)) ∧
  (∀ (s : State) (c : Instr), s.warmsBy c → s.core.fld Reg.hbStatus 2 0 ≠ 0 → runs c s fun t =>
    t.core.fld Reg.hbStatus 2 0 = 0 ∧ t.core.fld Reg.hbStatus 15 8 = 4 ∧ t.core.bit Reg.hbStatus 16 = true ∧
    (∀ a, a < 0x120_0000_0000 ∨ 0x800_0000_0000 ≤ a →
      (a < s.core.qSlot 16383 (s.core.fld (Reg.qTail 16383) 31 0) ∨ s.core.qSlot 16383 (s.core.fld (Reg.qTail 16383) 31 0) + 64 ≤ a) →
      t.core.rdByte a = s.core.rdByte a) ∧
    (∀ a, 0x400_0000_0000 ≤ a → a < 0x7F0_0000_0000 → t.core.rdByte a = 0))

/-- R462, R463: stages B0 to B6, each when it is the one running and finds nothing wrong, end with the next stage begun; the last leaves the
module Running, with FAIL_COUNT zero and every enabled link that trained UP. A failed stage, each with the code of what went wrong, VDD_B's at B1 after S4 and a stage's time limit
among them, raises FAIL_COUNT, keeps its stage and code, and restarts from B1 with cause 5; the third failure enters Bare mode at the stage
that failed. -/
def Obligations.StagesLeadToRunningOrRestart : Prop :=
  (∀ s : State, s.inStage 0 = true → runs .stageB0 s fun t => t.core.fld Reg.startStatus 2 0 = 1) ∧
  (∀ (s : State) (v : Bool), s.inStage 1 = true → (s.pwr.fromS4 = false ∨ v = true) → runs (.stageB1 true v) s fun t =>
    t.core.fld Reg.startStatus 2 0 = 2 ∧ t.core.fld Reg.moduleInfo 15 8 = (if s.part.fuses.grade = 0 then 88 else 76) ∧
    t.core.rd Reg.secSerial = BitVec.ofNat 64 s.part.fuses.serial) ∧
  (∀ (s : State) (i : Image), s.inStage 2 = true →
    chooseImage (checkSlot s.part.fuses s.part.flash 0).2.2 (checkSlot s.part.fuses s.part.flash 1).2.2 = some i →
    runs .stageB2 s fun t => t.core.fld Reg.startStatus 2 0 = 3 ∧ t.pat.run = some i ∧ t.pat.map = sectionMap s.part.fuses (i.section 1)) ∧
  (∀ s : State, s.inStage 3 = true → runs (.stageB3 true .good) s fun t =>
    t.core.fld Reg.startStatus 2 0 = 4 ∧ t.core.fld Reg.plStatus 2 0 = 2 ∧ t.core.bit Reg.clkStatus 0 = true) ∧
  (∀ (s : State) (tr : Training), s.inStage 4 = true → tr.hbmFail = none → ddrFault s.pat.layout tr = none →
    runs (.stageB4 tr) s fun t => t.core.fld Reg.startStatus 2 0 = 5 ∧ t.pwr.memKept = (s.pwr.phyCopy && tr.lost.isEmpty)) ∧
  (∀ (s : State) (m : List Nat), s.inStage 5 = true → applyReplacements s.pat.map (recordsOf s.part.flash 2) = some m →
    runs .stageB5 s fun t => t.core.fld Reg.startStatus 2 0 = 6 ∧ t.pat.map = m ∧
      ∀ a, 0x400_0000_0000 ≤ a → a < 0x7F0_0000_0000 → t.core.rdByte a = 0) ∧
  (∀ (s : State) (ups : List Nat), s.inStage 6 = true → runs (.stageB6 ups .good) s fun t =>
    t.core.fld Reg.startStatus 2 0 = 7 ∧ t.core.bit Reg.startStatus 3 = true ∧ t.core.fld Reg.startStatus 6 5 = 0 ∧ t.pwr.starting = false ∧
    ∀ l, l < 12 → l ∈ ups → s.core.bit (Reg.qlCtrl l) 0 = true → t.core.fld (Reg.qlStatus l) 1 0 = 2) ∧
  (∀ (s : State) (c : Instr) (k code : Nat), s.stageFailure c = some (k, code) → s.inStage k = true → s.core.fld Reg.startStatus 6 5 < 2 →
    runs c s fun t =>
      t.core.fld Reg.startStatus 6 5 = s.core.fld Reg.startStatus 6 5 + 1 ∧ t.core.fld Reg.startStatus 15 8 = k ∧
      t.core.fld Reg.startStatus 23 16 = code % 256 ∧ t.core.fld Reg.rstCause 3 0 = 5 ∧ t.core.fld Reg.startStatus 2 0 = 1 ∧
      t.core.bit Reg.startStatus 4 = false ∧ t.pwr.starting = true) ∧
  (∀ (s : State) (c : Instr) (k code : Nat), s.stageFailure c = some (k, code) → s.inStage k = true → 2 ≤ s.core.fld Reg.startStatus 6 5 →
    runs c s fun t =>
      t.core.bit Reg.startStatus 4 = true ∧ t.core.fld Reg.startStatus 6 5 = 3 ∧ t.core.fld Reg.startStatus 15 8 = k ∧
      t.core.fld Reg.startStatus 23 16 = code % 256 ∧ t.core.fld Reg.startStatus 2 0 = k ∧ t.palm = [] ∧ t.pwr.starting = false)

/-! ## Structure epochs and the wear journal -/

/-- R68, R70: an epoch request for the slot not running begins its check and shows REQ; one for the running slot ends at once with 0x20; a
check that finds a later image with equal fixed sections leaves it ready with result 2, one whose slot is not valid ends with 0x21 and the
slot's code; CANCEL ends a pending request with 0x24.
R64, R65, R432: a margin summary starts the margin period's counts again and changes no flash byte below the journal; a compaction makes
the other half active and leaves the old one erased, every byte 0xFF. -/
def Obligations.EpochsAndTheWearJournal : Prop :=
  (∀ (s : State) (slot : Nat) (r : Image), s.core.bit Reg.epochCtrl 0 = false → s.pat.run = some r → r.slot ≠ slot % 2 →
    s.pwr.keyOp = none → s.ticking = true → runs (.epochReq slot) s fun t =>
      t.pat.checking = some (slot % 2) ∧ t.core.bit Reg.epochCtrl 0 = true ∧ t.core.fld Reg.epochStatus 7 0 = 1 ∧ t.pat.run = some r) ∧
  (∀ (s : State) (slot : Nat) (r : Image), s.core.bit Reg.epochCtrl 0 = false → s.pat.run = some r → r.slot = slot % 2 →
    s.ticking = true → runs (.epochReq slot) s fun t =>
      t.core.fld Reg.epochStatus 7 0 = 0x20 ∧ t.core.bit Reg.epochStatus 16 = true ∧ t.core.bit Reg.epochCtrl 0 = false ∧ t.pat = s.pat) ∧
  (∀ (s : State) (slot : Nat) (r i : Image), s.pat.checking = some slot → s.pwr.epochQueued = false → s.pwr.keyQueued = none →
    (checkSlot s.part.fuses s.part.flash slot).2.2 = some i → s.pat.run = some r → r.seq < i.seq → fixedDiffers r i = none →
    s.ticking = true → runs .epochCheckDone s fun t =>
      t.pat.ready = some i ∧ t.pat.checking = none ∧ t.pat.run = some r ∧ t.core.fld Reg.epochStatus 7 0 = 2) ∧
  (∀ (s : State) (slot : Nat), s.pat.checking = some slot → s.pwr.epochQueued = false → s.pwr.keyQueued = none →
    (checkSlot s.part.fuses s.part.flash slot).2.2 = none → s.ticking = true → runs .epochCheckDone s fun t =>
      t.pat.ready = s.pat.ready ∧ t.pat.checking = none ∧ t.core.fld Reg.epochStatus 7 0 = 0x21 ∧
      t.core.fld Reg.epochStatus 15 8 = (checkSlot s.part.fuses s.part.flash slot).1 % 256 ∧ t.core.bit Reg.epochCtrl 0 = false) ∧
  (∀ s : State, s.core.bit Reg.epochCtrl 0 = true → s.pwr.keyQueued = none → s.ticking = true → runs .epochCancel s fun t =>
    t.pat.checking = none ∧ t.pat.ready = none ∧ t.pat.run = s.pat.run ∧ t.core.fld Reg.epochStatus 7 0 = 0x24 ∧
    t.core.bit Reg.epochStatus 16 = true ∧ t.core.bit Reg.epochCtrl 0 = false) ∧
  (∀ s : State, due s.integ.marginAt (2 ^ 42) s.core.now.toNat = true → s.ticking = true → runs .marginSummary s fun t =>
    t.core.ceRows = [] ∧ t.integ.marginAt = some s.core.now.toNat ∧ t.integ.adderFails = [] ∧ (∀ a, a < 0x110_0000 → sGet t.part.flash a 0xFF = sGet s.part.flash a 0xFF) ∧
    t.part.fuses = s.part.fuses) ∧
  (∀ s : State, halfRecords - 1024 ≤ s.core.fld Reg.journalStatus 18 1 → s.ticking = true → runs .journalCompaction s fun t =>
    t.core.fld Reg.journalStatus 0 0 = 1 - activeHalf s.part.flash ∧
    (∀ a, halfBase (activeHalf s.part.flash) ≤ a → a < halfBase (activeHalf s.part.flash) + 0x80_0000 →
      sGet t.part.flash a 0xFF = 0xFF) ∧
    (∀ a, a < 0x110_0000 → sGet t.part.flash a 0xFF = sGet s.part.flash a 0xFF) ∧ t.part.fuses = s.part.fuses)

/-! ## Contexts and descriptors -/

/-- R73, R287: START runs an idle or halted context from its CTX_PC with CTX_ARG in x1 and has no effect on another; STOP halts a running
context that no instruction blocks, and a waiting one, with cause 1; a waiting context whose word has changed runs on past its WAITNE.
That START leaves HALT_CAUSE 0 is the model's choice (log entry 31). -/
def Obligations.ContextsStartStopAndWake : Prop :=
  (∀ (s : State) (t n : Nat), t < s.core.active → n < 64 → (s.core.ctxState t n = 0 ∨ s.core.ctxState t n = 3) →
    s.ticking = true → runs (.ctxStart t n) s fun u =>
      u.core.ctxState t n = 1 ∧ u.core.fld (Reg.ctxStatus t n) 15 8 = 0 ∧
      u.ctx? t n = some (Ctx.started t n (s.core.rd (Reg.ctxPc t n)).toNat (s.core.rd (Reg.ctxArg t n))) ∧
      u.sameRegsBut s [Reg.ctxStatus t n] ∧ u.sameMemory s) ∧
  (∀ (s : State) (t n : Nat), (s.core.ctxState t n = 1 ∨ s.core.ctxState t n = 2) → s.ticking = true → runs (.ctxStart t n) s fun u => u = s) ∧
  (∀ (s : State) (t n : Nat), t < s.core.active → n < 64 → s.core.ctxState t n = 1 → (∀ x, s.ctx? t n = some x → x.blocked = false) →
    s.ticking = true → runs (.ctxStop t n) s fun u =>
      u.core.ctxState t n = 3 ∧ u.core.fld (Reg.ctxStatus t n) 15 8 = 1 ∧ u.palm = s.palm ∧ u.sameMemory s) ∧
  (∀ (s : State) (t n : Nat), t < s.core.active → n < 64 → s.core.ctxState t n = 2 → s.ticking = true → runs (.ctxStop t n) s fun u =>
    u.core.ctxState t n = 3 ∧ u.core.fld (Reg.ctxStatus t n) 15 8 = 1 ∧ u.palm = s.palm ∧ u.sameMemory s) ∧
  (∀ (s : State) (t n : Nat) (x : Ctx), s.ctx? t n = some x → s.core.ctxState t n = 2 →
    BitVec.ofNat 64 (leNat (s.palmRead t n x.waitAddr 8).2) ≠ x.waitVal → s.ticking = true → runs (.contextWake t n) s fun u =>
      u.core.ctxState t n = 1 ∧ u.ctx? t n = some { x with pc := (x.pc + 4) % 2 ^ 56 })

/-- R75, R81: one aligned 64-byte store to a port takes a free slot of its engine and raises OUTSTANDING; without a free slot it waits; any other
store sets BAD_SUBMIT and submits nothing. -/
def Obligations.SubmissionTakesSlotWaitsOrFails : Prop :=
  (∀ (s : State) (t n : Nat) (data : List Byte), t < s.core.active → n < 64 → data.length = 64 →
    s.slotFree t (leField data 1 1 % 16) = true → s.ticking = true → runs (.descriptorSubmit t n 0 data) s fun u =>
      (∃ d, u.work.descs = s.work.descs ++ [d] ∧ d.id = s.work.nextId ∧ d.tile = t ∧ d.src = .port n ∧ d.raw = data ∧ d.phase = .waiting) ∧
      u.core.fld (Reg.ctxStatus t n) 31 16 = (s.core.fld (Reg.ctxStatus t n) 31 16 + 1) % 65536 ∧ u.sameMemory s) ∧
  (∀ (s : State) (t n : Nat) (data : List Byte), t < s.core.active → n < 64 → data.length = 64 →
    s.slotFree t (leField data 1 1 % 16) = false → s.ticking = true → runs (.descriptorSubmit t n 0 data) s fun u =>
      u.work.descs = s.work.descs ∧ u.core = s.core ∧
      ∃ w, u.work.stores = s.work.stores ++ [w] ∧ w.tile = t ∧ w.n = n ∧ w.data = data) ∧
  (∀ (s : State) (t n off : Nat) (data : List Byte), t < s.core.active → n < 64 → (off ≠ 0 ∨ data.length ≠ 64) →
    s.ticking = true → runs (.descriptorSubmit t n off data) s fun u =>
      u.core.bit (Reg.ctxStatus t n) 3 = true ∧ u.work = s.work ∧ u.sameRegsBut s [Reg.ctxStatus t n] ∧ u.sameMemory s)

/-- R97, R100: a descriptor all of whose checks pass and whose context's earlier stores are acknowledged, without a shape record or a dump of what it reads, of the Glove or a reduction opcode without
fill wait, and whose records need no more bytes of another module, is handed to its engine with the step and its records latched. -/
def Obligations.AdmissionHandsOn : Prop :=
  ∀ (s s0 : State) (id : Nat) (d d1 d2 d3 : Desc), s0 = (s.readBy (.desc id)).latched id →
    d1 = { d with adm := s.work.nextAdm, step := s.core.step, latch := s.latchFor d } →
    id < s.work.nextId → s.desc? id = some d → d.phase = .waiting → s.storesSeen d = true → d.engine ≤ 3 → 2 ≤ d.engine → s.core.sleepState = 0 →
    s.core.genState d.gen = 0 → s.integ.boundaryWait = false → (d.flag 4 && s.fenced d) = false → s.core.guarded d.gen = false →
    d1.ownOk = true → d.recBase % 32 = 0 → s.core.okRange d.recBase (32 * d.nrec) = true → s.core.fetching (.desc id) = false →
    (s0.readRecs id d1).desc? id = some d2 → (s0.readRecs id d1).core.want = [] →
    d2.conds = [] → d2.formBad s.pat = none → d2.flag 3 = false →
    ((s0.readRecs id d1).readExtents id d2).desc? id = some d3 → d3.conds = [] →
    ((s0.readRecs id d1).readExtents id d2).extentChecks d3 = none →
    (∀ i, i < 8 → s.core.dumpMatch d3 i = none) → s.dumpsLeft id 1 = false → (d.opcode ≠ 0x61 ∨ bitOf d.arg 6 = false) →
    s.ticking = true → runs (.descriptorAdmit id) s fun u => ∃ e, u.desc? id = some e ∧ e.phase = .ready ∧ e.step = s.core.step ∧
      e.adm = s.work.nextAdm ∧ e.recs = d2.recs ∧ e.raw = d.raw ∧ e.ext = d2.ownExt

/-- R93 to R95, R97, R98: a descriptor with an ENGINE above 3, or of a retired generation, leaves its slot at admission, and one whose generation
is ahead stays as it is; a finished one leaves its slot; a cancelled one that has not started leaves its slot and is counted.
R98, R99: a descriptor that finished without a condition and asks for a record writes its 16 bytes, status DONE, at COMPL_ADDR in this
module's memory, when nothing waits to be taken in, no page's copy holds the record back, no open window stages there (R334), and software has placed no unnamed memory in a
record's span (R240). -/
def Obligations.DescriptorsLeaveWithTheirRecord : Prop :=
  (∀ (s : State) (id : Nat) (d : Desc), id < s.work.nextId → s.desc? id = some d → d.phase = .waiting → s.storesSeen d = true → s.core.sleepState = 0 → 3 < d.engine →
    s.ticking = true → runs (.descriptorAdmit id) s fun u => u.desc? id = none) ∧
  (∀ (s : State) (id : Nat) (d : Desc), id < s.work.nextId → s.desc? id = some d → d.phase = .waiting → s.storesSeen d = true → s.core.sleepState = 0 → d.engine ≤ 3 →
    s.core.genState d.gen = 2 → s.ticking = true → runs (.descriptorAdmit id) s fun u => u.desc? id = none ∧
      u.core.rd Reg.cancelledCount = s.core.rd Reg.cancelledCount + 1) ∧
  (∀ (s : State) (id : Nat) (d : Desc), id < s.work.nextId → s.desc? id = some d → d.phase = .waiting → d.engine ≤ 3 →
    s.core.genState d.gen = 1 → s.ticking = true → runs (.descriptorAdmit id) s fun u => u.desc? id = some d) ∧
  (∀ (s : State) (id : Nat) (d : Desc), id < s.work.nextId → s.desc? id = some d → d.phase = .finished → d.acks = 0 →
    s.dumpsLeft id 0 = false → s.ticking = true → runs (.descriptorComplete id) s fun u => u.desc? id = none) ∧
  (∀ (s : State) (id : Nat) (d : Desc), id < s.work.nextId → s.desc? id = some d → d.phase = .ready → s.core.genState d.gen = 2 →
    d.conds = [] → (∀ j ∈ s.work.dumps, j.desc = id → j.begun = false) → (∀ b ∈ s.red.buckets, b.desc ≠ id) →
    s.ticking = true → runs (.descriptorCancel id) s fun u => u.desc? id = none ∧
      u.core.rd Reg.cancelledCount = s.core.rd Reg.cancelledCount + 1) ∧
  (∀ (s : State) (id : Nat) (d : Desc), s.desc? id = some d → d.phase = .finished → d.acks = 0 → s.dumpsLeft id 0 = false → d.conds = [] →
    d.cwrite = true → d.compl % 16 = 0 → s.core.isLocal d.compl = true → s.core.okRange d.compl 16 = true →
    s.core.isUe (gaLocal d.compl / 64) = false → s.core.mustWait (gaLocal d.compl) = false → s.core.stageAt (gaLocal d.compl) = none →
    d.mixed = false → (∀ e ∈ s.work.descs, s.mixes d e = [] ∧ s.mixes e d = []) → s.work.stores = [] → s.work.direct = [] →
    s.ticking = true → runs (.descriptorComplete id) s fun u =>
      u.core.rdBytes (gaLocal d.compl) 16 = d.complBytes 0 ∧ u.sameMemoryBut s (gaLocal d.compl) 16)

/-- R77, R93: GEN_DOMAIN_d takes a write that keeps the window to 2,047 and does not move the floor back, and ignores any other;
MODULE_NO takes a write while no peer context is live: one of KIND 3 or 4 in the table of R393 (DEDUCED, log entry 36). -/
def Obligations.GenerationAndModuleNumberWrites : Prop :=
  (∀ (s : State) (d : Nat) (v : Word), d < 16 → (getF v 11 0 + 4096 - getF v 27 16) % 4096 ≤ 2047 →
    (getF v 27 16 + 4096 - s.core.fld (Reg.genDomain d) 27 16) % 4096 ≤ 2047 → s.ticking = true → runs (.genDomainWrite d v) s fun u =>
      u.core.rd (Reg.genDomain d) = v &&& 0x0FFF_0FFF ∧ u.sameRegsBut s [Reg.genDomain d] ∧ u.sameMemory s ∧ u.work = s.work) ∧
  (∀ (s : State) (d : Nat) (v : Word), d < 16 → (2047 < (getF v 11 0 + 4096 - getF v 27 16) % 4096 ∨
    2047 < (getF v 27 16 + 4096 - s.core.fld (Reg.genDomain d) 27 16) % 4096) → s.ticking = true → runs (.genDomainWrite d v) s fun u => u = s) ∧
  (∀ (s : State) (v : Word), s.core.peerLive = false → s.ticking = true → runs (.moduleNoWrite v) s fun u =>
    u.core.rd Reg.moduleNo = v &&& 0x8000_0FFF ∧ u.sameRegsBut s [Reg.moduleNo] ∧ u.sameMemory s) ∧
  (∀ (s : State) (v : Word), s.core.peerLive = true → s.ticking = true → runs (.moduleNoWrite v) s fun u => u = s)

/-! ## Engines -/

/-- R116, R124, R144, R243, R248: what one command of the Mitt does, its descriptor's generation in force and the bytes of other modules that
it reads fetched. A share that may start is started and runs its first pass, and its descriptor runs; a bank swap runs the next pass of the
share in the array; the combiner adds the next partial, as its slot of the area holds it, into its block lane by lane; a drain frees its
accumulator tile and, with the last of them, ends the share and the product.
That a share's start runs its first pass, and that a product's row is every remaining step of it, are the model's choice (log entry 43).
R110, R120, R148, R149, R305: a product, or statistics, whose one share has run its passes and has one finished accumulator tile left ends
with that tile's drain, for each of the four opcodes of the Mitt. -/
def Obligations.MittSharesRunAndProductsFinish : Prop :=
  (∀ (s : State) (t : Nat) (d : Desc) (h : Share), s.nextShare t = some (d, h) → h.piece = 0 → s.mayRun d (fun s => s.firstPass d h) →
    s.ticking = true → runs (.mittShare t) s fun u =>
      (∃ h1 ∈ u.work.shares, h1.started = true ∧ h1.pass = h.pass + 1 ∧ h1.desc = h.desc ∧ h1.tile = t) ∧
      (∃ e, u.desc? d.id = some e ∧ e.phase = .running) ∧ u.core.rd (Reg.mittPasses t) = s.core.rd (Reg.mittPasses t) + 1) ∧
  (∀ (s : State) (t : Nat) (d : Desc) (h : Share), s.inArray t = some (d, h) → s.accFree d h = true → h.piece = 0 →
    s.mayRun d (fun s => s.runPass d h) → s.ticking = true → runs (.mittPassSwap t) s fun u =>
      (∃ h1 ∈ u.work.shares, h1.started = true ∧ h1.pass = h.pass + 1 ∧ h1.desc = h.desc ∧ h1.tile = t) ∧
      u.core.rd (Reg.mittPasses t) = s.core.rd (Reg.mittPasses t) + 1) ∧
  (∀ (s : State) (t : Nat) (d : Desc) (h : Share) (a : AccTile) (p : Partial), s.combinable t = some (d, h, a, p) →
    s.core.ueLines (s.core.global p.slot) 16384 = [] → s.ticking = true → runs (.combineAdd t) s fun u =>
      u.work.parts = s.work.parts.erase p ∧ u.core.rd (Reg.sizerCombines t) = s.core.rd (Reg.sizerCombines t) + 1 ∧ u.sameMemory s ∧
      ∃ h1 ∈ u.work.shares, h1.desc = h.desc ∧
        ({ a with sums := List.zipWith fAdd a.sums (s.core.areaSums p.slot p.sums), next := a.next + 1 } : AccTile) ∈ h1.acc) ∧
  (∀ (s : State) (t : Nat) (d : Desc) (h : Share) (a : AccTile), s.drainable t = some (d, h, a) →
    h.acc.filter (· ≠ a) ≠ [] → s.mayRun d (fun s => s.drainEnd d h a) → s.ticking = true → runs (.mittDrain t) s fun u =>
      ({ h with acc := h.acc.filter (· ≠ a) } : Share) ∈ u.work.shares) ∧
  (∀ (s : State) (t : Nat) (d : Desc) (h : Share) (a : AccTile), s.drainable t = some (d, h, a) → d.phase = .running →
    s.work.shares = [h] → h.acc = [a] → h.started = true → h.pass = h.passCount d → s.mayRun d (fun s => s.drainEnd d h a) →
    s.ticking = true → runs (.mittDrain t) s fun u =>
      u.work.shares = [] ∧ u.core.rd (Reg.mittShares t) = s.core.rd (Reg.mittShares t) + 1 ∧
      ∃ e, u.desc? d.id = some e ∧ e.phase = .finished) ∧
  (∀ (s : State) (d : Desc) (h : Share) (a : AccTile) (c : Nat → Instr) (op : Nat),
    (c, op) ∈ [(Instr.mmFwd, 1), (Instr.mmDgrad, 2), (Instr.mmWgrad, 3), (Instr.mmStats, 4)] → s.drainable h.tile = some (d, h, a) →
    d.opcode = op → d.phase = .running → s.work.shares = [h] → h.acc = [a] → h.started = true → h.pass = h.passCount d →
    s.mayRun d (fun s => s.drainEnd d h a) → s.ticking = true → runs (c d.id) s fun u =>
      u.work.shares = [] ∧ u.core.rd (Reg.mittShares h.tile) = s.core.rd (Reg.mittShares h.tile) + 1 ∧
      (∃ e, u.desc? d.id = some e ∧ e.phase = .finished) ∧ exec (.mittDrain h.tile) s = .next u)

/-- R249: a descriptor that no earlier-admitted one of its tile precedes at the Sizer, and whose members' areas fit, is ready with its
reservations made, each of as many units as its member needs (which of the free units, log entry 73); one member whose area could never fit
ends it with SHAPE_OVER, DETAIL 2.
R247, R252: the next multicast fill of a descriptor is sent and counted at its tile, the one that admitted it (log entry 44). -/
def Obligations.SizerReservesAndFills : Prop :=
  (∀ (s : State) (id : Nat) (d : Desc), s.desc? id = some d → d.phase = .reserving → s.sizerQueue d = false → s.works d = true →
    (∀ t ∈ s.planTiles id, areaNeed d.pieces (s.work.shares.filter fun h => h.desc == id) t ≤ 4 * s.core.fld (Reg.sizerArea t) 15 8 ∧
      ((s.work.resv.filter fun r => r.tile == t).map (·.units.length)).sum +
        areaNeed d.pieces (s.work.shares.filter fun h => h.desc == id) t ≤ 4 * s.core.fld (Reg.sizerArea t) 15 8) →
    s.ticking = true → runs (.areaReserve id) s fun u => (∃ e, u.desc? id = some e ∧ e.phase = .ready) ∧
      ∀ t ∈ s.planTiles id, areaNeed d.pieces (s.work.shares.filter fun h => h.desc == id) t ≠ 0 →
        ({ desc := id, tile := t,
           units := (s.freeUnits t).take (areaNeed d.pieces (s.work.shares.filter fun h => h.desc == id) t) } : Resv) ∈ u.work.resv) ∧
  (∀ (s : State) (id t : Nat) (d : Desc), s.desc? id = some d → d.phase = .reserving → s.sizerQueue d = false → s.works d = true →
    t ∈ s.planTiles id → 4 * s.core.fld (Reg.sizerArea t) 15 8 < areaNeed d.pieces (s.work.shares.filter fun h => h.desc == id) t →
    s.ticking = true → runs (.areaReserve id) s fun u => (∃ e, u.desc? id = some e ∧ e.phase = .finished ∧ e.detail = 2 ∧ ∃ x ∈ e.conds, x.code = 0x10) ∧
      u.work.resv = s.work.resv) ∧
  (∀ (s : State) (id blk : Nat) (d : Desc) (f : Fill), s.desc? id = some d → (d.phase = .ready ∨ d.phase = .running) →
    (s.work.fills.filter fun f => f.desc == id)[blk]? = some f → f.sent = false →
    (∀ i g, i < blk → (s.work.fills.filter fun f => f.desc == id)[i]? = some g → g.sent = true) →
    s.mayRun d (fun s => s.sendFill d f) → s.ticking = true → runs (.multicastFill id blk) s fun u =>
      ({ f with sent := true } : Fill) ∈ u.work.fills ∧
      u.core.rd (Reg.sizerMcastFills d.tile) = s.core.rd (Reg.sizerMcastFills d.tile) + 1)

/-- R144, R157 to R159, R163, R165, R168, R169: a Cuff descriptor whose one job is the first of its tile, in its last step and with what it
reads fetched, is run and finished, for each of the five Cuff opcodes; one command of a tile's Cuff runs the last step of its first job and
counts it, or an earlier step of it, or takes a gradient job with both buffers empty. -/
def Obligations.CuffJobsRun : Prop :=
  (∀ (s : State) (id : Nat) (d : Desc) (j : CuffJob) (c : Nat → Instr) (op : Nat),
    (c, op) ∈ [(Instr.copy, 0x20), (Instr.permute, 0x21), (Instr.skewCopy, 0x22), (Instr.packInput, 0x23), (Instr.unpackInput, 0x24)] →
    s.desc? id = some d → d.opcode = op → s.work.jobs.filter (fun j => j.desc == id) = [j] → s.firstJob j.tile = some (d, j) →
    s.jobSteps d j ≤ j.done + 1 → s.mayRun d (fun s => s.runJob d j) → s.ticking = true → runs (c id) s fun u =>
      (∃ e, u.desc? id = some e ∧ e.phase = .finished) ∧ u.work.jobs = s.work.jobs.erase j ∧
      u.core.rd (Reg.cuffOps j.tile) = s.core.rd (Reg.cuffOps j.tile) + 1) ∧
  (∀ (s : State) (t : Nat) (j : CuffJob) (d : Desc), s.firstJob t = some (d, j) → 0x20 ≤ d.opcode → s.jobSteps d j ≤ j.done + 1 →
    s.mayRun d (fun s => s.runJob d j) → s.ticking = true → runs (.cuffJob t) s fun u =>
      u.work.jobs = s.work.jobs.erase j ∧ u.core.rd (Reg.cuffOps t) = s.core.rd (Reg.cuffOps t) + 1) ∧
  (∀ (s : State) (t : Nat) (j : CuffJob) (d : Desc), s.firstJob t = some (d, j) → 0x20 ≤ d.opcode → j.done + 1 < s.jobSteps d j →
    s.mayRun d (fun s => s.runJob d j) → s.ticking = true → runs (.cuffJob t) s fun u =>
      ({ j with started := true, done := j.done + 1 } : CuffJob) ∈ u.work.jobs ∧ u.core.rd (Reg.cuffOps t) = s.core.rd (Reg.cuffOps t)) ∧
  (∀ (s : State) (t : Nat) (j : CuffJob) (d : Desc), s.firstJob t = some (d, j) → d.opcode < 0x20 → s.works d = true →
    j.started = false → s.ticking = true → runs (.cuffJob t) s fun u =>
      ({ j with started := true } : CuffJob) ∈ u.work.jobs ∧ (u.bufsOf t).full0 = false ∧ (u.bufsOf t).full1 = false ∧ u.sameMemory s)

/-- R174, R182, R190, R208, R214, R217, R218: the descriptor that a tile's Glove runs, its running one or the next that it takes, ends with
its last stage, for each opcode of the Glove, once what that stage reads of other modules has been fetched; the sum counts its tokens when
no condition left an output of it unwritten (R103, R229); a
dispatch ends once the rows of every replica, and the M fields of its header, are acknowledged, and till then keeps the headers still to come.
R176, R185, R193: a free Glove takes its next descriptor; a chain's first stage runs up to its first sort or merge stage; a sort stage
passes on the entries sorted; a merge stage before a last flowing stage ends the chain; run-ahead tags a buffer with its descriptor and GEN. -/
def Obligations.GloveDescriptorsAndStagesRun : Prop :=
  (∀ (s s1 : State) (d : Desc) (g : GloveRun) (k : Nat), s1 = s.gloveBegin d.tile → s1.gloveRun? d.tile = some g → g.desc = d.id →
    s1.desc? d.id = some d → d.opcode = 0x40 → d.kinds[g.stage]? = some k → d.kinds.length = g.stage + 1 →
    s1.mayRun d (fun s => s.chainStage d k g) →
    s.ticking = true → runs (.runChain d.id) s fun u => u.gloveRun? d.tile = none ∧ ∃ e, u.desc? d.id = some e ∧ e.phase = .finished) ∧
  (∀ (s s1 : State) (d : Desc) (g : GloveRun), s1 = s.gloveBegin d.tile → s1.gloveRun? d.tile = some g → g.desc = d.id →
    s1.desc? d.id = some d → d.opcode = 0x43 → s1.mayRun d (fun s => s.resetTouch d) →
    s.ticking = true → runs (.touchReset d.id) s fun u => u.gloveRun? d.tile = none ∧ ∃ e, u.desc? d.id = some e ∧ e.phase = .finished) ∧
  (∀ (s s1 s2 : State) (d d2 : Desc) (g g1 : GloveRun), s1 = s.gloveBegin d.tile → s1.gloveRun? d.tile = some g → g.desc = d.id →
    s1.desc? d.id = some d → d.opcode = 0x41 → g.stage = 0 → s1.mayRun d (fun s => s.dispatchRows d g) →
    s2 = s1.stage d (fun s => s.dispatchRows d g) → s2.gloveRun? d.tile = some g1 → s2.desc? d.id = some d2 →
    ((s2.readBy (.desc d.id)).writeHeads d2 g1.tail.heads).2 = [] → s2.mayRun d2 (fun s => s.dispatchTail d2 g1) →
    s.ticking = true → runs (.expertDispatch d.id) s fun u => u.gloveRun? d.tile = none ∧ ∃ e, u.desc? d.id = some e ∧ e.phase = .finished) ∧
  (∀ (s : State) (d : Desc) (g : GloveRun), s.gloveRun? d.tile = some g → g.desc = d.id → s.desc? d.id = some d → d.opcode = 0x41 →
    g.stage = 1 → ((s.readBy (.desc d.id)).writeHeads d g.tail.heads).2 = [] → s.mayRun d (fun s => s.dispatchTail d g) →
    s.ticking = true → runs (.expertDispatch d.id) s fun u => u.gloveRun? d.tile = none ∧ ∃ e, u.desc? d.id = some e ∧ e.phase = .finished) ∧
  (∀ (s : State) (d : Desc) (g : GloveRun), s.gloveRun? d.tile = some g → g.desc = d.id → s.desc? d.id = some d → d.opcode = 0x41 →
    g.stage = 1 → ((s.readBy (.desc d.id)).writeHeads d g.tail.heads).2 ≠ [] → s.mayRun d (fun s => s.dispatchTail d g) →
    s.ticking = true → runs (.expertDispatch d.id) s fun u => u.gloveRun? d.tile =
      some { g with tail := { g.tail with heads := ((s.readBy (.desc d.id)).writeHeads d g.tail.heads).2 } }) ∧
  (∀ (s s1 : State) (d : Desc) (g : GloveRun), s1 = s.gloveBegin d.tile → s1.gloveRun? d.tile = some g → g.desc = d.id →
    s1.desc? d.id = some d → d.opcode = 0x42 → bitOf d.arg 0 = true → s1.mayRun d (fun s => s.returnStage d) →
    s.ticking = true → runs (.expertCombineReturn d.id) s fun u => u.gloveRun? d.tile = none ∧ ∃ e, u.desc? d.id = some e ∧ e.phase = .finished) ∧
  (∀ (s s1 : State) (d : Desc) (g : GloveRun), s1 = s.gloveBegin d.tile → s1.gloveRun? d.tile = some g → g.desc = d.id →
    s1.desc? d.id = some d → d.opcode = 0x42 → bitOf d.arg 0 = false → s1.mayRun d (fun s => s.sumStage d) →
    s.ticking = true → runs (.expertCombineSum d.id) s fun u => u.gloveRun? d.tile = none ∧ (∃ e, u.desc? d.id = some e ∧ e.phase = .finished ∧
      (e.undefined = false → u.core.rd (Reg.expSumTokens d.tile) = s.core.rd (Reg.expSumTokens d.tile) + BitVec.ofNat 64 d.m))) ∧
  (∀ (s : State) (t : Nat) (d : Desc), s.gloveNext t = some d → s.desc? d.id = some d → d.opcode ≠ 0x40 → s.ticking = true → runs (.gloveStart t) s fun u =>
    u.gloveRun? t = some { tile := t, desc := d.id, steal := s.core.bit (Reg.gloveCtrl t) 2, stage := 0, entries := [], offs := [],
                           tail := { heads := [], marks := [], loads := [] } } ∧ ∃ e, u.desc? d.id = some e ∧ e.phase = .running) ∧
  (∀ (s s1 : State) (t k : Nat) (d : Desc) (g : GloveRun), s1 = s.gloveBegin t → s1.chainAt t = some (d, 1) → s1.gloveRun? t = some g →
    d.tile = t → d.kinds[g.stage + 1]? = some k → (k = 2 ∨ k = 3) → s1.mayRun d (fun s => s.chainStage d 1 g) →
    s.ticking = true → runs (.gloveStart t) s fun u => ∃ g1, u.gloveRun? t = some g1 ∧ g1.desc = d.id ∧ g1.stage = g.stage + 1) ∧
  (∀ (s : State) (t : Nat) (d : Desc) (g : GloveRun), s.chainAt t = some (d, 2) → s.gloveRun? t = some g → d.tile = t →
    d.kinds[g.stage + 1]? = some 3 → s.mayRun d (fun s => s.chainStage d 2 g) → s.ticking = true → runs (.sortStage t) s fun u =>
      u.gloveRun? t = some { g with stage := g.stage + 1, entries := sortKeyed 64 g.entries }) ∧
  (∀ (s s1 : State) (t k : Nat) (d : Desc) (g g1 : GloveRun), s.chainAt t = some (d, 3) → s.gloveRun? t = some g → d.tile = t →
    d.kinds.length = g.stage + 2 → d.kinds[g.stage + 1]? = some k → (k = 4 ∨ k = 5) → s.mayRun d (fun s => s.chainStage d 3 g) →
    s1 = s.stage d (fun s => s.chainStage d 3 g) → s1.gloveRun? t = some g1 → s1.mayRun d (fun s => s.chainStage d k g1) →
    s.ticking = true → runs (.segmentMerge t) s fun u => u.gloveRun? t = none ∧ ∃ e, u.desc? d.id = some e ∧ e.phase = .finished) ∧
  (∀ (s : State) (t : Nat) (d e : Desc), s.core.bit (Reg.gloveCtrl t) 1 = true → s.aheadCandidates t = [d] → s.aheadOk d = true →
    s.lacksNothing (.ahead d.id) (fun s => s.aheadFill d) → (s.readBy (.ahead d.id)).aheadView d = some e → s.ticking = true → runs (.runAheadRead t) s fun u =>
      ∃ b, u.work.ra = s.work.ra ++ [b] ∧ b.tile = d.tile ∧ b.desc = d.id ∧ b.gen = d.gen ∧ (b.ue = [] → u.sameMemory s))

/-- R346 to R352, R354, R355: a reduction descriptor first at its send unit, what it reads of other modules fetched, is run and finished, a send remembered until its owner answers; a
filled RED_SEND waits no longer and lowers its counter; a BUCKET_ARM without a window takes the free entry it finds. -/
def Obligations.ReductionDescriptorsRun : Prop :=
  (∀ (s : State) (id : Nat) (d : Desc), s.sendTurn id 0x60 = some d → s.mayRun d (fun s => s.addLines d) → s.ticking = true → runs (.redLocal id) s fun u =>
    ∃ e, u.desc? id = some e ∧ e.phase = .finished) ∧
  (∀ (s : State) (id : Nat) (d : Desc), s.sendTurn id 0x63 = some d → s.mayRun d (fun s => s.zeroLines d) → s.ticking = true → runs (.redZero id) s fun u =>
    ∃ e, u.desc? id = some e ∧ e.phase = .finished) ∧
  (∀ (s : State) (id : Nat) (d : Desc), s.sendTurn id 0x61 = some d → s.mayRun d (fun s => s.sendLines d) → s.core.isSet = true →
    (s.core.isLocal (d.record 1).base = true ∨ s.core.reachable (gaModule (d.record 1).base) = true) → s.ticking = true → runs (.redSend id) s fun u =>
      (∃ e, u.desc? id = some e ∧ e.phase = .finished) ∧
      ∃ y, u.red.sends = s.red.sends ++ [y] ∧ y.desc = id ∧ y.landing = (d.record 1).base ∧ y.rank = d.b0 - 1 ∧ y.accepted = false) ∧
  (∀ (s : State) (id : Nat) (d : Desc), s.desc? id = some d → d.phase = .filling →
    (s.firstAdmitted fun e => e.phase == .filling && e.argF 5 0 == d.argF 5 0 &&
      decide (e.need ≤ s.core.fld (Reg.fillCnt (d.argF 5 0)) 15 0) && s.works e).map (·.id) = some id →
    s.ticking = true → runs (.redSendFillWait id) s fun u => (∃ e, u.desc? id = some e ∧ e.phase = .ready) ∧
      u.core.fld (Reg.fillCnt (d.argF 5 0)) 15 0 = s.core.fld (Reg.fillCnt (d.argF 5 0)) 15 0 - d.need) ∧
  (∀ (s : State) (id b : Nat) (d : Desc), s.desc? id = some d → d.opcode = 0x62 → d.phase = .ready → s.works d = true → d.nrec ≠ 4 → s.freeBucket = some b →
    s.ticking = true → runs (.bucketArm id) s fun u => (∃ e, u.desc? id = some e ∧ e.phase = .running) ∧
      ∃ x ∈ u.red.buckets, x.idx = b ∧ x.desc = id ∧ x.lines = d.m ∧ x.expect = d.k ∧ x.contribs = [])

/-! ## Band, placement and the fallback store -/

/-- R296, R412, R414: a boundary without Darn replacements, for whose records the journal's staging has room (R417), opens the next step: BAND_STEP rises by one modulo 2^48, every enabled group counts its
step unless the step was held for it, every hold is lifted, and SIGN_RECOVER of a counted group falls by one. -/
def Obligations.BoundaryClosesAndOpensStep : Prop :=
  ∀ s : State, s.core.bit Reg.bandCtrl 0 = false → s.core.bit Reg.darnCtrl 0 = false → s.jnlFull = false → s.ticking = true → runs .bandAdvance s fun u =>
    u.core.rd Reg.bandStep = BitVec.ofNat 64 ((s.core.step + 1) % 2 ^ 48) ∧ u.core.rd Reg.detStatus = 0 ∧
    u.core.bit Reg.bandCtrl 0 = false ∧ u.integ.boundaryWait = false ∧
    u.core.rd Reg.bandBoundaries = s.core.rd Reg.bandBoundaries + 1 ∧
    (∀ g, g < 256 → s.core.bit (Reg.grpCtrl g) 0 = true → s.core.bit (Reg.grpCtrl g) 1 = false →
      u.core.fld (Reg.grpCount g) 47 0 = (s.core.fld (Reg.grpCount g) 47 0 + 1) % 2 ^ 48 ∧
      u.core.fld (Reg.grpCtrl g) 47 32 = s.core.fld (Reg.grpCtrl g) 47 32 - 1) ∧
    (∀ g, g < 256 → s.core.bit (Reg.grpCtrl g) 0 = true → s.core.bit (Reg.grpCtrl g) 1 = true →
      u.core.fld (Reg.grpCount g) 47 0 = s.core.fld (Reg.grpCount g) 47 0 ∧ u.core.bit (Reg.grpCtrl g) 1 = false) ∧
    (∀ g, g < 256 → s.core.bit (Reg.grpCtrl g) 0 = false →
      u.core.rd (Reg.grpCount g) = s.core.rd (Reg.grpCount g) ∧ u.core.rd (Reg.grpLambda g) = s.core.rd (Reg.grpLambda g))

/-- R309, R311: a group's schedule registers take their stored bits at any time and leave COUNT and Λ; COUNT and Λ are taken only while the
group is disabled; BAND_STEP is taken while no boundary runs.
R223, R230, R267, R269: placement requests and cancels; PLACE_EPOCH taken while no dispatch is past admission; NUM_FB_BASE taken when it
lies 256-byte aligned in HBM job space; NUM_FB_NEXT taken at any time. -/
def Obligations.BandAndPlacementWrites : Prop :=
  (∀ (s : State) (g r : Nat) (v : Word), g < 256 → (r = 1 ∨ r = 2 ∨ r = 3 ∨ r = 4 ∨ r = 9) → s.ticking = true → runs (.groupScheduleWrite g r v) s fun u =>
    u.core.rd (grpReg g r) = v &&& BitVec.ofNat 64 (bandMasks (0x1000 + 8 * r)).1 ∧
    u.core.rd (Reg.grpCount g) = s.core.rd (Reg.grpCount g) ∧ u.core.rd (Reg.grpLambda g) = s.core.rd (Reg.grpLambda g) ∧
    u.sameRegsBut s [grpReg g r, Reg.grpEta g, Reg.grpState g] ∧ u.sameMemory s) ∧
  (∀ (s : State) (g : Nat) (v : Word), g < 256 → getF v 6 4 ≤ 4 → s.ticking = true → runs (.groupScheduleWrite g 0 v) s fun u =>
    u.core.rd (Reg.grpCtrl g) = v &&& BitVec.ofNat 64 (bandMasks 0x1000).1 ∧
    u.core.rd (Reg.grpCount g) = s.core.rd (Reg.grpCount g) ∧ u.core.rd (Reg.grpLambda g) = s.core.rd (Reg.grpLambda g)) ∧
  (∀ (s : State) (g : Nat) (v : Word), g < 256 → s.core.bit (Reg.grpCtrl g) 0 = false → s.ticking = true → runs (.groupRestoreWrite g 5 v) s fun u =>
    u.core.rd (Reg.grpCount g) = BitVec.ofNat 64 (v.toNat % 2 ^ 48) ∧ u.sameRegsBut s [Reg.grpCount g] ∧ u.sameMemory s) ∧
  (∀ (s : State) (g : Nat) (v : Word), g < 256 → s.core.bit (Reg.grpCtrl g) 0 = false → s.ticking = true → runs (.groupRestoreWrite g 6 v) s fun u =>
    u.core.rd (Reg.grpLambda g) = v ∧ u.sameRegsBut s [Reg.grpLambda g] ∧ u.sameMemory s) ∧
  (∀ (s : State) (g r : Nat) (v : Word), s.core.bit (Reg.grpCtrl g) 0 = true → s.ticking = true → runs (.groupRestoreWrite g r v) s fun u => u = s) ∧
  (∀ (s : State) (v : Word), s.integ.boundaryWait = false → s.ticking = true → runs (.bandStepWrite v) s fun u =>
    u.core.rd Reg.bandStep = BitVec.ofNat 64 (v.toNat % 2 ^ 48) ∧ u.sameRegsBut s [Reg.bandStep] ∧ u.sameMemory s) ∧
  (∀ (s : State) (v : Word), s.integ.boundaryWait = true → s.ticking = true → runs (.bandStepWrite v) s fun u => u = s) ∧
  (∀ s : State, s.ticking = true → runs .placeEpochReq s fun u =>
    u.core.bit Reg.placeCtrl 0 = true ∧ u.sameRegsBut s [Reg.placeCtrl] ∧ u.sameMemory s) ∧
  (∀ s : State, s.ticking = true → runs .placeEpochCancel s fun u =>
    u.core.bit Reg.placeCtrl 0 = false ∧ u.sameRegsBut s [Reg.placeCtrl] ∧ u.sameMemory s) ∧
  (∀ (s : State) (v : Word), (∀ d ∈ s.work.descs, d.engine = 2 → d.opcode = 0x41 → d.phase = .waiting) →
    s.ticking = true → runs (.placeEpochWrite v) s fun u =>
      u.core.rd Reg.placeEpoch = BitVec.ofNat 64 (v.toNat % 2 ^ 32) ∧ u.sameRegsBut s [Reg.placeEpoch] ∧ u.sameMemory s) ∧
  (∀ (s : State) (v : Word) (d : Desc), d ∈ s.work.descs → d.engine = 2 → d.opcode = 0x41 → d.phase ≠ .waiting →
    s.ticking = true → runs (.placeEpochWrite v) s fun u => u = s) ∧
  (∀ (s : State) (v : Word), v.toNat % 256 = 0 → s.core.hbmJob (v.toNat % 2 ^ 44) = true → s.ticking = true → runs (.numFbBaseWrite v) s fun u =>
    u.core.rd Reg.numFbBase = BitVec.ofNat 64 (v.toNat % 2 ^ 56) ∧ u.sameRegsBut s [Reg.numFbBase] ∧ u.sameMemory s) ∧
  (∀ (s : State) (v : Word), (v.toNat % 256 ≠ 0 ∨ s.core.hbmJob (v.toNat % 2 ^ 44) = false) →
    s.ticking = true → runs (.numFbBaseWrite v) s fun u => u = s) ∧
  (∀ (s : State) (v : Word), s.ticking = true → runs (.numFbNextWrite v) s fun u =>
    u.core.rd Reg.numFbNext = BitVec.ofNat 64 (v.toNat % 2 ^ 32) ∧ u.sameRegsBut s [Reg.numFbNext] ∧ u.sameMemory s)

/-! ## Detectors -/

/-- R409 to R414: a check requested; one that finds a finite loss, no non-finite rise and no spike moves the average; one whose loss is not
finite holds the step for every enabled group; a hold by software; its release; the arming count reset; a guarded descriptor stopped. -/
def Obligations.DetectorsCheckHoldAndRelease : Prop :=
  (∀ s : State, s.ticking = true → runs .detCheck s fun u => u.core.bit Reg.detCtrl 0 = true ∧ u.sameRegsBut s [Reg.detCtrl] ∧ u.sameMemory s) ∧
  (∀ s : State, s.core.bit Reg.detCtrl 0 = true → s.integ.boundaryWait = false →
    isFinL (BitVec.ofNat 32 (s.core.fld Reg.detLoss 31 0)) = true → s.core.nfTotal ≤ s.integ.nfPrev → s.core.fld Reg.detAvg 47 32 = 0 →
    s.ticking = true → runs .detCheckEvaluate s fun u =>
      u.core.bit Reg.detCtrl 0 = false ∧ u.core.rd Reg.detChecks = s.core.rd Reg.detChecks + 1 ∧
      u.core.fld Reg.detAvg 31 0 = s.core.fld Reg.detLoss 31 0 ∧ u.core.fld Reg.detAvg 47 32 = 1 ∧
      u.core.rd Reg.detStatus = s.core.rd Reg.detStatus) ∧
  (∀ s : State, s.core.bit Reg.detCtrl 0 = true → s.integ.boundaryWait = false →
    isFinL (BitVec.ofNat 32 (s.core.fld Reg.detLoss 31 0)) = false → s.ticking = true → runs .detCheckEvaluate s fun u =>
      u.core.bit Reg.detCtrl 0 = false ∧ u.core.rd Reg.detChecks = s.core.rd Reg.detChecks + 1 ∧
      u.core.bit Reg.detStatus 0 = true ∧ u.core.bit Reg.detStatus 1 = true ∧ u.core.rd Reg.detAvg = s.core.rd Reg.detAvg ∧
      (s.core.held = false → ∀ g, g < 256 → s.core.bit (Reg.grpCtrl g) 0 = true → u.core.bit (Reg.grpCtrl g) 1 = true)) ∧
  (∀ s : State, s.core.held = false → s.ticking = true → runs .detHold s fun u =>
    u.core.bit Reg.detStatus 0 = true ∧ u.core.bit Reg.detStatus 3 = true ∧ u.core.rd Reg.detHolds = s.core.rd Reg.detHolds + 1 ∧
    ∀ g, g < 256 → s.core.bit (Reg.grpCtrl g) 0 = true → u.core.bit (Reg.grpCtrl g) 1 = true) ∧
  (∀ s : State, s.core.held = true → s.ticking = true → runs .detRelease s fun u =>
    u.core.rd Reg.detStatus = 0 ∧ (∀ g, g < 256 → u.core.bit (Reg.grpCtrl g) 1 = false) ∧ u.sameMemory s ∧ u.work = s.work) ∧
  (∀ s : State, s.ticking = true → runs .detArmReset s fun u =>
    u.core.fld Reg.detAvg 47 32 = 0 ∧ u.core.fld Reg.detAvg 31 0 = s.core.fld Reg.detAvg 31 0 ∧ u.sameRegsBut s [Reg.detAvg] ∧
    u.sameMemory s) ∧
  (∀ (s : State) (id : Nat) (d : Desc), id < s.work.nextId → s.desc? id = some d → s.core.guarded d.gen = true → d.phase = .ready →
    d.engine ≤ 2 → d.conds = [] → (∀ j ∈ s.work.dumps, j.desc = id → j.begun = false) → (∀ b ∈ s.red.buckets, b.desc ≠ id) → s.ticking = true → runs (.heldDescriptorStop id) s fun u =>
      u.desc? id = none ∧ u.core.rd Reg.detStopped = s.core.rd Reg.detStopped + 1)


/-! ## Palm -/

/-- R289, R290: what ALU, ALUI, LIS, SFP and SPR put in x_d or in RC and TID, for every code; nothing else changes but the PC and the counters
of instructions. What the spec leaves open of an SFP result is not stated. -/
def Obligations.ScalarInstructionsGiveTheirResults : Prop :=
  (∀ (s : State) (t n : Nat) (w : BitVec 27) (x : Ctx) (v : Word), s.atInstr t n 0x01 w x → fC w = 0 →
    (fF w, v) ∈ aluCodes (x.xr (fA w)) (x.xr (fB w)) → runs (.alu t n w) s fun u => u.became s t n 0 (x.setX (fD w) v).next []) ∧
  (∀ (s : State) (t n : Nat) (w : BitVec 27) (x : Ctx) (v : Word), s.atInstr t n 0x02 w x → fF4 w ≤ 13 →
    (fF4 w, v) ∈ aluCodes (x.xr (fA w)) ((BitVec.ofNat 13 (fImm13 w)).signExtend 64) →
    runs (.alui t n w) s fun u => u.became s t n 0 (x.setX (fD w) v).next []) ∧
  (∀ (s : State) (t n : Nat) (w : BitVec 27) (x : Ctx), s.atInstr t n 0x03 w x → runs (.lis t n w) s fun u =>
    u.became s t n 0 (x.setX (fD w) (BitVec.ofNat 64 ((x.xr (fD w)).toNat * 2 ^ 22 + fImm22 w))).next []) ∧
  (∀ (s : State) (t n : Nat) (w : BitVec 27) (x : Ctx) (l : Lane), s.atInstr t n 0x19 w x → fC w = 0 → (fF w = 4 → fB w = 0) →
    (fF w, l) ∈ [(0, fAdd ((x.xr (fA w)).truncate 32) ((x.xr (fB w)).truncate 32)),
      (1, fSub ((x.xr (fA w)).truncate 32) ((x.xr (fB w)).truncate 32)), (2, fMul ((x.xr (fA w)).truncate 32) ((x.xr (fB w)).truncate 32)),
      (3, fDiv ((x.xr (fA w)).truncate 32) ((x.xr (fB w)).truncate 32)), (4, fSqrt ((x.xr (fA w)).truncate 32)),
      (5, minMax false ((x.xr (fA w)).truncate 32) ((x.xr (fB w)).truncate 32)),
      (6, minMax true ((x.xr (fA w)).truncate 32) ((x.xr (fB w)).truncate 32))] →
    runs (.sfp t n w) s fun u => ∃ v : Word, v.truncate 32 = l ∧ u.became s t n 0 (x.setX (fD w) v).next []) ∧
  (∀ (s : State) (t n : Nat) (w : BitVec 27) (x : Ctx), s.atInstr t n 0x19 w x → fC w = 0 → fF w = 7 → runs (.sfp t n w) s fun u =>
    u.became s t n 0
      (x.setX (fD w) (if fLt ((x.xr (fA w)).truncate 32) ((x.xr (fB w)).truncate 32) = true then 1 else 0)).next []) ∧
  (∀ (s : State) (t n : Nat) (w : BitVec 27) (x : Ctx), s.atInstr t n 0x19 w x → fB w = 0 → fC w = 0 → fF w = 8 →
    runs (.sfp t n w) s fun u => ∃ v : Word, v.truncate 32 = ofIntL (x.xr (fA w)).toInt ∧ u.became s t n 0 (x.setX (fD w) v).next []) ∧
  (∀ (s : State) (t n : Nat) (w : BitVec 27) (x : Ctx) (i : Int), s.atInstr t n 0x19 w x → fB w = 0 → fC w = 0 → fF w = 9 →
    truncInt 64 ((x.xr (fA w)).truncate 32) = some i → runs (.sfp t n w) s fun u =>
      u.became s t n 0 (x.setX (fD w) (BitVec.ofInt 64 i)).next []) ∧
  (∀ (s : State) (t n : Nat) (w : BitVec 27) (x : Ctx), s.atInstr t n 0x19 w x → fB w = 0 → fC w = 0 → fF w = 10 →
    runs (.sfp t n w) s fun u =>
      ∃ v : Word, v.toNat % 2 ^ 16 = toBf16 ((x.xr (fA w)).truncate 32) % 2 ^ 16 ∧ u.became s t n 0 (x.setX (fD w) v).next []) ∧
  (∀ (s : State) (t n : Nat) (w : BitVec 27) (x y : Ctx), s.atInstr t n 0x0E w x → fImm13 w = 0 →
    (((fF4 w = 1 ∨ fF4 w = 3) → fD w = 0) ∧ (fF4 w ≠ 1 → fF4 w ≠ 3 → fA w = 0)) →
    (fF4 w, y) ∈ [(0, x.setX (fD w) x.rc), (1, { x with rc := x.xr (fA w) }), (2, x.setX (fD w) (BitVec.ofNat 64 x.tid)),
      (3, { x with tid := (x.xr (fA w)).toNat % 2 ^ 24 }), (4, x.setX (fD w) (BitVec.ofNat 64 s.core.step)),
      (5, x.setX (fD w) s.core.now), (6, x.setX (fD w) (BitVec.ofNat 64 (64 * t + n))),
      (7, x.setX (fD w) (BitVec.ofNat 64 s.core.moduleNo))] →
    runs (.spr t n w) s fun u => u.became s t n 0 y.next [])

/-- R287, R289: where BR, JAL and JR go; END and TRAP halt their context; FENCE passes when every earlier store is acknowledged and waits,
changing nothing, while a release or full fence has stores outstanding. -/
def Obligations.ControlInstructionsMoveThePc : Prop :=
  (∀ (s : State) (t n : Nat) (w : BitVec 27) (x : Ctx) (b : Bool), s.atInstr t n 0x06 w x →
    (bitsOf w.toNat 16 14, b) ∈ brCodes (x.xr (fD w)) (x.xr (fA w)) → runs (.br t n w) s fun u =>
      u.became s t n 0 (if b then
        { x with pc := (((x.pc : Int) + 4 * (BitVec.ofNat 14 (bitsOf w.toNat 13 0)).toInt) % 2 ^ 56).toNat } else x.next) []) ∧
  (∀ (s : State) (t n : Nat) (w : BitVec 27) (x : Ctx), s.atInstr t n 0x07 w x → runs (.jal t n w) s fun u =>
    u.became s t n 0 { x.setX (fD w) (BitVec.ofNat 64 ((x.pc + 4) % 2 ^ 56)) with
      pc := (((x.pc : Int) + 4 * (BitVec.ofNat 22 (fImm22 w)).toInt) % 2 ^ 56).toNat } []) ∧
  (∀ (s : State) (t n : Nat) (w : BitVec 27) (x : Ctx), s.atInstr t n 0x08 w x → fB w = 0 → fC w = 0 → fF w = 0 →
    (x.xr (fA w)).toNat % 4 = 0 → (x.xr (fA w)).toNat < 2 ^ 56 → runs (.jr t n w) s fun u =>
      u.became s t n 0 { x.setX (fD w) (BitVec.ofNat 64 ((x.pc + 4) % 2 ^ 56)) with pc := (x.xr (fA w)).toNat } []) ∧
  (∀ (s : State) (t n : Nat) (x : Ctx), s.atInstr t n 0x00 0 x → runs (.palmEnd t n 0) s fun u => u.haltedBy s t n 2) ∧
  (∀ (s : State) (t n : Nat) (w : BitVec 27) (x : Ctx), s.atInstr t n 0x1F w x → runs (.trap t n w) s fun u => u.haltedBy s t n 3) ∧
  (∀ (s : State) (t n : Nat) (w : BitVec 27) (x : Ctx), s.atInstr t n 0x0A w x → w.toNat ≤ 2 → (w = 0 ∨ s.storesOut t n = false) →
    runs (.fence t n w) s fun u => u.became s t n 0 x.next []) ∧
  (∀ (s : State) (t n : Nat) (w : BitVec 27) (x : Ctx), s.atInstr t n 0x0A w x → w.toNat ≤ 2 → w ≠ 0 → s.storesOut t n = true →
    runs (.fence t n w) s fun u => u = s)

/-- R289, R290: an instruction with an unlisted code or a non-zero reserved field halts its context with cause 0x03, for every opcode that has
such a code or field; a store that halts leaves nothing taken in. BAND's unlisted codes stand with its results below. That an instruction which
halts counts in PALM_INSTR is the model's choice (log entry 24). -/
def Obligations.IllegalInstructionsHalt : Prop :=
  (∀ (s : State) (t n : Nat) (w : BitVec 27) (x : Ctx), s.atInstr t n 0x01 w x → (16 ≤ fF w ∨ fC w ≠ 0) → runs (.alu t n w) s fun u =>
    u.haltedBy s t n 3) ∧
  (∀ (s : State) (t n : Nat) (w : BitVec 27) (x : Ctx), s.atInstr t n 0x02 w x → 14 ≤ fF4 w → runs (.alui t n w) s fun u =>
    u.haltedBy s t n 3) ∧
  (∀ (s : State) (t n : Nat) (w : BitVec 27) (x : Ctx), s.atInstr t n 0x06 w x → 6 ≤ bitsOf w.toNat 16 14 → runs (.br t n w) s fun u =>
    u.haltedBy s t n 3) ∧
  (∀ (s : State) (t n : Nat) (w : BitVec 27) (x : Ctx), s.atInstr t n 0x08 w x → (fB w ≠ 0 ∨ fC w ≠ 0 ∨ fF w ≠ 0) →
    runs (.jr t n w) s fun u => u.haltedBy s t n 3) ∧
  (∀ (s : State) (t n : Nat) (w : BitVec 27) (x : Ctx), s.atInstr t n 0x0E w x → (8 ≤ fF4 w ∨ fImm13 w ≠ 0) → runs (.spr t n w) s fun u =>
    u.haltedBy s t n 3) ∧
  (∀ (s : State) (t n : Nat) (w : BitVec 27) (x : Ctx), s.atInstr t n 0x11 w x → (7 ≤ bitsOf (fF w) 3 0 ∨ fC w ≠ 0 ∨ bitsOf (fF w) 5 4 ≠ 0) →
    runs (.vop t n w) s fun u => u.haltedBy s t n 3) ∧
  (∀ (s : State) (t n : Nat) (w : BitVec 27) (x : Ctx), s.atInstr t n 0x13 w x → (10 ≤ fF w ∨ fB w ≠ 0 ∨ fC w ≠ 0) →
    runs (.vfn t n w) s fun u => u.haltedBy s t n 3) ∧
  (∀ (s : State) (t n : Nat) (w : BitVec 27) (x : Ctx), s.atInstr t n 0x14 w x → 5 ≤ fF w → runs (.vsel t n w) s fun u =>
    u.haltedBy s t n 3) ∧
  (∀ (s : State) (t n : Nat) (w : BitVec 27) (x : Ctx), s.atInstr t n 0x15 w x → (3 ≤ fF w ∨ fB w ≠ 0 ∨ fC w ≠ 0) →
    runs (.vred t n w) s fun u => u.haltedBy s t n 3) ∧
  (∀ (s : State) (t n : Nat) (w : BitVec 27) (x : Ctx), s.atInstr t n 0x19 w x → (11 ≤ fF w ∨ fC w ≠ 0) → runs (.sfp t n w) s fun u =>
    u.haltedBy s t n 3) ∧
  (∀ (s : State) (t n : Nat) (w : BitVec 27) (x : Ctx), s.atInstr t n 0x1A w x → (10 ≤ fF w ∨ fC w ≠ 0) → runs (.vint t n w) s fun u =>
    u.haltedBy s t n 3) ∧
  (∀ (s : State) (t n opc : Nat) (w : BitVec 27) (x : Ctx) (c : Nat → Nat → BitVec 27 → Instr), (c, opc) ∈ palmOpcodes → illegalWord opc w →
    s.atInstr t n opc w x → s.integ.boundaryWait = false → runs (c t n w) s fun u => u.haltedBy s t n 3) ∧
  (∀ (s : State) (t n opc : Nat) (w : BitVec 27) (x : Ctx) (c : Nat → Nat → BitVec 27 → Instr), (c, opc) ∈ [(Instr.st, 0x05), (Instr.vst, 0x10)] →
    illegalWord opc w → s.atInstr t n opc w x → s.noneWaiting → runs (c t n w) s fun u => u.haltedBy s t n 3)

/-- R298, R299, R310: BAND reads the field of a group that f4 names, a code above 7 being illegal; DGAP gives the factor of the decay owed,
by the table of R299. That the factor is exactly 1.0 wherever the sum of decays is 0, also with a step behind n, is the model's reading (log
entry 27). -/
def Obligations.BandReadsAndDecayGaps : Prop :=
  (∀ (s : State) (t n : Nat) (w : BitVec 27) (x : Ctx) (v : Word), s.atInstr t n 0x0B w x → s.integ.boundaryWait = false → fImm13 w = 0 →
    (fF4 w, v) ∈ bandCodes s.core ((x.xr (fA w)).toNat % 256) → runs (.band t n w) s fun u =>
      u.became s t n 0 (x.setX (fD w) v).next []) ∧
  (∀ (s : State) (t n : Nat) (w : BitVec 27) (x : Ctx), s.atInstr t n 0x0B w x → s.integ.boundaryWait = false → 8 ≤ fF4 w →
    runs (.band t n w) s fun u => u.haltedBy s t n 3) ∧
  (∀ (s : State) (t n : Nat) (w : BitVec 27) (x : Ctx) (g a v long bad : Nat), s.atInstr t n 0x0C w x →
    s.integ.boundaryWait = false → fC w = 0 → fF w = 0 → g = (x.xr (fA w)).toNat % 256 → a = (x.xr (fB w)).toNat % 2 ^ 48 →
    ((a = 2 ^ 48 - 1 ∧ v = (sGet s.integ.lam g 0).toNat ∧ long = 0 ∧ bad = 0) ∨
     (a ≠ 2 ^ 48 - 1 ∧ s.core.step ≤ a ∧ v = 0 ∧ long = 0 ∧ bad = (if s.core.step < a then 1 else 0)) ∨
     (a < s.core.step ∧ a ≠ 2 ^ 48 - 1 ∧ (s.core.bit (Reg.grpCtrl g) 3 = false ∨ s.core.ringBits = 0) ∧
       v = (s.core.step - a) * (sGet s.integ.lam g 0).toNat ∧ long = 0 ∧ bad = 0) ∨
     (a < s.core.step ∧ a ≠ 2 ^ 48 - 1 ∧ s.core.bit (Reg.grpCtrl g) 3 = true ∧ s.core.ringBits ≠ 0 ∧ s.core.step - a < 2 ^ s.core.ringBits ∧
       s.core.clean64 (s.core.ringSlot g a) 8 ∧
       v = (s.core.rd (Reg.grpLambda g) - BitVec.ofNat 64 (s.core.rdNat (gaLocal (s.core.ringSlot g a)) 8)).toNat ∧ long = 0 ∧ bad = 0) ∨
     (a < s.core.step ∧ a ≠ 2 ^ 48 - 1 ∧ s.core.bit (Reg.grpCtrl g) 3 = true ∧ s.core.ringBits ≠ 0 ∧ 2 ^ s.core.ringBits ≤ s.core.step - a ∧
       s.core.clean64 (s.core.ringSlot g (s.core.step + 1 - 2 ^ s.core.ringBits)) 8 ∧
       v = (s.core.rd (Reg.grpLambda g) -
         BitVec.ofNat 64 (s.core.rdNat (gaLocal (s.core.ringSlot g (s.core.step + 1 - 2 ^ s.core.ringBits))) 8)).toNat +
         (s.core.step + 1 - 2 ^ s.core.ringBits - a) * (sGet s.integ.lam g 0).toNat ∧ long = 1 ∧ bad = 0)) →
    runs (.dgap t n w) s fun u =>
      u.became s t n 0 (x.setX (fD w) (BitVec.ofNat 64 (if v = 0 then 0x3F80_0000 else (factorFree v).toNat))).next
        (Reg.bandGapLong :: Reg.bandGapBad :: loadCounters t) ∧
      u.core.rd Reg.bandGapLong = s.core.rd Reg.bandGapLong + BitVec.ofNat 64 long ∧
      u.core.rd Reg.bandGapBad = s.core.rd Reg.bandGapBad + BitVec.ofNat 64 bad)

/-- R188, R301: TMNEXT over a map in this module's memory returns the smallest row at or after xa, below TMAP_ROWS, that is marked in the summary
and in the detail bits, and all ones when there is none. -/
def Obligations.TouchScanFindsTheNextMarkedRow : Prop :=
  ∀ (s : State) (t n : Nat) (w : BitVec 27) (x : Ctx) (base rows r : Nat) (marked : Nat → Prop),
    s.atInstr t n 0x0D w x → fF4 w < 4 → fImm13 w = 0 →
    base = s.core.fld (Reg.tmapBase t (fF4 w)) 55 0 → rows = s.core.fld (Reg.tmapRows t (fF4 w)) 39 0 → r = (x.xr (fA w)).toNat →
    (∀ l, l < ceilDiv rows 262144 + ceilDiv rows 512 → s.core.clean64 (base + 64 * l) 64) →
    (∀ k, marked k ↔ (lineBit (s.core.gBytes (base + 64 * (k / 262144)) 64) (k / 512 % 512) = true ∧
      lineBit (s.core.gBytes (base + 64 * (ceilDiv rows 262144 + k / 512)) 64) (k % 512) = true)) →
    s.core.fetching (.ctx t n) = false → runs (.tmnext t n w) s fun u => ∃ v : Word, u.ctx? t n = some (x.setX (fD w) v).next ∧ u.sameMemory s ∧ s.sameUnits u ∧
      u.sameRegsBut s (Reg.palmInstr t :: Reg.palmVector t :: Reg.palmTmnextLines t :: loadCounters t) ∧
      ((∃ k, r ≤ k ∧ k < rows ∧ marked k ∧ (∀ j, r ≤ j → j < k → ¬ marked j) ∧ v = BitVec.ofNat 64 k) ∨
       ((∀ k, r ≤ k → k < rows → ¬ marked k) ∧ v = BitVec.allOnes 64))

/-- R289, R290: what VOP, VFMA, VFN, VSEL, VINT and VPERM put in each lane of v_d, for every code and with b taken from a scalar; what VRED and
VMOV give. -/
def Obligations.VectorInstructionsWorkPerLane : Prop :=
  (∀ (s : State) (t n : Nat) (w : BitVec 27) (x : Ctx), s.atInstr t n 0x11 w x → fC w = 0 → bitsOf (fF w) 5 4 = 0 → bitsOf (fF w) 3 0 ≤ 6 →
    runs (.vop t n w) s fun u => ∃ ls : List Lane, ls.length = 16 ∧ u.became s t n 1 (x.setV (fD w) ls).next [] ∧
      ∀ i, i < 16 → (bitsOf (fF w) 3 0, ls.getD i 0) ∈
        vopCodes (x.lane (fA w) i) (if bitOf (fF w) 6 = true then (x.xr (fB w)).truncate 32 else x.lane (fB w) i)) ∧
  (∀ (s : State) (t n : Nat) (w : BitVec 27) (x : Ctx), s.atInstr t n 0x12 w x → bitsOf (fF w) 5 2 = 0 →
    runs (.vfma t n w) s fun u => ∃ ls : List Lane, ls.length = 16 ∧ u.became s t n 1 (x.setV (fD w) ls).next [] ∧
      ∀ i, i < 16 → ls.getD i 0 =
        fFma (if bitOf (fF w) 0 = true then x.lane (fA w) i ^^^ 0x8000_0000 else x.lane (fA w) i)
          (if bitOf (fF w) 6 = true then (x.xr (fB w)).truncate 32 else x.lane (fB w) i)
          (if bitOf (fF w) 1 = true then x.lane (fC w) i ^^^ 0x8000_0000 else x.lane (fC w) i)) ∧
  (∀ (s : State) (t n : Nat) (w : BitVec 27) (x : Ctx), s.atInstr t n 0x13 w x → fB w = 0 → fC w = 0 → fF w ≤ 9 →
    runs (.vfn t n w) s fun u => ∃ ls : List Lane, ls.length = 16 ∧ u.became s t n 1 (x.setV (fD w) ls).next [] ∧
      ∀ i, i < 16 → (fF w, ls.getD i 0) ∈ vfnCodes (x.lane (fA w) i)) ∧
  (∀ (s : State) (t n : Nat) (w : BitVec 27) (x : Ctx), s.atInstr t n 0x14 w x → fF w ≤ 4 →
    runs (.vsel t n w) s fun u => ∃ ls : List Lane, ls.length = 16 ∧ u.became s t n 1 (x.setV (fD w) ls).next [] ∧
      ∀ i b, i < 16 → (fF w, b) ∈ vselCodes (x.lane (fA w) i) (x.lane (fB w) i) →
        ls.getD i 0 = if b then x.lane (fC w) i else x.lane (fD w) i) ∧
  (∀ (s : State) (t n : Nat) (w : BitVec 27) (x : Ctx), s.atInstr t n 0x1A w x → fC w = 0 → fF w ≤ 9 →
    runs (.vint t n w) s fun u => ∃ ls : List Lane, ls.length = 16 ∧ u.became s t n 1 (x.setV (fD w) ls).next [] ∧
      ∀ i, i < 16 → (fF w, ls.getD i 0) ∈ vintCodes (x.lane (fA w) i) (x.lane (fB w) i)) ∧
  (∀ (s : State) (t n : Nat) (w : BitVec 27) (x : Ctx), s.atInstr t n 0x1B w x → fC w = 0 → fF w = 0 →
    runs (.vperm t n w) s fun u => ∃ ls : List Lane, ls.length = 16 ∧ u.became s t n 1 (x.setV (fD w) ls).next [] ∧
      ∀ i, i < 16 → ls.getD i 0 = x.lane (fA w) ((x.lane (fB w) i).toNat % 16)) ∧
  (∀ (s : State) (t n : Nat) (w : BitVec 27) (x : Ctx) (l : Lane), s.atInstr t n 0x15 w x → fB w = 0 → fC w = 0 →
    (fF w, l) ∈ [(0, tree16 fAdd (x.vr (fA w))), (1, tree16 (minMax true) (x.vr (fA w))), (2, tree16 (minMax false) (x.vr (fA w)))] →
    runs (.vred t n w) s fun u => u.became s t n 1 (x.setX (fD w) (l.zeroExtend 64)).next []) ∧
  (∀ (s : State) (t n : Nat) (w : BitVec 27) (x y : Ctx), s.atInstr t n 0x16 w x → fC w = 0 → fB w < 16 → (fF w ≠ 1 → fF w ≠ 2 → fB w = 0) →
    (fF w, y) ∈ [(0, x.setV (fD w) (List.replicate 16 ((x.xr (fA w)).truncate 32))),
      (1, x.setX (fD w) ((x.lane (fA w) (fB w)).zeroExtend 64)), (2, x.setV (fD w) ((x.vr (fD w)).set (fB w) ((x.xr (fA w)).truncate 32))),
      (3, x.setV (fD w) ((x.vr (fA w)).map fun l => ofIntL l.toInt)), (4, x.setV (fD w) ((x.vr (fA w)).map satInt32)),
      (5, x.setV (fD w) (x.vr (fA w)))] →
    runs (.vmov t n w) s fun u => u.became s t n 1 y.next [])

/-- R303, R413: VSTEP moves each lane by η against its direction with one rounding, the direction being v_b, or the sign of v_c in sign mode,
where its 16 lanes are counted; a disabled group and a held step give v_a. A step boundary counts in BAND_SIGN_STEPS each enabled group whose step
it opens in sign mode. -/
def Obligations.UpdateStepsMoveAgainstTheirDirection : Prop :=
  (∀ (s : State) (t n : Nat) (w : BitVec 27) (x : Ctx) (g : Nat), s.atInstr t n 0x18 w x → bitsOf (fF w) 1 0 = 0 →
    g = (x.xr (bitsOf (fF w) 6 2)).toNat % 256 → s.core.bit (Reg.grpCtrl g) 0 = true → s.core.held = false →
    s.core.bit (Reg.grpState g) 0 = false → runs (.vstep t n w) s fun u =>
      ∃ ls : List Lane, ls.length = 16 ∧ u.became s t n 1 (x.setV (fD w) ls).next [] ∧ ∀ i, i < 16 →
        ls.getD i 0 = fFma (BitVec.ofNat 32 (s.core.fld (Reg.grpEta g) 31 0) ^^^ 0x8000_0000) (x.lane (fB w) i) (x.lane (fA w) i)) ∧
  (∀ (s : State) (t n : Nat) (w : BitVec 27) (x : Ctx) (g : Nat), s.atInstr t n 0x18 w x → bitsOf (fF w) 1 0 = 0 →
    g = (x.xr (bitsOf (fF w) 6 2)).toNat % 256 → s.core.bit (Reg.grpCtrl g) 0 = true → s.core.held = false →
    s.core.bit (Reg.grpState g) 0 = true → runs (.vstep t n w) s fun u =>
      u.core.rd (Reg.palmSignElems t) = s.core.rd (Reg.palmSignElems t) + 16 ∧
      ∃ ls : List Lane, ls.length = 16 ∧ u.became s t n 1 (x.setV (fD w) ls).next [Reg.palmSignElems t] ∧ ∀ i, i < 16 →
        ls.getD i 0 = fFma (BitVec.ofNat 32 (s.core.fld (Reg.grpEta g) 31 0) ^^^ 0x8000_0000) (signLane (x.lane (fC w) i))
          (x.lane (fA w) i)) ∧
  (∀ (s : State) (t n : Nat) (w : BitVec 27) (x : Ctx), s.atInstr t n 0x18 w x → bitsOf (fF w) 1 0 = 0 →
    (s.core.bit (Reg.grpCtrl ((x.xr (bitsOf (fF w) 6 2)).toNat % 256)) 0 = false ∨ s.core.held = true) →
    runs (.vstep t n w) s fun u => u.became s t n 1 (x.setV (fD w) (x.vr (fA w))).next []) ∧
  (∀ s : State, s.core.bit Reg.bandCtrl 0 = false → s.core.bit Reg.darnCtrl 0 = false → s.jnlFull = false → s.ticking = true →
    runs .bandAdvance s fun u => u.core.rd Reg.bandSignSteps = s.core.rd Reg.bandSignSteps +
      BitVec.ofNat 64 ((List.range 256).countP fun g => u.core.bit (Reg.grpCtrl g) 0 && u.core.bit (Reg.grpState g) 0))

/-- R289, R291, R292: LD, VLD and VGTH from this module's memory, aligned or not as the instruction allows, and LD from another module, which
waits for its response, or for those of its parts when it is not aligned. -/
def Obligations.LoadsReadMemory : Prop :=
  (∀ (s : State) (t n : Nat) (w : BitVec 27) (x : Ctx) (size : Nat), s.atInstr t n 0x04 w x → fF4 w < 8 → size = 2 ^ (fF4 w % 4) →
    s.core.clean64 (x.ldAddr w) size → runs (.ld t n w) s fun u =>
      u.became s t n 0 (x.setX (fD w) (if bitOf (fF4 w) 2 = true
        then BitVec.ofInt 64 (signedOf (8 * size) (s.core.rdNat (gaLocal (x.ldAddr w)) size))
        else BitVec.ofNat 64 (s.core.rdNat (gaLocal (x.ldAddr w)) size))).next (loadCounters t)) ∧
  (∀ (s : State) (t n : Nat) (w : BitVec 27) (x : Ctx) (size : Nat), s.atInstr t n 0x04 w x → fF4 w < 8 → size = 2 ^ (fF4 w % 4) →
    x.ldAddr w % size = 0 → s.core.reach (x.ldAddr w) size = .remote → s.core.reachable (gaModule (x.ldAddr w)) = true →
    (s.core.freeTag (gaModule (x.ldAddr w))).isSome = true → runs (.ld t n w) s fun u =>
      u.ctx? t n = some { x with blocked := true } ∧ u.sameMemory s ∧
      ∃ r, u.core.reqs = s.core.reqs ++ [r] ∧ r.dest = gaModule (x.ldAddr w) ∧ r.msg = msgReadReq (x.ldAddr w) size r.tag ∧
        ∃ m, u.core.msgOut = s.core.msgOut ++ [m] ∧ m.dest = r.dest ∧ m.bytes = r.msg) ∧
  (∀ (s : State) (t n : Nat) (w : BitVec 27) (x : Ctx) (size : Nat), s.atInstr t n 0x04 w x → fF4 w < 8 → size = 2 ^ (fF4 w % 4) →
    x.ldAddr w % size ≠ 0 → s.core.reach (x.ldAddr w) size = .remote → s.core.reachable (gaModule (x.ldAddr w)) = true →
    s.core.fetched = [] → s.core.fetching (.ctx t n) = false → runs (.ld t n w) s fun u =>
      u.ctx? t n = some { x with blocked := true, instr := 0x04 * 2 ^ 27 + w.toNat } ∧ u.core.fetching (.ctx t n) = true ∧
      u.sameMemory s) ∧
  (∀ (s : State) (t n : Nat) (w : BitVec 27) (x : Ctx) (k : Nat), s.atInstr t n 0x0F w x → (fF w = 0 ∨ fF w = 72) → fC w = 0 →
    k = laneCount (x.xr (fB w)) → s.core.clean64 (addr56 (x.xr (fA w))) (4 * k) →
    s.core.fetching (.ctx t n) = false → runs (.vld t n w) s fun u =>
      ∃ ls : List Lane, ls.length = 16 ∧ u.became s t n 1 (x.setV (fD w) ls).next (loadCounters t) ∧ ∀ i, i < 16 →
        ls.getD i 0 = if i < k then BitVec.ofNat 32 (s.core.rdNat (gaLocal (addr56 (x.xr (fA w))) + 4 * i) 4) else 0) ∧
  (∀ (s : State) (t n : Nat) (w : BitVec 27) (x : Ctx) (k : Nat), s.atInstr t n 0x0F w x → fF w = 8 → fC w = 0 →
    k = laneCount (x.xr (fB w)) → s.core.clean64 (addr56 (x.xr (fA w))) (2 * k) →
    s.core.fetching (.ctx t n) = false → runs (.vld t n w) s fun u =>
      ∃ ls : List Lane, ls.length = 16 ∧ u.became s t n 1 (x.setV (fD w) ls).next (loadCounters t) ∧ ∀ i e, i < 16 →
        e = s.core.rdNat (gaLocal (addr56 (x.xr (fA w))) + 2 * i) 2 → (k ≤ i → ls.getD i 0 = 0) ∧
        (i < k → e % 2 ^ 15 ≤ 0x7F80 → ls.getD i 0 = BitVec.ofNat 32 (e * 2 ^ 16))) ∧
  (∀ (s : State) (t n : Nat) (w : BitVec 27) (x : Ctx) (a : Nat → Nat), s.atInstr t n 0x1D w x → fC w = 0 → fF w = 0 →
    (∀ i, i < 16 → a i = (addr56 (x.xr (fA w)) + 4 * (x.lane (fB w) i).toNat) % 2 ^ 56 ∧ a i % 4 = 0 ∧ s.core.clean64 (a i) 4) →
    runs (.vgth t n w) s fun u => ∃ ls : List Lane, ls.length = 16 ∧ u.became s t n 1 (x.setV (fD w) ls).next (loadCounters t) ∧
      ∀ i, i < 16 → ls.getD i 0 = BitVec.ofNat 32 (s.core.rdNat (gaLocal (a i)) 4))

/-- R289, R291, R293, R324: ST, VST of FP32 lanes, VSCT and VACC on this module's memory store their bytes, defined outside the staging region of an
open window (R334), and no other: ST aligned or not, VSCT
the last lane where two name one word, VACC the sum of each lane with the line's. R422: a store whose page's copy finds the staging full is
held, and the context goes on. -/
def Obligations.StoresWriteTheirBytesOnly : Prop :=
  (∀ (s : State) (t n : Nat) (w : BitVec 27) (x : Ctx) (size : Nat), s.atInstr t n 0x05 w x → fF4 w < 4 → size = 2 ^ fF4 w →
    s.core.clean64 (x.ldAddr w) size → s.core.copiesFit 2 → s.noneWaiting → runs (.st t n w) s fun u =>
      (s.core.unstaged (gaLocal (x.ldAddr w)) size → u.core.rdBytes (gaLocal (x.ldAddr w)) size = leBytes size (x.xr (fD w)).toNat) ∧
      u.sameMemoryBut s (gaLocal (x.ldAddr w)) size ∧ u.ctx? t n = some x.next ∧
      u.sameRegsBut s (Reg.palmInstr t :: Reg.palmVector t :: storeCounters t) ∧ s.sameUnits u) ∧
  (∀ (s : State) (t n : Nat) (w : BitVec 27) (x : Ctx) (size : Nat), s.atInstr t n 0x05 w x → fF4 w < 4 → size = 2 ^ fF4 w →
    x.ldAddr w % size = 0 → s.core.clean64 (x.ldAddr w) size → s.core.mustWait (gaLocal (x.ldAddr w)) = true → s.noneWaiting →
    runs (.st t n w) s fun u =>
      u.core.cow = s.core.cow ++ [.write (gaLocal (x.ldAddr w)) (leBytes size (x.xr (fD w)).toNat) (.store t n (x.ldAddr w))] ∧
      u.sameMemory s ∧ u.ctx? t n = some x.next ∧
      u.sameRegsBut s (Reg.palmInstr t :: Reg.palmVector t :: storeCounters t) ∧ s.sameUnits u) ∧
  (∀ (s : State) (t n : Nat) (w : BitVec 27) (x : Ctx) (k : Nat), s.atInstr t n 0x10 w x → fF w = 0 → fC w = 0 →
    (x.vr (fD w)).length = 16 → k = laneCount (x.xr (fB w)) → s.core.clean64 (addr56 (x.xr (fA w))) (4 * k) → s.core.copiesFit 2 →
    s.noneWaiting →
    runs (.vst t n w) s fun u =>
      (s.core.unstaged (gaLocal (addr56 (x.xr (fA w)))) (4 * k) →
        ∀ i, i < k → u.core.rdNat (gaLocal (addr56 (x.xr (fA w))) + 4 * i) 4 = (x.lane (fD w) i).toNat) ∧
      u.sameMemoryBut s (gaLocal (addr56 (x.xr (fA w)))) (4 * k) ∧ u.ctx? t n = some x.next ∧
      u.sameRegsBut s (Reg.palmInstr t :: Reg.palmVector t :: storeCounters t) ∧ s.sameUnits u) ∧
  (∀ (s : State) (t n : Nat) (w : BitVec 27) (x : Ctx) (a : Nat → Nat), s.atInstr t n 0x1E w x → fC w = 0 → fF w = 0 →
    (x.vr (fD w)).length = 16 →
    (∀ i, i < 16 → a i = (addr56 (x.xr (fA w)) + 4 * (x.lane (fB w) i).toNat) % 2 ^ 56 ∧ a i % 4 = 0 ∧ s.core.clean64 (a i) 4) →
    s.core.copiesFit 16 → runs (.vsct t n w) s fun u =>
      (∀ i, i < 16 → s.core.unstaged (gaLocal (a i)) 4 → (∀ j, i < j → j < 16 → a j ≠ a i) →
        u.core.rdNat (gaLocal (a i)) 4 = (x.lane (fD w) i).toNat) ∧
      (∀ b, (∀ i, i < 16 → b < gaLocal (a i) ∨ gaLocal (a i) + 4 ≤ b) → u.core.rdByte b = s.core.rdByte b) ∧
      u.ctx? t n = some x.next ∧ u.sameRegsBut s (Reg.palmInstr t :: Reg.palmVector t :: storeCounters t) ∧ s.sameUnits u) ∧
  (∀ (s : State) (t n : Nat) (w : BitVec 27) (x : Ctx) (l : Nat), s.atInstr t n 0x17 w x → fB w = 0 → fC w = 0 → fF w = 0 →
    s.core.isLocal (addr56 (x.xr (fA w))) = true → l = gaLocal (addr56 (x.xr (fA w))) / 64 * 64 →
    s.core.addRefused (gaLocal (addr56 (x.xr (fA w)))) = false → s.core.windowAt (gaLocal (addr56 (x.xr (fA w)))) = none →
    s.core.mustWait (gaLocal (addr56 (x.xr (fA w)))) = false → s.core.isUe (l / 64) = false → runs (.vacc t n w) s fun u =>
      (s.core.stageAt l = none → ∀ i, i < 16 → (u.core.lineLanes l).getD i 0 = fAdd ((s.core.lineLanes l).getD i 0) (x.lane (fD w) i)) ∧
      u.sameMemoryBut s l 64 ∧ u.ctx? t n = some x.next ∧ u.core.rd Reg.addLines = s.core.rd Reg.addLines + 1 ∧ s.sameUnits u)

/-- R107, R289, R294, R398: WAITNE goes on when the word differs from xb, and else waits at it; EVENT puts its entry, of TYPE 0x03 and EVENT 0x10,
with ADDRESS xa and UNIT imm13, in the error queue; an entry that finds the queue full, disabled or without a live context is dropped, with memory
as it was, and counted in ERRQ_LOST, which stops at its largest value. Where EVENT and UNIT stand in the entry is the model's reading (log entry 61). -/
def Obligations.WaitsAndEventEntries : Prop :=
  (∀ (s : State) (t n : Nat) (w : BitVec 27) (x : Ctx) (ga : Nat), s.atInstr t n 0x09 w x → fD w = 0 → fC w = 0 → fF w = 0 →
    ga = addr56 (x.xr (fA w)) → ga % 8 = 0 → s.core.clean64 ga 8 → BitVec.ofNat 64 (s.core.rdNat (gaLocal ga) 8) ≠ x.xr (fB w) →
    runs (.waitne t n w) s fun u => u.became s t n 0 x.next (loadCounters t)) ∧
  (∀ (s : State) (t n : Nat) (w : BitVec 27) (x : Ctx) (ga : Nat), s.atInstr t n 0x09 w x → fD w = 0 → fC w = 0 → fF w = 0 →
    ga = addr56 (x.xr (fA w)) → ga % 8 = 0 → s.core.clean64 ga 8 → BitVec.ofNat 64 (s.core.rdNat (gaLocal ga) 8) = x.xr (fB w) →
    runs (.waitne t n w) s fun u => u.core.ctxState t n = 2 ∧
      u.became s t n 0 { x with waitAddr := ga, waitVal := x.xr (fB w) } (Reg.ctxStatus t n :: loadCounters t)) ∧
  (∀ (s : State) (t n : Nat) (w : BitVec 27) (x : Ctx) (slot : Nat), s.atInstr t n 0x1C w x → fD w = 0 → fF4 w = 0 →
    s.core.qEn 16383 = true → 0 < s.core.qRoom 16383 → s.core.pcLive (s.core.fld (Reg.qCfg 16383) 19 8) = true →
    slot = s.core.qSlot 16383 (s.core.fld (Reg.qTail 16383) 31 0) → slot % 64 = 0 → s.core.mustWait slot = false →
    runs (.palmEvent t n w) s fun u =>
      (s.core.stageAt slot = none → u.core.rdNat slot 1 = 3 ∧ u.core.rdNat (slot + 45) 1 = 0x10 ∧
        u.core.rdNat (slot + 32) 8 = (x.xr (fA w)).toNat ∧ u.core.rdNat (slot + 56) 4 = fImm13 w) ∧ u.sameMemoryBut s slot 64 ∧
      u.core.fld (Reg.qTail 16383) 31 0 = (s.core.fld (Reg.qTail 16383) 31 0 + 1) % 2 ^ 32 ∧
      u.ctx? t n = some x.next ∧ u.sameRegsBut s ([Reg.palmInstr t, Reg.palmVector t] ++ loadCounters t ++ errorRegs) ∧ s.sameUnits u) ∧
  (∀ (s : State) (t n : Nat) (w : BitVec 27) (x : Ctx), s.atInstr t n 0x1C w x → fD w = 0 → fF4 w = 0 →
    (s.core.qEn 16383 = false ∨ s.core.qRoom 16383 = 0 ∨ s.core.pcLive (s.core.fld (Reg.qCfg 16383) 19 8) = false) →
    runs (.palmEvent t n w) s fun u =>
      (u.core.rd Reg.errqLost).toNat = min ((s.core.rd Reg.errqLost).toNat + 1) (2 ^ 64 - 1) ∧ u.sameMemory s ∧ u.ctx? t n = some x.next ∧
      u.core.rd (Reg.qTail 16383) = s.core.rd (Reg.qTail 16383) ∧
      u.sameRegsBut s ([Reg.palmInstr t, Reg.palmVector t, Reg.errqLost, Reg.qStatus 16383] ++ loadCounters t ++ eventRegs) ∧ u.work = s.work)

/-! ## Memory controllers, adders and windows -/

/-- R312, R320: a line read at its controller is returned and changes no memory; a whole-line write stores its 64 bytes and clears an uncorrectable
error; a partial write changes the masked bytes of its line; reads and partial writes of a line with an uncorrectable error store nothing and
answer MEM_UE. R334: what is written into the staging region of an open window reads undefined. R422: a write whose page's copy finds the
staging full is held, and proceeds and is answered once it need not wait. That the
oldest held change alone may proceed is the model's choice (log entry 88). -/
def Obligations.ControllersReadAndWriteLines : Prop :=
  (∀ (s : State) (a l : Nat), l = a / 64 * 64 → s.core.events = [] → s.core.isChannelMem l = true → s.core.isUe (l / 64) = false →
    s.ticking = true → runs (.memRead a .none) s fun u => u.core.outbox = s.core.outbox ++ [.line l (s.core.rdBytes l 64)] ∧ u.sameMemory s ∧
      u.sameRegsBut s [Reg.obsHbmRd, Reg.obsDdrRd] ∧ s.sameUnits u ∧ u.palm = s.palm) ∧
  (∀ (s : State) (a l : Nat) (e : MemErr), l = a / 64 * 64 → s.core.isChannelMem l = true →
    (e = .uncorrectable ∨ s.core.isUe (l / 64) = true) → s.ticking = true → runs (.memRead a e) s fun u =>
      u.core.outbox = s.core.outbox ++ [.ack l 0x22] ∧ u.sameMemory s ∧ u.core.isUe (l / 64) = true ∧
      (s.core.place l = .hbm → u.core.rd Reg.hbmUe = s.core.rd Reg.hbmUe + 1) ∧
      (s.core.place l = .ddr → u.core.rd Reg.ddrUe = s.core.rd Reg.ddrUe + 1)) ∧
  (∀ (s : State) (a l : Nat) (data : List Byte) (e : MemErr), l = a / 64 * 64 → s.core.isChannelMem l = true → s.core.mustWait l = false →
    s.ticking = true → runs (.memWrite a (BitVec.allOnes 64) data e) s fun u =>
      (s.core.stageAt l = none → ∀ i, i < 64 → u.core.rdByte (l + i) = data.getD i 0) ∧
      u.sameMemoryBut s l 64 ∧ u.core.isUe (l / 64) = false ∧ u.core.outbox = s.core.outbox ++ [.ack l 0]) ∧
  (∀ (s : State) (a l : Nat) (data : List Byte) (e : MemErr), l = a / 64 * 64 → s.core.isChannelMem l = true → s.core.mustWait l = true →
    s.ticking = true → runs (.memWrite a (BitVec.allOnes 64) data e) s fun u => u.sameMemory s ∧ u.core.outbox = s.core.outbox ∧
      u.core.cow = s.core.cow ++ [.write l (bytesAt data 0 64) (.port l)]) ∧
  (∀ (s : State) (a l : Nat) (mask : BitVec 64) (data : List Byte) (e : MemErr), l = a / 64 * 64 → s.core.isChannelMem l = true →
    mask ≠ BitVec.allOnes 64 → e ≠ .uncorrectable → s.core.isUe (l / 64) = false → s.core.mustWait l = false →
    s.ticking = true → runs (.memWrite a mask data e) s fun u =>
      (s.core.stageAt l = none → ∀ i, i < 64 → u.core.rdByte (l + i) = if mask.getLsbD i = true then data.getD i 0 else s.core.rdByte (l + i)) ∧
      u.sameMemoryBut s l 64 ∧ u.core.outbox = s.core.outbox ++ [.ack l 0]) ∧
  (∀ (s : State) (a l : Nat) (mask : BitVec 64) (data : List Byte) (e : MemErr), l = a / 64 * 64 → s.core.isChannelMem l = true →
    mask ≠ BitVec.allOnes 64 → (e = .uncorrectable ∨ s.core.isUe (l / 64) = true) → s.ticking = true → runs (.memWrite a mask data e) s fun u =>
      u.sameMemory s ∧ u.core.outbox = s.core.outbox ++ [.ack l 0x22]) ∧
  (∀ (s : State) (a l : Nat) (bs : List Byte) (r : List CowOp), s.core.cow = .write a bs (.port l) :: r → a % 64 = 0 → bs.length = 64 →
    s.core.mustWait a = false → s.ticking = true → runs .cowWriteRelease s fun u =>
      u.core.cow = r ∧ (s.core.stageAt a = none → u.core.rdBytes a 64 = bs) ∧ u.sameMemoryBut s a 64 ∧ u.core.outbox = s.core.outbox ++ [.ack l 0]) ∧
  (∀ (s : State) (o : CowOp) (r : List CowOp), s.core.cow = o :: r → s.core.mustWait o.addr = true → s.ticking = true → runs .cowWriteRelease s fun u => u = s)

/-- R321, R331, R343, R473: a scrub read, no sooner than its period after the last, moves its channel on, is counted and changes no memory; an adder's check, no sooner than 2^20 ticks after the
last and while it holds no operation, is noted, and counted if it fails; DDR_XLATE gives the channel of an address and marks one outside the
installed tier; FILL_CNT_f takes its 16 bits. -/
def Obligations.ScrubChecksTranslationAndFillCounts : Prop :=
  (∀ (s : State) (ch : Nat) (e : MemErr), s.core.events = [] → ch < 400 →
    s.core.bit (if ch < 384 then Reg.hbmCtrl else Reg.ddrCtrl) 1 = true →
    due (lastOf s.core.scrubAt ch) (2 ^ s.core.fld (if ch < 384 then Reg.hbmCtrl else Reg.ddrCtrl) 11 8) s.core.now.toNat = true →
    0 < s.core.channelLines ch → e ≠ .uncorrectable →
    (∀ a, s.core.channelAddr ch (sGet s.core.scrub ch 0 % s.core.channelLines ch) = some a → s.core.isUe (a / 64) = false) →
    s.ticking = true → runs (.scrubRead ch e) s fun u => sGet u.core.scrub ch 0 = sGet s.core.scrub ch 0 + 1 ∧ u.sameMemory s ∧ s.sameUnits u ∧
      (e = .none → u.sameRegsBut s [Reg.hbmScrubPasses, Reg.obsHbmRd, Reg.obsDdrRd]) ∧
      (ch < 384 → u.core.rd Reg.obsHbmRd = s.core.rd Reg.obsHbmRd + 64) ∧ (384 ≤ ch → u.core.rd Reg.obsDdrRd = s.core.rd Reg.obsDdrRd + 64) ∧
      (e = .corrected → ch < 384 → (∀ a, s.core.channelAddr ch (sGet s.core.scrub ch 0 % s.core.channelLines ch) = some a → s.core.place a = .hbm) →
        u.core.rd Reg.hbmCe = s.core.rd Reg.hbmCe + 1)) ∧
  (∀ (s : State) (ch : Nat), ch < 384 → s.mayCheck ch = true → s.ticking = true → runs (.adderSelfCheck ch false) s fun u =>
    u.core.rd Reg.addCheckFail = s.core.rd Reg.addCheckFail + 1 ∧ u.core.rd (Reg.addChCheckFail ch) = s.core.rd (Reg.addChCheckFail ch) + 1 ∧
    u.integ.adderFails = s.integ.adderFails ++ [ch]) ∧
  (∀ (s : State) (ch : Nat), ch < 384 → s.mayCheck ch = true → s.ticking = true → runs (.adderSelfCheck ch true) s fun u =>
    (ch, s.core.now.toNat) ∈ u.integ.checked ∧ u.sameRegsBut s [] ∧ u.sameMemory s ∧ u.integ.adderFails = s.integ.adderFails) ∧
  (∀ (s : State) (ch : Nat) (ok : Bool), s.mayCheck ch = false → s.ticking = true → runs (.adderSelfCheck ch ok) s fun u => u = s) ∧
  (∀ (s : State) (v : Word), s.ticking = true → runs (.ddrXlateInWrite v) s fun u =>
    u.core.rd Reg.ddrXlateIn = BitVec.ofNat 64 (v.toNat % 2 ^ 44) ∧
    u.core.bit Reg.ddrXlateOut 63 = decide (v.toNat % 2 ^ 44 < 0x800_0000_0000 ∨
      0x800_0000_0000 + s.core.fld Reg.ddrCapacity 43 0 ≤ v.toNat % 2 ^ 44) ∧
    (0x800_0000_0000 ≤ v.toNat % 2 ^ 44 → v.toNat % 2 ^ 44 < 0x800_0000_0000 + s.core.fld Reg.ddrCapacity 43 0 → u.core.fld Reg.ddrXlateOut 3 0 = s.core.ddrChannel (v.toNat % 2 ^ 44)) ∧
    u.sameRegsBut s [Reg.ddrXlateIn, Reg.ddrXlateOut] ∧ u.sameMemory s) ∧
  (∀ (s : State) (f : Nat) (v : Word), f < 64 → s.ticking = true → runs (.fillCntWrite f v) s fun u =>
    u.core.fld (Reg.fillCnt f) 15 0 = v.toNat % 2 ^ 16 ∧ u.sameRegsBut s [Reg.fillCnt f] ∧ u.sameMemory s ∧ u.work = s.work)

/-- R324 to R327: outside every window, and outside a staging region (R334), ADD adds its masked lanes, BITSET ORs its mask and ZERO clears its
lanes, in one line and nowhere else; a
target that is not an adder's is refused with ADDR_RANGE, and a line with an uncorrectable error with MEM_UE, with no memory changed. R422: one whose page's copy finds the
staging full is held, not answered yet. -/
def Obligations.AdderOperationsChangeOneLine : Prop :=
  (∀ (s : State) (a rank l : Nat) (mask : BitVec 16) (data : List Byte), l = a / 64 * 64 → s.core.addRefused a = false →
    s.core.windowAt a = none → s.core.mustWait a = false → s.core.isUe (l / 64) = false → s.ticking = true → runs (.add a rank mask data) s fun u =>
      (s.core.stageAt l = none → ∀ i, i < 16 → (u.core.lineLanes l).getD i 0 = if mask.getLsbD i = true
        then fAdd ((s.core.lineLanes l).getD i 0) (BitVec.ofNat 32 (leField data (4 * i) 4)) else (s.core.lineLanes l).getD i 0) ∧
      u.sameMemoryBut s l 64 ∧ u.core.rd Reg.addLines = s.core.rd Reg.addLines + 1 ∧ u.core.outbox = s.core.outbox ++ [.ack l 0]) ∧
  (∀ (s : State) (a l : Nat) (data : List Byte), l = a / 64 * 64 → s.core.addRefused a = false → s.core.mustWait a = false →
    s.core.isUe (l / 64) = false → s.ticking = true → runs (.bitset a data) s fun u =>
      (s.core.stageAt l = none → ∀ i, i < 64 → u.core.rdByte (l + i) = s.core.rdByte (l + i) ||| data.getD i 0) ∧ u.sameMemoryBut s l 64 ∧
      u.core.rd Reg.addBitsets = s.core.rd Reg.addBitsets + 1 ∧ u.core.outbox = s.core.outbox ++ [.ack l 0]) ∧
  (∀ (s : State) (a l : Nat) (mask : BitVec 16), l = a / 64 * 64 → s.core.addRefused a = false → s.core.mustWait a = false →
    s.core.isUe (l / 64) = false → s.ticking = true → runs (.zero a mask) s fun u =>
      (s.core.stageAt l = none → ∀ i, i < 16 → (u.core.lineLanes l).getD i 0 = if mask.getLsbD i = true then 0 else (s.core.lineLanes l).getD i 0) ∧
      u.sameMemoryBut s l 64 ∧ u.core.outbox = s.core.outbox ++ [.ack l 0]) ∧
  (∀ (s : State) (a rank l : Nat) (mask : BitVec 16) (data : List Byte) (c : Instr),
    c ∈ [Instr.add a rank mask data, Instr.bitset a data, Instr.zero a mask] → l = a / 64 * 64 → s.core.addRefused a = true →
    s.ticking = true → runs c s fun u => u.sameMemory s ∧ u.core.rd Reg.addRefused = s.core.rd Reg.addRefused + 1 ∧
      u.core.outbox = s.core.outbox ++ [.ack l 0x15]) ∧
  (∀ (s : State) (a rank l : Nat) (mask : BitVec 16) (data : List Byte) (c : Instr),
    c ∈ [Instr.add a rank mask data, Instr.bitset a data, Instr.zero a mask] → l = a / 64 * 64 → s.core.addRefused a = false →
    s.core.windowAt a = none → s.core.mustWait a = false → s.core.isUe (l / 64) = true →
    s.ticking = true → runs c s fun u => u.sameMemory s ∧ u.core.rd Reg.addUe = s.core.rd Reg.addUe + 1 ∧ u.core.outbox = s.core.outbox ++ [.ack l 0x22]) ∧
  (∀ (s : State) (a rank : Nat) (mask : BitVec 16) (data : List Byte) (c : Instr),
    c ∈ [Instr.add a rank mask data, Instr.bitset a data, Instr.zero a mask] → s.core.addRefused a = false →
    s.core.windowAt a = none → s.core.mustWait a = true →
    s.ticking = true → runs c s fun u => u.sameMemory s ∧ u.core.outbox = s.core.outbox ∧ ∃ o, u.core.cow = s.core.cow ++ [o] ∧ o.addr = a)

/-- R333 to R337: an ADD in an open window with room on its channel is staged and one in a closing window waits, both with memory unchanged; one
that finds the staging full is added at once and sets NONREPRO; a late one is added once its line has been written. -/
def Obligations.WindowsStageTheirAdds : Prop :=
  (∀ (s : State) (a rank n : Nat) (mask : BitVec 16) (data : List Byte), s.core.addRefused a = false → s.core.windowAt a = some n →
    s.core.winState n ≠ 2 → s.core.stagedOn n (s.core.hbmChannel a) < s.core.stageCap n (s.core.hbmChannel a) →
    s.ticking = true → runs (.add a rank mask data) s fun u => u.sameMemory s ∧ u.core.rd Reg.addStaged = s.core.rd Reg.addStaged + 1 ∧
      ∃ e, u.core.staged = s.core.staged ++ [e] ∧ e.win = n ∧ e.line = (a - (s.core.winRange n).1) / 64 ∧ e.rank = rank % 2 ^ 16 ∧
        e.mask = mask ∧ ∀ i, i < 16 → e.lanes.getD i 0 = BitVec.ofNat 32 (leField data (4 * i) 4)) ∧
  (∀ (s : State) (a rank n : Nat) (mask : BitVec 16) (data : List Byte), s.core.addRefused a = false → s.core.windowAt a = some n →
    s.core.winState n = 2 → s.ticking = true → runs (.add a rank mask data) s fun u => u.sameMemory s ∧ u.core.staged = s.core.staged ∧
      ∃ e, u.core.late = s.core.late ++ [e] ∧ e.win = n ∧ e.addr = a / 64 * 64 ∧ e.rank = rank % 2 ^ 16 ∧ e.mask = mask) ∧
  (∀ (s : State) (a rank n l : Nat) (mask : BitVec 16) (data : List Byte), l = a / 64 * 64 → s.core.addRefused a = false →
    s.core.windowAt a = some n → s.core.winState n ≠ 2 → s.core.stageCap n (s.core.hbmChannel a) ≤ s.core.stagedOn n (s.core.hbmChannel a) →
    s.core.mustWait a = false → s.core.isUe (l / 64) = false → s.ticking = true → runs (.add a rank mask data) s fun u =>
      u.core.bit (Reg.winStatus n) 3 = true ∧ u.core.staged = s.core.staged ∧ u.core.rd Reg.addOverflow = s.core.rd Reg.addOverflow + 1 ∧
      u.sameMemoryBut s l 64 ∧ (s.core.stageAt l = none → ∀ i, i < 16 → (u.core.lineLanes l).getD i 0 = if mask.getLsbD i = true
        then fAdd ((s.core.lineLanes l).getD i 0) (BitVec.ofNat 32 (leField data (4 * i) 4)) else (s.core.lineLanes l).getD i 0)) ∧
  (∀ (s : State) (e : LateAdd) (l : Nat), s.core.late.find? s.core.lateReady = some e → l = e.addr / 64 * 64 → e.win < 16 →
    s.core.isUe (l / 64) = false → s.ticking = true → runs .addLateApply s fun u =>
      u.core.late = s.core.late.erase e ∧ u.core.rd Reg.addLate = s.core.rd Reg.addLate + 1 ∧ u.core.bit (Reg.winStatus e.win) 3 = true ∧
      u.sameMemoryBut s l 64 ∧ (s.core.stageAt l = none → ∀ i, i < 16 → (u.core.lineLanes l).getD i 0 = if e.mask.getLsbD i = true
        then fAdd ((s.core.lineLanes l).getD i 0) (e.lanes.getD i 0) else (s.core.lineLanes l).getD i 0))

/-- R332, R335, R336, R338: OPEN of an idle window in a legal range is pending until it takes effect and is else refused with BAD; the effect opens it
with NONREPRO and PEAK clear, changing no memory outside the staging region; CLOSE begins the close; its end and ABORT leave the window idle with DONE
set and none of its entries staged, ABORT with memory unchanged. R422: the close does not end while a line of it waits for its page's copy. -/
def Obligations.WindowCommandsMoveTheWindow : Prop :=
  (∀ (s : State) (n : Nat), n < 16 → s.core.winState n = 0 → s.core.bit (Reg.winCtrl n) 0 = false → s.core.winBad n = false →
    s.ticking = true → runs (.winOpen n) s fun u => u.core.bit (Reg.winCtrl n) 0 = true ∧ u.core.winState n = 0 ∧ u.core.bit (Reg.winStatus n) 4 = false ∧
      u.sameRegsBut s [Reg.winCtrl n, Reg.winStatus n] ∧ u.sameMemory s) ∧
  (∀ (s : State) (n : Nat), n < 16 → s.core.winState n = 0 → s.core.bit (Reg.winCtrl n) 0 = false → s.core.winBad n = true →
    s.ticking = true → runs (.winOpen n) s fun u => u.core.bit (Reg.winStatus n) 4 = true ∧ u.core.winState n = 0 ∧ u.sameRegsBut s [Reg.winStatus n] ∧ u.sameMemory s) ∧
  (∀ (s : State) (n : Nat), s.tidy → n < 16 → s.core.bit (Reg.winCtrl n) 0 = true → s.ticking = true → runs (.winOpenEffect n) s fun u =>
    u.core.winState n = 1 ∧ u.core.bit (Reg.winCtrl n) 0 = false ∧ u.core.bit (Reg.winStatus n) 3 = false ∧
    u.core.fld (Reg.winStatus n) 47 16 = 0 ∧ u.core.staged = s.core.staged ∧
    u.sameMemoryBut s (s.core.winStage n).1 (s.core.winStage n).2) ∧
  (∀ (s : State) (n : Nat), n < 16 → s.core.winState n = 1 → s.ticking = true → runs (.winClose n) s fun u =>
    u.core.winState n = 2 ∧ u.core.bit (Reg.winCtrl n) 1 = true ∧ u.core.staged = s.core.staged ∧
    u.sameRegsBut s [Reg.winStatus n, Reg.winCtrl n] ∧ u.sameMemory s) ∧
  (∀ (s : State) (n : Nat), n < 16 → s.core.winState n ≠ 1 → s.ticking = true → runs (.winClose n) s fun u => u = s) ∧
  (∀ (s : State) (n : Nat), n < 16 → s.core.winState n = 2 →
    s.core.copiesFit (s.core.staged.filter fun e => e.win == n).length → s.ticking = true → runs (.winCloseDone n) s fun u =>
    u.core.winState n = 0 ∧ u.core.bit (Reg.winStatus n) 2 = true ∧ u.core.bit (Reg.winCtrl n) 1 = false ∧
    u.core.staged = s.core.staged.filter (fun e => e.win != n)) ∧
  (∀ (s : State) (n : Nat) (e : Staged), n < 16 → s.core.winState n = 2 → e ∈ s.core.staged → e.win = n →
    s.core.mustWait (s.core.stagedAddr e) = true → s.ticking = true → runs (.winCloseDone n) s fun u => u.core.winState n = 2 ∧ e ∈ u.core.staged) ∧
  (∀ (s : State) (n : Nat), n < 16 → s.core.winState n = 1 → s.ticking = true → runs (.winAbort n) s fun u =>
    u.core.winState n = 0 ∧ u.core.bit (Reg.winStatus n) 2 = true ∧ u.core.staged = s.core.staged.filter (fun e => e.win != n) ∧ u.sameMemory s)

/-- R335: the close of a window leaves in each line of it the sum of the line and its staged entries in ascending rank, entries of equal rank in the
order they came, whatever order the ranks came in; lines without an entry are unchanged. -/
def Obligations.CloseAddsInRankOrder : Prop :=
  (∀ l : List Staged, (stagedSort l).Perm l ∧
    (stagedSort l).Pairwise (fun e f => e.line < f.line ∨ (e.line = f.line ∧ e.rank ≤ f.rank)) ∧
    ∀ k r, (stagedSort l).filter (fun e => e.line == k && e.rank == r) = l.filter (fun e => e.line == k && e.rank == r)) ∧
  (∀ (s : State) (n : Nat), n < 16 → s.core.winState n = 2 → (s.core.winRange n).1 % 64 = 0 →
    (∀ e ∈ s.core.staged, e.win = n → s.core.isUe (s.core.stagedAddr e / 64) = false) →
    s.core.copiesFit (s.core.staged.filter fun e => e.win == n).length → s.ticking = true → runs (.winCloseDone n) s fun u =>
      ∀ k, ∀ i, i < 16 → (u.core.lineLanes ((s.core.winRange n).1 + 64 * k)).getD i 0 =
        (((stagedSort (s.core.staged.filter fun e => e.win == n)).filter fun e => e.line == k).foldl
          (fun ls e => addLanes e.mask ls e.lanes) (s.core.lineLanes ((s.core.winRange n).1 + 64 * k))).getD i 0)

/-! ## Gradient reduction: messages and buckets -/

/-- R351, R355, R359: the header of an accepted contribution is counted, adds its COUNT to the divisor and is answered; one that no bucket takes is
counted and refused; a line of an accepted contribution is added to its landing line; an abandoned contribution marks its bucket. -/
def Obligations.ContributionsAtTheirOwner : Prop :=
  (∀ (s : State) (m : Msg) (ms : List Msg) (b : Bucket), s.core.events = [] → s.net.rxMsgs = m :: ms → leField m.bytes 0 1 = 1 →
    s.redTurned m (redTag m.bytes) = none → s.redOpen m (redTag m.bytes) = none → s.bucketAt (redTag m.bytes).land = some b → b.idx < 64 →
    s.redDecide (some b) m (redTag m.bytes) (leField m.bytes 0x10 4) = (0, false) → m.src ≠ s.core.moduleNo → 0 < leField m.bytes 0x10 4 →
    s.ticking = true → runs .contributionHeader s fun u => u.net.rxMsgs = ms ∧ u.sameMemory s ∧
      u.core.rd Reg.redAccepted = s.core.rd Reg.redAccepted + 1 ∧
      u.core.fld (Reg.bktState b.idx) 23 8 = (s.core.fld (Reg.bktState b.idx) 23 8 + 1) % 2 ^ 16 ∧
      u.core.rd (Reg.bktDivisor b.idx) = s.core.rd (Reg.bktDivisor b.idx) + BitVec.ofNat 64 (leField m.bytes 0x14 4) ∧
      ∃ r, u.core.msgOut = s.core.msgOut ++ [r] ∧ r.dest = m.src ∧
        r.bytes = redReply 3 0 (redTag m.bytes).gen (redTag m.bytes).rank (redTag m.bytes).land) ∧
  (∀ (s : State) (m : Msg) (ms : List Msg), s.core.events = [] → s.net.rxMsgs = m :: ms → leField m.bytes 0 1 = 1 →
    s.redTurned m (redTag m.bytes) = none → s.bucketAt (redTag m.bytes).land = none → m.src ≠ s.core.moduleNo →
    s.ticking = true → runs .contributionHeader s fun u => u.net.rxMsgs = ms ∧ u.sameMemory s ∧ u.sameRegsBut s [Reg.redUnarmed] ∧
      u.core.rd Reg.redUnarmed = s.core.rd Reg.redUnarmed + 1 ∧ u.red.buckets = s.red.buckets ∧
      ∃ r, u.core.msgOut = s.core.msgOut ++ [r] ∧ r.dest = m.src ∧
        r.bytes = redReply 4 0x15 (redTag m.bytes).gen (redTag m.bytes).rank (redTag m.bytes).land) ∧
  (∀ (s : State) (m : Msg) (ms : List Msg) (b l : Nat) (c : Contrib) (x : Bucket), s.net.rxMsgs = m :: ms → leField m.bytes 0 1 = 2 →
    s.redTurned m (redTag m.bytes) = none → s.redOpen m (redTag m.bytes) = some (b, c) → s.bucket? b = some x → leField m.bytes 1 1 = 1 →
    leField m.bytes 6 3 < x.lines → l = gaLocal (redTag m.bytes).land + 64 * leField m.bytes 6 3 → l % 64 = 0 →
    s.core.addRefused l = false → s.core.windowAt l = none → s.core.mustWait l = false → s.core.isUe (l / 64) = false →
    m.src ≠ s.core.moduleNo → s.ticking = true → runs .lineGroup s fun u =>
      u.net.rxMsgs = ms ∧ u.core.rd Reg.redRecvGroups = s.core.rd Reg.redRecvGroups + 1 ∧ u.sameMemoryBut s l 64 ∧
      (s.core.stageAt l = none → ∀ i, i < 16 → (u.core.lineLanes l).getD i 0 =
        fAdd ((s.core.lineLanes l).getD i 0) (BitVec.ofNat 32 (leField m.bytes (16 + 4 * i) 4)))) ∧
  (∀ (s : State) (m : Msg) (ms : List Msg) (b : Nat) (c : Contrib), s.net.rxMsgs = m :: ms → leField m.bytes 0 1 = 6 →
    s.redOpen m (redTag m.bytes) = some (b, c) → s.ticking = true → runs .abandonReply s fun u => u.net.rxMsgs = ms ∧
      (∀ x ∈ u.red.buckets, x.idx = b → x.abandoned = true) ∧
      u.core.fld (Reg.bktState b) 55 40 = s.core.fld (Reg.bktState b) 55 40 - 1 ∧ u.sameRegsBut s [Reg.bktState b] ∧ u.sameMemory s)

/-- R352, R353, R359: replies at the sender. Accepted keeps a send waiting, or ends an empty one with DONE_ZERO; complete ends it; refused ends it with
the owner's status. -/
def Obligations.RepliesEndTheirSends : Prop :=
  (∀ (s : State) (m : Msg) (ms : List Msg) (x : Send), s.net.rxMsgs = m :: ms → leField m.bytes 0 1 = 3 → s.sendOf m = some x →
    x.empty = false → s.ticking = true → runs .replyAccepted s fun u =>
      u.net.rxMsgs = ms ∧ ({ x with accepted := true } : Send) ∈ u.red.sends ∧ u.work = s.work ∧ u.core = s.core) ∧
  (∀ (s : State) (m : Msg) (ms : List Msg) (x : Send) (d : Desc), s.net.rxMsgs = m :: ms → leField m.bytes 0 1 = 3 → s.sendOf m = some x →
    x.empty = true → s.desc? x.desc = some d → d.conds = [] → s.ticking = true → runs .replyAccepted s fun u =>
      u.net.rxMsgs = ms ∧ u.red.sends = s.red.sends.erase x ∧
      ∃ e, u.desc? x.desc = some e ∧ e.acks = d.acks - 1 ∧ e.conds.map (·.code) = [0x01]) ∧
  (∀ (s : State) (m : Msg) (ms : List Msg) (x : Send) (d : Desc), s.net.rxMsgs = m :: ms → leField m.bytes 0 1 = 4 → s.sendOf m = some x →
    s.desc? x.desc = some d → d.conds = [] → leField m.bytes 1 1 ≠ 0 → s.ticking = true → runs .replyRefused s fun u =>
      u.net.rxMsgs = ms ∧ u.red.sends = s.red.sends.erase x ∧
      ∃ e, u.desc? x.desc = some e ∧ e.acks = d.acks - 1 ∧ e.conds.map (·.code) = [leField m.bytes 1 1]) ∧
  (∀ (s : State) (m : Msg) (ms : List Msg) (x : Send) (d : Desc), s.net.rxMsgs = m :: ms → leField m.bytes 0 1 = 5 → s.sendOf m = some x →
    s.desc? x.desc = some d → s.ticking = true → runs .replyComplete s fun u =>
      u.net.rxMsgs = ms ∧ u.red.sends = s.red.sends.erase x ∧
      ∃ e, u.desc? x.desc = some e ∧ e.acks = d.acks - 1 ∧ e.conds = d.conds)

/-- R354, R356, R357: an open bucket past its deadline, no packet from before it left to decide, seals on that tick; a sealed bucket with an open contribution past the drain limit is closed and
its descriptor ends with LINK_DOWN; a sealed bucket with none open, whose generation is not retired, is finalised, FINALISING until its
descriptor, which has issued its outputs, completes, and then closed. -/
def Obligations.BucketsSealDrainAndFinalise : Prop :=
  (∀ (s : State) (b : Nat) (x : Bucket), s.bucket? b = some x → b < 64 → s.core.fld (Reg.bktState b) 2 0 = 2 → x.deadline ≠ 0 →
    x.first + 2048 * x.deadline ≤ s.core.now.toNat → s.packetBefore b (x.first + 2048 * x.deadline) = false → s.ticking = true → runs (.bucketDeadline b) s fun u =>
      u.core.fld (Reg.bktState b) 2 0 = 3 ∧ (∃ y, u.bucket? b = some y ∧ y.sealTick = x.first + 2048 * x.deadline ∧ y.byDeadline = true ∧
        y.contribs = x.contribs) ∧ u.sameMemory s) ∧
  (∀ (s : State) (b : Nat) (x : Bucket), s.bucket? b = some x → (x.deadline = 0 ∨ s.core.now.toNat < x.first + 2048 * x.deadline) →
    s.core.events = [] → s.ticking = true → runs (.bucketDeadline b) s fun u => u = s) ∧
  (∀ (s : State) (b : Nat) (x : Bucket) (d : Desc), s.bucket? b = some x → b < 64 → s.core.fld (Reg.bktState b) 2 0 = 3 → x.drain ≠ 0 →
    (∃ c ∈ x.contribs, c.accepted = true ∧ c.complete = false) → x.sealTick + x.drain < s.core.now.toNat → s.desc? x.desc = some d →
    d.conds = [] → x.ueLines = [] → x.refusedAdd = false → s.ticking = true → runs (.bucketDrainLimit b) s fun u =>
      u.core.fld (Reg.bktState b) 2 0 = 5 ∧ u.core.rd Reg.redDrainFail = s.core.rd Reg.redDrainFail + 1 ∧
      ∃ e, u.desc? x.desc = some e ∧ e.phase = .finished ∧ e.conds.map (·.code) = [0x40]) ∧
  (∀ (s : State) (b : Nat) (x : Bucket) (d : Desc), s.bucket? b = some x → b < 64 → s.core.fld (Reg.bktState b) 2 0 = 3 →
    (∀ c ∈ x.contribs, c.accepted = true → c.complete = true) → s.finaliseTurn x = true → s.desc? x.desc = some d → d.phase = .running →
    s.works d = true → (∀ n, s.core.bucketWindow b = some n → s.core.winState n ≠ 3 ∧
      s.core.copiesFit (s.core.staged.filter fun e => e.win == n).length) → s.ticking = true → runs (.bucketFinalise b) s fun u =>
      u.core.fld (Reg.bktState b) 2 0 = 4 ∧ ∃ e, u.desc? x.desc = some e ∧ e.phase = .finished) ∧
  (∀ (s : State) (b : Nat) (x : Bucket), s.bucket? b = some x → b < 64 → s.core.fld (Reg.bktState b) 2 0 = 3 →
    (s.desc? x.desc).any s.works = false → s.core.events = [] → s.ticking = true → runs (.bucketFinalise b) s fun u => u = s) ∧
  (∀ (s : State) (id : Nat) (d : Desc) (x : Bucket), s.desc? id = some d → d.phase = .finished → d.acks = 0 → s.dumpsLeft id 0 = false →
    s.red.buckets.find? (fun b => b.desc == id && s.core.fld (Reg.bktState b.idx) 2 0 != 5) = some x → x.idx < 64 →
    s.ticking = true → runs (.descriptorComplete id) s fun u => u.core.fld (Reg.bktState x.idx) 2 0 = 5)

/-! ## Host ports and command framing -/

/-- R364, R365, R373: a frame on a port whose link is down has no effect; one with a bad FCS, too long or tagged is dropped and counted; an ARP request
for the port's address is answered; a command datagram is handed on; a PTP event message is captured, dropped and counted; EP_PTP_NEXT
discards the oldest capture. The layouts that the spec names and does not give, and that a frame's length leaves out its FCS, are log entry 50's. -/
def Obligations.EthernetFramesAreSorted : Prop :=
  (∀ (s : State) (p : Nat) (ok : Bool) (f : List Byte), s.core.bit (Reg.epStatus p) 0 = false → s.alive = true → runs (.ethFrameRx p ok f) s fun u => u = s) ∧
  (∀ (s : State) (p : Nat) (ok : Bool) (f : List Byte), p < 2 → s.core.bit (Reg.epStatus p) 0 = true →
    (ok = false ∨ 9216 < f.length ∨ beNat (bytesAt f 12 2) = 0x8100) → s.alive = true → runs (.ethFrameRx p ok f) s fun u =>
      u.core.rd (Reg.epRxDrop p) = s.core.rd (Reg.epRxDrop p) + 1 ∧
      u.core.rd (Reg.epRxBytes p) = s.core.rd (Reg.epRxBytes p) + BitVec.ofNat 64 f.length ∧
      u.sameRegsBut s [Reg.epRxDrop p, Reg.epRxBytes p, Reg.epFecCorr p, Reg.epFecUncorr p] ∧ u.sameMemory s ∧ s.sameUnits u ∧ u.palm = s.palm) ∧
  (∀ (s : State) (p : Nat) (f r : List Byte), p < 2 → s.core.bit (Reg.epStatus p) 0 = true → f.length ≤ 9216 →
    beNat (bytesAt f 12 2) ≠ 0x8100 → ptpAt f = none → beNat (bytesAt f 0 6) = s.core.fld (Reg.epMac p) 47 0 → s.core.arpReply p f = some r →
    s.alive = true → runs (.ethFrameRx p true f) s fun u => u.core.outbox = s.core.outbox ++ [.eth p r] ∧
      u.core.rd (Reg.epTxBytes p) = s.core.rd (Reg.epTxBytes p) + BitVec.ofNat 64 r.length ∧
      u.sameRegsBut s [Reg.epRxBytes p, Reg.epTxBytes p, Reg.epFecCorr p] ∧ u.sameMemory s ∧ s.sameUnits u) ∧
  (∀ (s : State) (p : Nat) (f : List Byte) (v : UdpView), p < 2 → s.core.bit (Reg.epStatus p) 0 = true → f.length ≤ 9216 →
    ptpAt f = none → beNat (bytesAt f 0 6) = s.core.fld (Reg.epMac p) 47 0 → udpView f = some v → v.clean = true → v.dport ≠ 4791 →
    v.dport = s.core.fld (Reg.epCmdPort p) 15 0 → 32 ≤ v.body.length → v.body.length ≤ 8224 → leField v.body 4 1 = 1 →
    1 ≤ leField v.body 5 1 → leField v.body 5 1 ≤ 3 → s.alive = true → runs (.ethFrameRx p true f) s fun u =>
      u.sameRegsBut s [Reg.epRxBytes p, Reg.epFecCorr p] ∧ u.sameMemory s ∧ ∃ x, u.net.rxUp = s.net.rxUp ++ [x] ∧ x.port = p ∧ x.roce = false ∧ x.bytes = v.body) ∧
  (∀ (s : State) (p o : Nat) (f : List Byte), p < 2 → s.core.bit (Reg.epStatus p) 0 = true → f.length ≤ 9216 →
    beNat (bytesAt f 12 2) ≠ 0x8100 → ptpAt f = some o → leField (f.drop o) 0 1 % 16 ≤ 3 → leField (f.drop o) 1 1 % 16 = 2 →
    (s.net.ptp.filter fun x => x.port == p).length < 16 → s.alive = true → runs (.ethFrameRx p true f) s fun u =>
      u.core.rd (Reg.epRxDrop p) = s.core.rd (Reg.epRxDrop p) + 1 ∧
      u.core.fld (Reg.epPtpInfo p) 24 20 = (s.net.ptp.filter fun x => x.port == p).length + 1 ∧ u.sameMemory s ∧
      ∃ x, u.net.ptp = s.net.ptp ++ [x] ∧ x.port = p ∧ x.tick = s.core.now.toNat ∧ x.kind = leField (f.drop o) 0 1 % 16 ∧
        x.seqId = beNat (bytesAt (f.drop o) 30 2)) ∧
  (∀ (s : State) (p : Nat) (x : Ptp), p < 2 → s.net.ptp.find? (fun x => x.port == p) = some x → s.ticking = true → runs (.ptpNext p) s fun u =>
    u.net.ptp = s.net.ptp.erase x ∧ u.core.fld (Reg.epPtpInfo p) 24 20 = ((s.net.ptp.erase x).filter fun x => x.port == p).length % 32 ∧
    u.sameRegsBut s [Reg.epPtpInfo p, Reg.epPtpTime p] ∧ u.sameMemory s)

/-- R367, R368: RoCEv2 requests of the expected PSN move the expected PSN on: a SEND Only enters SEND_QUEUE, a WRITE Only writes its payload and no
other byte, a READ Request changes no memory and is answered; one that names no queue pair is dropped. A WRITE that a page's copy holds back
waits at the head of its port's payloads (log entry 112). Which packets are dropped, and what a NAK leaves, follow log entries 51 and 52. -/
def Obligations.RoceRequestsAreServed : Prop :=
  (∀ (s s1 : State) (p x q : Nat) (k : RocePkt), s.takeRoce p [0, 1, 2, 4] = some (some x, k, s1) → x < 4095 → k.op = 4 →
    s.core.seqIn x % 2 ^ 24 = k.psn → lengthOk (s.core.pmtu x) k = true → (s.pcRun x).sendBuf = none → k.body.length % 64 = 0 →
    q = s.core.fld (Reg.pcCtrl x) 33 20 → s.core.qTakes q x = true → k.body.length / 64 ≤ s.core.qRoom q → s.work.direct = [] →
    s.ticking = true → runs (.roceSend p) s fun u => u.net.rxUp = s1.net.rxUp ∧ u.core.fld (Reg.pcSeq x) 31 0 = (k.psn + 1) % 2 ^ 24 ∧
      u.core.fld (Reg.qTail q) 31 0 = (s.core.fld (Reg.qTail q) 31 0 + k.body.length / 64) % 2 ^ 32) ∧
  (∀ (s s1 : State) (p x : Nat) (k : RocePkt), s.takeRoce p [6, 7, 8, 10] = some (some x, k, s1) → x < 4095 → k.op = 10 →
    s.core.seqIn x % 2 ^ 24 = k.psn → lengthOk (s.core.pmtu x) k = true → (s.pcRun x).writeAt = none → s.core.rethOk x k = true →
    k.body.length = k.len → (∀ l ∈ linesOf k.va k.len, s.core.isUe l = false) → s.core.copiesFit (k.len / 0x4000 + 2) →
    s.ticking = true → runs (.roceWrite p) s fun u =>
      u.net.rxUp = s1.net.rxUp ∧ u.core.fld (Reg.pcSeq x) 31 0 = (k.psn + 1) % 2 ^ 24 ∧
      (s.core.unstaged k.va k.len → u.core.rdBytes k.va k.len = k.body) ∧ u.sameMemoryBut s k.va k.len) ∧
  (∀ (s s1 : State) (p x : Nat) (k : RocePkt), s.takeRoce p [6, 7, 8, 10] = some (some x, k, s1) → s.writeHeld x k = true →
    s.ticking = true → runs (.roceWrite p) s fun u => u = s) ∧
  (∀ (s s1 : State) (p x : Nat) (k : RocePkt), s.takeRoce p [12] = some (some x, k, s1) → s.overRead p = false → x < 4095 → s.core.seqIn x % 2 ^ 24 = k.psn →
    (s.pcRun x).sendBuf = none → (s.pcRun x).writeAt = none → s.core.rethOk x k = true → (∀ l ∈ linesOf k.va k.len, s.core.isUe l = false) →
    s.core.bit (Reg.epStatus (s.core.fld (Reg.pcCtrl x) 3 3)) 0 = true → s.ticking = true → runs (.roceReadRequest p) s fun u =>
      u.net.rxUp = s1.net.rxUp ∧ u.sameMemory s ∧
      u.core.fld (Reg.pcSeq x) 31 0 = (k.psn + max 1 (ceilDiv k.len (s.core.pmtu x))) % 2 ^ 24 ∧
      u.core.outbox.length = s.core.outbox.length + max 1 (ceilDiv k.len (s.core.pmtu x))) ∧
  (∀ (s s1 : State) (p : Nat) (k : RocePkt) (c : Nat → Instr) (ops : List Nat),
    (c, ops) ∈ [(Instr.roceSend, [0, 1, 2, 4]), (Instr.roceWrite, [6, 7, 8, 10]), (Instr.roceReadRequest, [12])] →
    s.takeRoce p ops = some (none, k, s1) → s.ticking = true → runs (c p) s fun u => u = s1)

/-- R369 to R372, R392: a command datagram with the expected SEQ of a live context moves its series on and delivers its entries at TAIL, or its
messages; an acknowledgement drops what it acknowledges; one that names no live context is counted in EP_CMD_BAD; RTO sends everything unacknowledged
again, and at its eighth time in a row tears the context down with cause 2. -/
def Obligations.CommandDatagramsAreTaken : Prop :=
  (∀ (s s1 : State) (p x q n : Nat) (d : UpPkt), s.takeDg p 1 = some (d, s1) → n = leField d.bytes 18 2 → q = leField d.bytes 16 2 → 1 ≤ n →
    n ≤ 128 → d.bytes.length = 32 + 64 * n → leField d.bytes 6 2 ≠ 4095 → s1.dgContext d = some x → (s.pcRun x).unacked = [] →
    leField d.bytes 8 4 = s.core.seqIn x → s.core.qTakes q x = true → n ≤ s.core.qRoom q → s.work.direct = [] →
    s.alive = true → runs (.cmdEntries p) s fun u => u.net.rxUp = s1.net.rxUp ∧ u.core.seqIn x = (leField d.bytes 8 4 + 1) % 2 ^ 32 ∧
      u.core.fld (Reg.qTail q) 31 0 = (s.core.fld (Reg.qTail q) 31 0 + n) % 2 ^ 32) ∧
  (∀ (s s1 : State) (p x : Nat) (d : UpPkt), s.takeDg p 2 = some (d, s1) → s1.dgContext d = some x → s.ticking = true → runs (.cmdAck p) s fun u =>
    u.net.rxUp = s1.net.rxUp ∧
    (u.pcRun x).unacked = (s.pcRun x).unacked.filter fun e => seqBefore (leField d.bytes 12 4) e.1) ∧
  (∀ (s s1 : State) (p x : Nat) (d : UpPkt), s.takeDg p 3 = some (d, s1) → s1.dgContext d = some x → s.core.pcKind x = 4 →
    d.bytes.length = 32 + 16 * leField d.bytes 18 2 → (s.pcRun x).unacked = [] → leField d.bytes 8 4 = s.core.seqIn x →
    s.ticking = true → runs (.cmdMessages p) s fun u => u.core.seqIn x = (leField d.bytes 8 4 + 1) % 2 ^ 32 ∧
      u.net.rxMsgs.map (·.bytes) = s.net.rxMsgs.map (·.bytes) ++ (splitMsgs ((d.bytes.drop 32).length + 1) (d.bytes.drop 32)).1) ∧
  (∀ (s s1 : State) (p k : Nat) (d : UpPkt) (c : Nat → Instr), (c, k) ∈ [(Instr.cmdAck, 2), (Instr.cmdMessages, 3)] → p < 2 →
    s.takeDg p k = some (d, s1) → s1.dgContext d = none → s.ticking = true → runs (c p) s fun u =>
      u.core.rd (Reg.epCmdBad p) = s.core.rd (Reg.epCmdBad p) + 1 ∧ u.sameRegsBut s [Reg.epCmdBad p] ∧ u.sameMemory s ∧ u.net = s1.net) ∧
  (∀ (s : State) (x : Nat), s.core.pcLive x = true → x < 4095 → (s.pcRun x).unacked ≠ [] →
    (s.pcRun x).progress + 1024 * s.core.fld (Reg.pcPort x) 63 48 ≤ s.core.now.toNat → (s.pcRun x).timeouts < 7 →
    s.ticking = true → runs (.rtoExpire x) s fun u => (u.pcRun x).timeouts = (s.pcRun x).timeouts + 1 ∧ (u.pcRun x).unacked = (s.pcRun x).unacked ∧
      u.core.rd (Reg.epRetransmit (s.core.fld (Reg.pcCtrl x) 3 3)) =
        s.core.rd (Reg.epRetransmit (s.core.fld (Reg.pcCtrl x) 3 3)) + BitVec.ofNat 64 (s.pcRun x).unacked.length ∧
      u.core.pcLive x = true ∧ u.sameMemory s) ∧
  (∀ (s : State) (x : Nat), s.core.pcLive x = true → x < 4095 → (s.pcRun x).unacked ≠ [] →
    (s.pcRun x).progress + 1024 * s.core.fld (Reg.pcPort x) 63 48 ≤ s.core.now.toNat → 7 ≤ (s.pcRun x).timeouts →
    s.ticking = true → runs (.rtoExpire x) s fun u => u.core.pcLive x = false ∧ u.core.fld (Reg.pcStatus x) 2 1 = 2 ∧ u.core.bit (Reg.pcStatus x) 3 = true)

/-- R364, R393, R403, R404, R408: EP_CTRL with a new EN or MODE takes the link down until it trains; the link of an enabled port comes up; a write of KIND
1 to 4 makes an unused context live with both series at 1; a live context takes only KIND 0, which tears it down with cause 1. -/
def Obligations.PortsAndContextsAreConfigured : Prop :=
  (∀ (s : State) (p : Nat) (v : Word), p < 2 → s.core.fld (Reg.epCtrl p) 1 0 ≠ getF v 1 0 → s.ticking = true → runs (.epCtrlWrite p v) s fun u =>
    u.core.rd (Reg.epCtrl p) = v &&& 0x3 ∧ u.core.bit (Reg.epStatus p) 0 = false ∧ u.sameMemory s ∧ s.sameUnits u) ∧
  (∀ (s : State) (p : Nat) (v : Word), p < 2 → s.core.fld (Reg.epCtrl p) 1 0 = getF v 1 0 → getF v 2 2 = 0 → s.ticking = true → runs (.epCtrlWrite p v) s fun u =>
    u.core.rd (Reg.epCtrl p) = v &&& 0x3 ∧ u.sameRegsBut s [Reg.epCtrl p] ∧ u.sameMemory s ∧ s.sameUnits u) ∧
  (∀ (s : State) (p : Nat), p < 2 → s.core.bit (Reg.epCtrl p) 0 = true → s.core.bit (Reg.epStatus 0) 2 = false →
    s.alive = true → runs (.epLinkUpChange p true) s fun u => u.core.bit (Reg.epStatus p) 0 = true ∧ u.sameRegsBut s [Reg.epStatus p] ∧ u.sameMemory s) ∧
  (∀ (s : State) (p : Nat) (up : Bool), p < 2 → (up = false ∨ s.core.bit (Reg.epCtrl p) 0 = false ∨ (p = 1 ∧ s.core.bit (Reg.epStatus 0) 2 = true)) →
    s.alive = true → runs (.epLinkUpChange p up) s fun u => u.core.bit (Reg.epStatus p) 0 = false ∧ u.sameRegsBut s [Reg.epStatus p] ∧ u.sameMemory s) ∧
  (∀ (s : State) (x : Nat) (v : Word), s.noneWaiting → x < 4095 → s.core.pcKind x = 0 → 1 ≤ getF v 2 0 → getF v 2 0 ≤ 4 → s.ticking = true → runs (.pcCtrlWrite x v) s fun u =>
    u.core.pcLive x = true ∧ u.core.rd (Reg.pcCtrl x) = v &&& 0x3_FFFF_FF7F ∧ u.core.seqIn x = 1 ∧ u.core.seqOut x = 1 ∧
    u.pcRun x = PcRun.fresh x ∧ u.sameMemory s) ∧
  (∀ (s : State) (x : Nat) (v : Word), x < 4095 → s.core.pcKind x ≠ 0 → getF v 2 0 = 0 → s.ticking = true → runs (.pcCtrlWrite x v) s fun u =>
    u.core.pcLive x = false ∧ u.core.pcKind x = 0 ∧ u.core.fld (Reg.pcStatus x) 2 1 = 1 ∧ u.core.bit (Reg.pcStatus x) 3 = true) ∧
  (∀ (s : State) (x : Nat) (v : Word), s.tidy → s.noneWaiting → x < 4095 → s.core.pcKind x ≠ 0 → getF v 2 0 ≠ 0 →
    s.ticking = true → runs (.pcCtrlWrite x v) s fun u => u = s)

/-- R389, R395 to R397, R407: a queue is enabled empty, and disabled by a write that clears EN, no other write being taken while it is enabled; a
direct entry is written at TAIL, and waits for room while the ring is full; the doorbell sets TAIL unless it would move back or pass the ring; HEAD of a mailbox counts what it passes; an
outbound entry is sent to its partner and kept until it is acknowledged. R334: what is written into the staging region of an open window reads
undefined. When TAIL moves back (log entry 55), and that a direct entry waits for a context that is not live (log entry 74), are the model's choices. -/
def Obligations.QueuesTakeAndSendEntries : Prop :=
  (∀ (s : State) (q : Nat) (v : Word), q < 16382 → s.core.qEn q = false → getF v 0 0 = 1 → s.core.bindOk q (v &&& 0xF7FF_FF1F) = true →
    s.ticking = true → runs (.qCfgWrite q v) s fun u => u.core.rd (Reg.qCfg q) = v &&& 0xF7FF_FF1F ∧ u.core.rd (Reg.qHead q) = 0 ∧ u.core.rd (Reg.qTail q) = 0 ∧
      u.sameRegsBut s [Reg.qCfg q, Reg.qHead q, Reg.qTail q] ∧ u.sameMemory s) ∧
  (∀ (s : State) (q : Nat) (v : Word), q < 16382 → s.core.qEn q = true → getF v 0 0 = 0 → s.ticking = true → runs (.qCfgWrite q v) s fun u =>
    u.core.rd (Reg.qCfg q) = v &&& 0xF7FF_FF1F ∧ u.core.qEn q = false ∧ u.sameRegsBut s [Reg.qCfg q] ∧ u.sameMemory s) ∧
  (∀ (s : State) (q : Nat) (v : Word), s.core.qEn q = true → getF v 0 0 = 1 → s.ticking = true → runs (.qCfgWrite q v) s fun u => u = s) ∧
  (∀ (s : State) (q slot : Nat) (data : List Byte), q < 16384 → q ≠ 16382 → s.core.qLive q = true → 0 < s.core.qRoom q → data.length = 64 →
    s.work.direct = [] → slot = s.core.qSlot q (s.core.fld (Reg.qTail q) 31 0) → slot % 64 = 0 → s.core.mustWait slot = false →
    s.ticking = true → runs (.qDirectEntry q data) s fun u =>
      (q < 16382 → u.core.fld (Reg.qTail q) 31 0 = (s.core.fld (Reg.qTail q) 31 0 + 1) % 2 ^ 32) ∧
      (q ∉ s.core.engineQueues → s.noneWaiting → (s.core.stageAt slot = none → u.core.rdBytes slot 64 = data) ∧ u.sameMemoryBut s slot 64 ∧
        u.core.fld (Reg.qTail q) 31 0 = (s.core.fld (Reg.qTail q) 31 0 + 1) % 2 ^ 32)) ∧
  (∀ (s : State) (q : Nat) (data : List Byte), q < 16384 → q ≠ 16382 → s.core.qEn q = true →
    (s.core.qRoom q = 0 ∨ s.core.qLive q = false) → data.length = 64 →
    q ∉ s.core.engineQueues → s.noneWaiting → s.tidy → s.ticking = true → runs (.qDirectEntry q data) s fun u =>
      u.work.direct.map (fun d => (d.queue, d.data)) = [(q, data)] ∧ u.core.rd (Reg.qTail q) = s.core.rd (Reg.qTail q) ∧ u.sameMemory s) ∧
  (∀ (s : State) (q : Nat) (v : Word), q < 16384 → q ≠ 16382 → s.core.qLive q = true → s.work.direct = [] →
    (v.toNat % 2 ^ 32 + 2 ^ 32 - s.core.fld (Reg.qTail q) 31 0) % 2 ^ 32 < 2 ^ 31 →
    (v.toNat % 2 ^ 32 + 2 ^ 32 - s.core.fld (Reg.qHead q) 31 0) % 2 ^ 32 ≤ s.core.qSize q → s.ticking = true → runs (.qDoorbellWrite q v) s fun u =>
      (q < 16382 → u.core.fld (Reg.qTail q) 31 0 = v.toNat % 2 ^ 32) ∧
      (q ∉ s.core.engineQueues → s.noneWaiting → u.core.fld (Reg.qTail q) 31 0 = v.toNat % 2 ^ 32 ∧ u.sameMemory s)) ∧
  (∀ (s : State) (q : Nat) (v : Word), s.core.qLive q = false → s.tidy → s.noneWaiting → s.ticking = true → runs (.qDoorbellWrite q v) s fun u => u = s.wake) ∧
  (∀ (s : State) (q : Nat) (v : Word), q < 16384 → q ≠ 16382 → s.core.qLive q = true → s.noneWaiting →
    (2 ^ 31 ≤ (v.toNat % 2 ^ 32 + 2 ^ 32 - s.core.fld (Reg.qTail q) 31 0) % 2 ^ 32 ∨
      s.core.qSize q < (v.toNat % 2 ^ 32 + 2 ^ 32 - s.core.fld (Reg.qHead q) 31 0) % 2 ^ 32) → s.ticking = true → runs (.qDoorbellWrite q v) s fun u =>
      u.core.bit (Reg.qStatus q) 1 = true ∧ u.core.fld (Reg.qTail q) 31 0 = s.core.fld (Reg.qTail q) 31 0 ∧ u.sameMemory s) ∧
  (∀ (s : State) (q : Nat) (v : Word), q < 16384 → q ≠ 16382 → s.core.fld (Reg.qCfg q) 3 1 = 4 → q ∉ s.core.engineQueues →
    s.noneWaiting → s.tidy →
    s.ticking = true → runs (.qHeadWrite q v) s fun u => u.core.fld (Reg.qHead q) 31 0 = v.toNat % 2 ^ 32 ∧
      u.core.rd (Reg.qCount q) = s.core.rd (Reg.qCount q) +
        BitVec.ofNat 64 ((v.toNat % 2 ^ 32 + 2 ^ 32 - s.core.fld (Reg.qHead q) 31 0) % 2 ^ 32) ∧
      u.sameRegsBut s [Reg.qHead q, Reg.qCount q] ∧ u.sameMemory s) ∧
  (∀ (s : State) (q x : Nat), q < 16384 → s.core.qEn q = true → s.core.fld (Reg.qCfg q) 3 1 = 5 → s.core.bit (Reg.qCfg q) 4 = false →
    x = s.core.fld (Reg.qCfg q) 19 8 → s.core.pcLive x = true → s.inFlight q x < s.core.qUsed q → s.core.pcKind x = 3 → s.core.pushesOut x < 16 →
    s.core.reachable (s.core.fld (Reg.pcCtrl x) 19 8) = true → (s.core.freeTag (s.core.fld (Reg.pcCtrl x) 19 8)).isSome = true → s.ticking = true → runs (.outboundEntrySend q) s fun u =>
      ∃ r, u.core.reqs = s.core.reqs ++ [r] ∧ r.waiter = .push q 1 ∧ r.dest = s.core.fld (Reg.pcCtrl x) 19 8 ∧
        r.msg = msgQueuePush 1 r.tag q (s.core.rdBytes (s.core.qSlot q (s.core.fld (Reg.qHead q) 31 0 + s.inFlight q x)) 64) ∧
        u.core.fld (Reg.qHead q) 31 0 = s.core.fld (Reg.qHead q) 31 0 ∧ u.sameMemory s) ∧
  (∀ (s : State) (q x : Nat), q < 16384 → s.core.qEn q = true → s.core.fld (Reg.qCfg q) 3 1 = 5 → s.core.bit (Reg.qCfg q) 4 = false →
    x = s.core.fld (Reg.qCfg q) 19 8 → s.core.pcLive x = true → s.inFlight q x < s.core.qUsed q → s.core.pcKind x = 1 →
    (s.pcRun x).unacked.length < 32 → s.ticking = true → runs (.outboundEntrySend q) s fun u =>
      (∃ d, (u.pcRun x).unacked = (s.pcRun x).unacked ++ [(s.core.seqOut x, d)] ∧ leField d 5 1 = 1 ∧ leField d 16 2 = q ∧ leField d 18 2 = 1) ∧
      u.core.seqOut x = (s.core.seqOut x + 1) % 2 ^ 32 ∧ u.core.fld (Reg.qHead q) 31 0 = s.core.fld (Reg.qHead q) 31 0 ∧ u.sameMemory s)

/-! ## Messages between modules -/

/-- R388, R390, R454: reads, writes and accumulates of another module are served and answered to it: the data of a read, the bytes of a write and no
other, the sums of an accumulate. A read or write of a range that is not this module's memory, or of any while the module sleeps, a read of no bytes or
of more than 4,096, and an accumulate of an address that is no adder's, are answered ADDR_RANGE with no memory changed. R334: what is written into the
staging region of an open window reads undefined. -/
def Obligations.PeerAccessesAreServed : Prop :=
  (∀ (s : State) (m : Msg) (ms : List Msg) (ga n : Nat), s.net.rxMsgs = m :: ms → leField m.bytes 0 1 = 0x10 → ga = leField m.bytes 8 7 →
    n = leField m.bytes 4 4 → s.core.msgRange ga n = true → 1 ≤ n → n ≤ 4096 → s.core.ueLines ga n = [] → s.ticking = true → runs .readReq s fun u =>
      u.net.rxMsgs = ms ∧ u.sameMemory s ∧ u.core.rd Reg.obsRemoteIn = s.core.rd Reg.obsRemoteIn + BitVec.ofNat 64 n ∧
      ∃ r, r ∈ u.core.msgOut ∧ r.dest = m.src ∧ r.cls = m.cls ∧
        r.bytes = msgReadResp 0 (leField m.bytes 2 2) (s.core.rdBytes (gaLocal ga) n)) ∧
  (∀ (s : State) (m : Msg) (ms : List Msg) (ga n : Nat), s.net.rxMsgs = m :: ms → leField m.bytes 0 1 = 0x12 → ga = leField m.bytes 8 7 →
    n = leField m.bytes 4 4 → s.core.msgRange ga n = true → s.core.ueLines ga n = [] → s.core.copiesFit (n / 0x4000 + 2) →
    s.core.nothingHeld (.peer m.src (leField m.bytes 2 2) 0x13) → s.ticking = true → runs .msgWrite s fun u =>
      u.net.rxMsgs = ms ∧ (s.core.unstaged (gaLocal ga) n → u.core.rdBytes (gaLocal ga) n = bytesAt m.bytes 16 n) ∧ u.sameMemoryBut s (gaLocal ga) n ∧
      u.core.rd Reg.obsRemoteIn = s.core.rd Reg.obsRemoteIn + BitVec.ofNat 64 n ∧
      ∃ r, r ∈ u.core.msgOut ∧ r.dest = m.src ∧ r.cls = 1 ∧ r.bytes = msgAck 0x13 0 (leField m.bytes 2 2)) ∧
  (∀ (s : State) (m : Msg) (ms : List Msg) (l : Nat), s.net.rxMsgs = m :: ms → leField m.bytes 0 1 = 0x14 → leField m.bytes 1 1 = 0 →
    s.core.awake = true → s.core.isLocal (leField m.bytes 8 7) = true → l = gaLocal (leField m.bytes 8 7) / 64 * 64 →
    s.core.addRefused (gaLocal (leField m.bytes 8 7)) = false → s.core.windowAt (gaLocal (leField m.bytes 8 7)) = none →
    s.core.mustWait (gaLocal (leField m.bytes 8 7)) = false → s.core.isUe (l / 64) = false →
    s.core.nothingHeld (.peer m.src (leField m.bytes 2 2) 0x15) → s.ticking = true → runs .accum s fun u =>
      u.net.rxMsgs = ms ∧ u.sameMemoryBut s l 64 ∧
      (s.core.stageAt l = none → ∀ i, i < 16 → (u.core.lineLanes l).getD i 0 = if bitOf (leField m.bytes 6 2) i = true
        then fAdd ((s.core.lineLanes l).getD i 0) (BitVec.ofNat 32 (leField m.bytes (16 + 4 * i) 4)) else (s.core.lineLanes l).getD i 0) ∧
      ∃ r, r ∈ u.core.msgOut ∧ r.dest = m.src ∧ r.cls = 2 ∧ r.bytes = msgAck 0x15 0 (leField m.bytes 2 2)) ∧
  (∀ (s : State) (m : Msg) (ms : List Msg) (n : Nat), s.net.rxMsgs = m :: ms → leField m.bytes 0 1 = 0x10 → n = leField m.bytes 4 4 →
    (s.core.msgRange (leField m.bytes 8 7) n = false ∨ n = 0 ∨ 4096 < n) → s.ticking = true → runs .readReq s fun u =>
      u.net.rxMsgs = ms ∧ u.sameMemory s ∧ ∃ r bs, r ∈ u.core.msgOut ∧ r.dest = m.src ∧ r.cls = m.cls ∧
        bs.length = n ∧ r.bytes = msgReadResp 0x15 (leField m.bytes 2 2) bs) ∧
  (∀ (s : State) (m : Msg) (ms : List Msg), s.net.rxMsgs = m :: ms → leField m.bytes 0 1 = 0x12 →
    s.core.msgRange (leField m.bytes 8 7) (leField m.bytes 4 4) = false → s.ticking = true → runs .msgWrite s fun u =>
      u.net.rxMsgs = ms ∧ u.sameMemory s ∧ ∃ r, r ∈ u.core.msgOut ∧ r.dest = m.src ∧ r.cls = 1 ∧ r.bytes = msgAck 0x13 0x15 (leField m.bytes 2 2)) ∧
  (∀ (s : State) (m : Msg) (ms : List Msg), s.net.rxMsgs = m :: ms → leField m.bytes 0 1 = 0x14 → leField m.bytes 1 1 < 3 →
    (s.core.awake = false ∨ s.core.isLocal (leField m.bytes 8 7) = false ∨ s.core.addRefused (gaLocal (leField m.bytes 8 7)) = true) →
    s.core.nothingHeld (.peer m.src (leField m.bytes 2 2) 0x15) → s.ticking = true → runs .accum s fun u =>
      u.net.rxMsgs = ms ∧ u.sameMemory s ∧ ∃ r, r ∈ u.core.msgOut ∧ r.dest = m.src ∧ r.cls = 2 ∧ r.bytes = msgAck 0x15 0x15 (leField m.bytes 2 2))

/-- R389 to R391: a response ends the request that it names: a load's context gets its data and runs on, what an engine's stage lacked is kept for it,
a descriptor's acknowledgement is counted, an accepted push leaves its ring, a full one is kept and sent again after its wait, a refused one tears
its context down with cause 3; one to a request that timed out counts in QR_LATE, any other is only discarded; a request past its timeout ends and
is counted, and with LINK_DOWN ends the descriptor's that it served; a push received is put in its queue or refused. -/
def Obligations.ResponsesEndTheirRequests : Prop :=
  (∀ (s : State) (m : Msg) (ms : List Msg) (r : Req) (t n word : Nat) (x : Ctx), s.net.rxMsgs = m :: ms → leField m.bytes 0 1 = 0x11 →
    leField m.bytes 1 1 = 0 → s.core.reqOf (leField m.bytes 2 2) m.src 0x10 = some r → r.waiter = .load t n word → word / 2 ^ 27 = 0x04 →
    s.ctx? t n = some x → x.blocked = true → s.core.bit (Reg.ctxCtrl t n) 1 = false → s.core.allTagged → s.ticking = true → runs .readResp s fun u =>
      u.net.rxMsgs = ms ∧ u.core.reqs = s.core.reqs.filter (fun y => y.tag != r.tag) ∧ u.sameMemory s ∧
      u.ctx? t n = some { (x.setX (fD (BitVec.ofNat 27 word))
        (ldValue (BitVec.ofNat 27 word) (bytesAt m.bytes 16 (leField m.bytes 4 4)))).next with blocked := false }) ∧
  (∀ (s : State) (m : Msg) (ms : List Msg) (r : Req) (id ga n : Nat) (o : Owner), o ∈ [.desc id, .fill id, .ahead id] → s.net.rxMsgs = m :: ms →
    leField m.bytes 0 1 = 0x11 → leField m.bytes 1 1 = 0 → s.core.reqOf (leField m.bytes 2 2) m.src 0x10 = some r → r.waiter = .fetch o ga n →
    (s.desc? id).isSome = true → s.core.allTagged → s.ticking = true → runs .readResp s fun u =>
      u.net.rxMsgs = ms ∧ u.core.reqs = s.core.reqs.filter (fun y => y.tag != r.tag) ∧ u.sameMemory s ∧ u.work = s.work ∧
      u.core.fetched = s.core.fetched ++ [{ owner := o, ga := ga, n := n, status := 0, data := bytesAt m.bytes 16 n }]) ∧
  (∀ (s : State) (m : Msg) (ms : List Msg) (c : Instr) (k q id rec_ : Nat) (r : Req) (d : Desc),
    (c, k, q) ∈ [(Instr.writeAck, 0x13, 0x12), (Instr.accumAck, 0x15, 0x14)] → s.net.rxMsgs = m :: ms → leField m.bytes 0 1 = k →
    leField m.bytes 1 1 = 0 → s.core.reqOf (leField m.bytes 2 2) m.src q = some r → r.waiter = .desc id rec_ → s.desc? id = some d →
    s.core.allTagged → s.ticking = true → runs c s fun u => u.net.rxMsgs = ms ∧ u.core.reqs = s.core.reqs.filter (fun y => y.tag != r.tag) ∧
      u.desc? id = some { d with acks := d.acks - 1 } ∧ u.sameMemory s) ∧
  (∀ (s : State) (m : Msg) (ms : List Msg) (r : Req) (q n : Nat), s.net.rxMsgs = m :: ms → leField m.bytes 0 1 = 0x17 → q < 16382 →
    s.core.reqOf (leField m.bytes 2 2) m.src 0x16 = some r → r.waiter = .push q n → q ∉ s.core.engineQueues → s.noneWaiting → s.core.allTagged →
    s.tidy → ((leField m.bytes 1 1 = 0 → s.ticking = true → runs .queueAck s fun u => u.core.fld (Reg.qHead q) 31 0 = (s.core.fld (Reg.qHead q) 31 0 + n) % 2 ^ 32 ∧
        u.core.reqs = s.core.reqs.filter (fun y => y.tag != r.tag)) ∧
     (leField m.bytes 1 1 = 0xFF → s.ticking = true → runs .queueAck s fun u => u.core.fld (Reg.qHead q) 31 0 = s.core.fld (Reg.qHead q) 31 0 ∧
        ∃ y ∈ u.core.reqs, y.tag = r.tag ∧ y.full = true ∧ y.since = s.core.now.toNat) ∧
     (leField m.bytes 1 1 = 0x41 → s.ticking = true → runs .queueAck s fun u => u.core.pcLive (s.core.fld (Reg.qCfg q) 19 8) = false ∧
        u.core.fld (Reg.pcStatus (s.core.fld (Reg.qCfg q) 19 8)) 2 1 = 3))) ∧
  (∀ (s : State) (m : Msg) (ms : List Msg) (c : Instr) (k q : Nat) (key : Nat × Nat × Nat),
    (c, k, q) ∈ [(Instr.readResp, 0x11, 0x10), (Instr.writeAck, 0x13, 0x12), (Instr.accumAck, 0x15, 0x14), (Instr.queueAck, 0x17, 0x16)] →
    s.net.rxMsgs = m :: ms → leField m.bytes 0 1 = k → key = (leField m.bytes 2 2, m.src, q) →
    s.core.reqOf (leField m.bytes 2 2) m.src q = none → s.noneWaiting → s.core.allTagged → s.tidy → s.ticking = true → runs c s fun u =>
      u.core.reqs = s.core.reqs ∧ u.core.lateTags = s.core.lateTags.filter (· != key) ∧ u.sameRegsBut s [Reg.qrLate] ∧ u.sameMemory s ∧
      u.core.rd Reg.qrLate = s.core.rd Reg.qrLate + (if key ∈ s.core.lateTags then 1 else 0)) ∧
  (∀ (s : State) (r : Req) (tag : Nat), s.core.reqs.find? (fun r => r.tag == tag && r.full) = some r → r.since + 1024 ≤ s.core.now.toNat →
    s.ticking = true → runs (.queuePushRetry tag) s fun u => (∃ m, u.core.msgOut = s.core.msgOut ++ [m] ∧ m.dest = r.dest ∧ m.bytes = r.msg) ∧
      (∀ y ∈ u.core.reqs, y.tag = r.tag → y.full = false ∧ y.since = s.core.now.toNat) ∧ u.sameMemory s) ∧
  (∀ (s : State) (r : Req) (tag : Nat), tag < 0x10000 → s.core.reqs.find? (fun r => r.tag == tag && !r.full) = some r →
    r.since + r.limit ≤ s.core.now.toNat → r.waiter = .nobody → s.core.allTagged → s.ticking = true → runs (.remoteTimeoutExpire tag) s fun u =>
      u.core.rd Reg.qrTimeouts = s.core.rd Reg.qrTimeouts + 1 ∧ u.core.reqs = s.core.reqs.filter (fun y => y.tag != r.tag) ∧
      u.core.lateTags = s.core.lateTags ++ [(tag, r.dest, leField r.msg 0 1)] ∧ u.sameMemory s) ∧
  (∀ (s : State) (r : Req) (tag id rec_ : Nat) (d : Desc), tag < 0x10000 → s.core.reqs.find? (fun r => r.tag == tag && !r.full) = some r →
    r.since + r.limit ≤ s.core.now.toNat → r.waiter = .desc id rec_ → rec_ < 0x100 → s.desc? id = some d → (∀ k ∈ d.conds, k.code ≠ 0x40) →
    s.core.allTagged → s.ticking = true → runs (.remoteTimeoutExpire tag) s fun u =>
      u.core.rd Reg.qrTimeouts = s.core.rd Reg.qrTimeouts + 1 ∧ u.core.reqs = s.core.reqs.filter (fun y => y.tag != r.tag) ∧
      u.desc? id = some { d with conds := d.conds ++ [{ code := 0x40, addr := r.addr, rec_ := rec_ }], acks := d.acks - 1 } ∧ u.sameMemory s) ∧
  (∀ (s : State) (m : Msg) (ms : List Msg) (q x n : Nat), s.net.rxMsgs = m :: ms → leField m.bytes 0 1 = 0x16 → q = leField m.bytes 4 2 →
    n = leField m.bytes 1 1 → x = s.core.fld (Reg.qCfg q) 19 8 → s.core.qTakes q x = true → s.core.pcLive x = true → s.core.pcKind x = 3 →
    s.core.fld (Reg.pcCtrl x) 19 8 = m.src → n ≤ s.core.qRoom q → s.work.direct = [] → s.ticking = true → runs .queuePush s fun u =>
      u.core.fld (Reg.qTail q) 31 0 = (s.core.fld (Reg.qTail q) 31 0 + n) % 2 ^ 32 ∧
      ∃ r, r ∈ u.core.msgOut ∧ r.dest = m.src ∧ r.bytes = msgAck 0x17 0 (leField m.bytes 2 2)) ∧
  (∀ (s : State) (m : Msg) (ms : List Msg), s.net.rxMsgs = m :: ms → leField m.bytes 0 1 = 0x16 → s.core.qEn (leField m.bytes 4 2) = false →
    s.ticking = true → runs .queuePush s fun u => ∃ r, r ∈ u.core.msgOut ∧ r.dest = m.src ∧ r.bytes = msgAck 0x17 0x41 (leField m.bytes 2 2))

/-! ## Quiras links -/

/-- R375, R376, R378 to R380, R387: what a link sends and takes. A slot sends a control frame that is due, else the next frame of a replay, else a frame
of the first class from the slot on that has one and credit, which is kept for a replay under the next SEQ; nothing new goes while 2,048 frames are
unacknowledged. A data frame of the expected SEQ is accepted: whole messages for this module are received, a frame for another module goes on by its
route, or is dropped and counted. A bad or out-of-order frame draws one NAK and changes nothing else. A control frame's ACK frees what it
acknowledges, its NAK starts a replay; the timer, too, sends one that owes nothing after it. R362, R377: a group of lines is counted as its message begins
to leave; a frame of class H goes on only by a link that HATBOX_LINKS names. That the parity of a frame is an operand, and that a message for a port is
relayed whole, is log entry 56; what becomes of class H elsewhere is log entry 76. -/
def Obligations.LinksSendAndTakeFrames : Prop :=
  (∀ (s : State) (l : Nat) (f : TxFrame) (r : List TxFrame), s.links.length = 12 → s.core.linkUp l = true → (s.link l).controlDue = false →
    (s.link l).replay = f :: r →
    s.alive = true → runs (.frameSlot l) s fun u => u.core.outbox = s.core.outbox ++ [s.frameOut l (frameHdr f.seq f.cls 0 f.src f.dest) f.payload] ∧
      u.link l = { s.link l with replay := r } ∧ u.core.rd (Reg.qlTxBytes l) = s.core.rd (Reg.qlTxBytes l) + 256 ∧
      u.sameRegsBut s [Reg.qlTxBytes l] ∧ u.sameMemory s) ∧
  (∀ (s : State) (l i k : Nat) (sched : Word) (m : Msg), s.links.length = 12 → s.core.linkUp l = true → (s.link l).controlDue = false →
    (s.link l).replay = [] →
    (s.link l).retry.length < 2048 → sched = (if (s.link l).slot = 0 then s.core.rd (Reg.qlSched l) else (s.link l).sched) →
    k = slotClass sched ((s.link l).slot + i) → i < 16 → s.classReady l k = true → (s.link l).hasCredit k = true →
    (∀ j, j < i → s.classReady l (slotClass sched ((s.link l).slot + j)) = true →
      (s.link l).hasCredit (slotClass sched ((s.link l).slot + j)) = false) →
    (s.link l).forward = [] → s.nextMsg l k = some m → m.bytes.length ≤ 256 → s.alive = true → runs (.frameSlot l) s fun u =>
      u.core.outbox = s.core.outbox ++ [s.frameOut l (frameHdr (s.link l).txSeq k 0 m.src m.dest) (bytesAt m.bytes 0 256)] ∧
      u.core.msgOut = s.core.msgOut.erase m ∧ (u.link l).txSeq = ((s.link l).txSeq + 1) % 4096 ∧
      (u.link l).retry = (s.link l).retry ++
        [{ seq := (s.link l).txSeq, cls := k, src := m.src, dest := m.dest, payload := bytesAt m.bytes 0 256 }] ∧
      (u.link l).slot = ((s.link l).slot + 1) % 16 ∧ u.core.rd (Reg.qlTxBytes l) = s.core.rd (Reg.qlTxBytes l) + 256 ∧
      u.core.rd Reg.redSentGroups = s.core.rd Reg.redSentGroups +
        (if m.link = 12 ∧ m.cls = 2 ∧ m.src = s.core.moduleNo ∧ leField m.bytes 0 1 = 2 then 1 else 0) ∧
      u.sameRegsBut s [Reg.qlTxBytes l, Reg.redSentGroups] ∧ u.sameMemory s) ∧
  (∀ (s : State) (l : Nat), s.links.length = 12 → s.core.linkUp l = true → (s.link l).controlDue = false → (s.link l).replay = [] →
    2048 ≤ (s.link l).retry.length →
    s.alive = true → runs (.frameSlot l) s fun u => u.core = s.core ∧ (u.link l).retry = (s.link l).retry ∧ (u.link l).txSeq = (s.link l).txSeq) ∧
  (∀ (s : State) (l : Nat) (f : QFrame), s.links.length = 12 → s.core.linkUp l = true → (s.link l).rxSwitch = none → frameBad f = false →
    frameKind f = 0 → bitsOf f.hdr 11 0 = (s.link l).rxSeq → (s.link l).streams = [] → s.core.isSet = true →
    bitsOf f.hdr 40 29 = s.core.moduleNo → s.alive = true → runs (.quirasDataFrame l f) s fun u =>
      (u.link l).rxSeq = ((s.link l).rxSeq + 1) % 4096 ∧ (u.link l).nakSent = false ∧
      u.net.rxMsgs = s.net.rxMsgs ++ (splitMsgs 257 (bytesAt f.payload 0 256)).1.map (fun b =>
        { src := bitsOf f.hdr 28 17, dest := bitsOf f.hdr 40 29, cls := bitsOf f.hdr 14 12, link := l, tick := s.core.now.toNat, bytes := b }) ∧
      u.core.rd (Reg.qlRxBytes l) = s.core.rd (Reg.qlRxBytes l) + 256 ∧
      u.sameRegsBut s [Reg.qlRxBytes l, Reg.qlFecCorr l] ∧ u.sameMemory s) ∧
  (∀ (s : State) (l h : Nat) (f : QFrame), s.links.length = 12 → s.core.linkUp l = true → (s.link l).rxSwitch = none → frameBad f = false →
    frameKind f = 0 → bitsOf f.hdr 11 0 = (s.link l).rxSeq → (s.core.isSet = false ∨ bitsOf f.hdr 40 29 ≠ s.core.moduleNo) →
    h = s.core.hop (bitsOf f.hdr 40 29) → s.alive = true → runs (.quirasDataFrame l f) s fun u =>
      (u.link l).rxSeq = ((s.link l).rxSeq + 1) % 4096 ∧ u.net = s.net ∧ u.sameMemory s ∧
      (1 ≤ h → h ≤ 12 → h ≠ l + 1 → (bitsOf f.hdr 14 12 ≠ 4 ∨ s.hatboxLink (h - 1) = true) → ∃ g, (u.link (h - 1)).forward = (s.link (h - 1)).forward ++ [g] ∧ g.cls = bitsOf f.hdr 14 12 ∧
        g.src = bitsOf f.hdr 28 17 ∧ g.dest = bitsOf f.hdr 40 29 ∧ g.payload = bytesAt f.payload 0 256) ∧
      (13 ≤ h → h ≤ 14 → bitsOf f.hdr 14 12 ≠ 4 → (s.link l).streams = [] → u.core.msgOut = s.core.msgOut ++
        (splitMsgs 257 (bytesAt f.payload 0 256)).1.map (fun b =>
          { src := bitsOf f.hdr 28 17, dest := bitsOf f.hdr 40 29, cls := bitsOf f.hdr 14 12, link := 12, tick := 0, bytes := b })) ∧
      (h = 0 ∨ h = l + 1 ∨ h = 15 ∨ (bitsOf f.hdr 14 12 = 4 ∧ s.hatboxLink (h - 1) = false) → u.core.rd (Reg.qlRouteDrop l) = s.core.rd (Reg.qlRouteDrop l) + 1)) ∧
  (∀ (s : State) (l : Nat) (f : QFrame) (c : Instr), c ∈ [.quirasDataFrame l f, .controlFrame l f, .handoverMarker l f, .echoFrame l f] →
    s.links.length = 12 → s.core.linkUp l = true → (s.link l).rxSwitch = none → frameBad f = true → s.alive = true → runs c s fun u =>
      u.core.rd (Reg.qlBadFrames l) = s.core.rd (Reg.qlBadFrames l) + 1 ∧ u.sameRegsBut s [Reg.qlBadFrames l, Reg.qlFecCorr l] ∧
      u.link l = (if (s.link l).nakSent then s.link l else { s.link l with nakOwed := true, nakSent := true }) ∧
      u.net = s.net ∧ u.sameMemory s) ∧
  (∀ (s : State) (l : Nat) (f : QFrame), s.links.length = 12 → s.core.linkUp l = true → (s.link l).rxSwitch = none → frameBad f = false →
    frameKind f = 0 → bitsOf f.hdr 11 0 ≠ (s.link l).rxSeq → s.alive = true → runs (.quirasDataFrame l f) s fun u =>
      u.link l = (if (s.link l).nakSent then s.link l else { s.link l with nakOwed := true, nakSent := true }) ∧
      u.sameRegsBut s [Reg.qlFecCorr l] ∧ u.net = s.net ∧ u.sameMemory s) ∧
  (∀ (s : State) (l i : Nat) (f : QFrame), s.links.length = 12 → s.core.linkUp l = true → frameBad f = false → frameKind f = 1 →
    (s.link l).retry.findIdx? (fun g => g.seq == leField f.payload 0 2 % 4096) = some i → s.alive = true → runs (.controlFrame l f) s fun u =>
      (u.link l).retry = (s.link l).retry.drop (i + 1) ∧
      (bitOf (leField f.payload 0 2) 15 = true → (u.link l).replay = (s.link l).retry.drop (i + 1) ∧
        u.core.rd (Reg.qlReplays l) = s.core.rd (Reg.qlReplays l) + 1) ∧
      (bitOf (leField f.payload 0 2) 15 = false → u.core.rd (Reg.qlReplays l) = s.core.rd (Reg.qlReplays l) ∧ (u.link l).stalls = 0) ∧
      (bitOf (leField f.payload 12 2) 15 = true → u.core.fld (Reg.qlStatus l) 27 16 = leField f.payload 12 2 % 4096 ∧
        u.core.bit (Reg.qlStatus l) 28 = true) ∧
      (∀ k, k < 5 → (u.link l).creditIn.getD k 0 = leField f.payload (2 + 2 * k) 2) ∧
      u.sameRegsBut s [Reg.qlFecCorr l, Reg.qlStatus l, Reg.qlReplays l] ∧ u.net = s.net ∧ u.sameMemory s) ∧
  (∀ (s : State) (l : Nat) (c : Instr), s.links.length = 12 → s.core.linkUp l = true →
    (c = .controlFrameTimer l ∨ (c = .frameSlot l ∧ (s.link l).controlDue = true)) → s.alive = true → runs c s fun u =>
    ∃ b, u.core.outbox = s.core.outbox ++ [s.frameOut l (frameHdr 0 0 1 s.core.moduleNo 0) b] ∧ (u.link l).freedSince = 0 ∧
      leField b 0 2 % 4096 = ((s.link l).rxSeq + 4095) % 4096 ∧ bitOf (leField b 0 2) 15 = (s.link l).nakOwed ∧
      (∀ k, k < 5 → leField b (2 + 2 * k) 2 = (s.link l).freed.getD k 0 % 2 ^ 16) ∧ (u.link l).nakOwed = false ∧
      u.sameRegsBut s [] ∧ u.sameMemory s) ∧
  (∀ (s : State) (l : Nat), s.links.length = 12 → s.core.linkUp l = true → (s.link l).retry ≠ [] → s.alive = true → runs (.qlReplayTimeout l) s fun u =>
    (u.link l).replay = (s.link l).retry ∧ (u.link l).retry = (s.link l).retry ∧ (u.link l).stalls = (s.link l).stalls + 1 ∧
    u.core.rd (Reg.qlReplays l) = s.core.rd (Reg.qlReplays l) + 1 ∧ u.sameRegsBut s [Reg.qlReplays l] ∧ u.sameMemory s) ∧
  (∀ (s : State) (l : Nat), s.core.linkUp l = true → s.alive = true → runs (.alignmentMarker l) s fun u =>
    u.core.outbox = s.core.outbox ++ [.marker l] ∧ u.sameRegsBut s [] ∧ u.sameMemory s) ∧
  (∀ (s : State) (l : Nat) (f : QFrame) (c : Instr), c ∈ [.frameSlot l, .quirasDataFrame l f, .controlFrame l f, .controlFrameTimer l,
    .handoverMarker l f, .echoFrame l f, .qlReplayTimeout l, .alignmentMarker l] → s.core.linkUp l = false → s.alive = true → runs c s fun u => u = s)

/-- R381 to R385: what a link's own state does. Training ends UP with new series; eight replays without progress, or RETRAIN, enter RECOVERY, which
keeps the retry buffer and ends UP with a replay, or DOWN with everything of the link lost. A handover is refused while one runs, sends four
markers at READY, swaps its two lanes when it completes and changes no map when it is given up. The receiver switches after the last
marker. An echo run sends 64 requests and averages the eight best. That the parity of a frame is an operand is log entry 56. -/
def Obligations.LinksTrainHandOverAndEcho : Prop :=
  (∀ (s : State) (l : Nat), l < 12 → s.core.linkState l = 0 → s.core.bit (Reg.qlCtrl l) 0 = true → s.alive = true → runs (.linkTrainRetry l) s fun u =>
    u.core.linkState l = 1 ∧ u.sameRegsBut s [Reg.qlStatus l] ∧ u.sameMemory s ∧ s.sameUnits u) ∧
  (∀ (s : State) (l : Nat) (credit : Word), s.links.length = 12 → l < 12 → s.core.linkState l = 1 → (s.link l).rxSwitch = none →
    (s.link l).rxReady = none → s.alive = true → runs (.linkTrainingDone l credit) s fun u =>
    u.core.linkState l = 2 ∧ (u.link l).txSeq = 0 ∧ (u.link l).rxSeq = 0 ∧ (u.link l).retry = [] ∧ (u.link l).peerCredit = credit ∧
    (u.link l).own = s.core.rd (Reg.qlCredit l) ∧
    u.core.outbox = s.core.outbox ++ [.train l (s.core.rd (Reg.qlCredit l)) (s.core.rd (Reg.qlTxmap l))] ∧
    u.sameRegsBut s [Reg.qlStatus l] ∧ u.sameMemory s) ∧
  (∀ (s : State) (l : Nat) (credit : Word), s.links.length = 12 → l < 12 → s.core.linkState l = 3 → (s.link l).rxSwitch = none →
    (s.link l).rxReady = none → s.alive = true → runs (.linkTrainingDone l credit) s fun u =>
    u.core.outbox = s.core.outbox ++ [.train l (s.link l).own (s.core.rd (Reg.qlTxmap l))] ∧
    u.core.linkState l = 2 ∧ u.link l = { s.link l with replay := (s.link l).retry, stalls := 0 } ∧
    u.core.bit (Reg.qlCtrl l) 1 = false ∧ u.sameRegsBut s [Reg.qlStatus l, Reg.qlCtrl l] ∧ u.sameMemory s) ∧
  (∀ (s : State) (l p new old : Nat) (credit : Word), s.links.length = 12 → l < 12 → (s.core.linkState l = 1 ∨ s.core.linkState l = 3) →
    (s.link l).rxSwitch = some (p, new, old) → new < 8 → old < 8 → s.alive = true → runs (.linkTrainingDone l credit) s fun u =>
    u.core.linkState l = 2 ∧ (u.link l).rxSwitch = none ∧ ∀ i x, i < 5 → x = getF (s.core.rd (Reg.qlRxmap l)) (3 * i + 2) (3 * i) →
      getF (u.core.rd (Reg.qlRxmap l)) (3 * i + 2) (3 * i) = if x = old then new else if x = new then old else x) ∧
  (∀ (s : State) (l : Nat), s.links.length = 12 → s.core.linkUp l = true → 8 ≤ (s.link l).stalls → s.alive = true → runs (.linkRecovery l) s fun u =>
    u.core.linkState l = 3 ∧ u.core.rd (Reg.qlRecoveries l) = s.core.rd (Reg.qlRecoveries l) + 1 ∧
    (u.link l).retry = (s.link l).retry ∧ (u.link l).txSeq = (s.link l).txSeq ∧ (u.link l).rxSeq = (s.link l).rxSeq ∧
    u.sameRegsBut s ([Reg.qlStatus l, Reg.qlRecoveries l, Reg.qlHandover l, Reg.qlHandoverFail l] ++ eventRegs) ∧ u.sameMemory s) ∧
  (∀ (s : State) (l : Nat), (s.core.linkUp l = false ∨ (s.link l).stalls < 8) → s.alive = true → runs (.linkRecovery l) s fun u => u = s) ∧
  (∀ (s : State) (l : Nat), s.links.length = 12 → s.core.linkUp l = true → s.ticking = true → runs (.qlRetrain l) s fun u =>
    u.core.linkState l = 3 ∧ u.core.bit (Reg.qlCtrl l) 1 = true ∧ (u.link l).retry = (s.link l).retry ∧
    u.core.rd (Reg.qlRecoveries l) = s.core.rd (Reg.qlRecoveries l) + 1 ∧ u.sameMemory s) ∧
  (∀ (s : State) (l : Nat), s.links.length = 12 → l < 12 → s.core.linkState l = 3 → s.core.reqs = [] → s.red.sends = [] → s.noneWaiting →
    (s.hatboxLink l = false ∨ s.core.fld Reg.hbStatus 2 0 < 2) →
    s.alive = true → runs (.recoveryTimeout l) s fun u => u.core.linkState l = 0 ∧
      u.link l = { Link.initial with rxReady := (s.link l).rxReady, rxSwitch := (s.link l).rxSwitch } ∧
      u.core.bit (Reg.qlCtrl l) 1 = false ∧ u.core.bit (Reg.qlCtrl l) 2 = false ∧
      u.core.bit (Reg.qlHandover l) 3 = (s.core.bit (Reg.qlHandover l) 3 || (s.link l).tx.isSome) ∧
      u.core.rd (Reg.qlHandoverFail l) = s.core.rd (Reg.qlHandoverFail l) + (if (s.link l).tx = none then 0 else 1) ∧
      u.sameRegsBut s ([Reg.qlStatus l, Reg.qlCtrl l, Reg.qlRecoveries l, Reg.qlHandover l, Reg.qlHandoverFail l] ++ eventRegs) ∧
      u.sameMemory s) ∧
  (∀ (s : State) (l pos : Nat), s.links.length = 12 → s.core.linkUp l = true → (s.link l).tx = none → pos < 4 → s.ticking = true → runs (.qlHandoverGo l pos) s fun u =>
    (u.link l).tx = some { pos := pos, old := getF (s.core.rd (Reg.qlTxmap l)) (3 * pos + 2) (3 * pos),
                           new := getF (s.core.rd (Reg.qlTxmap l)) 14 12, switched := false } ∧
    u.core.fld (Reg.qlHandover l) 1 0 = pos ∧ u.core.fld (Reg.qlHandover l) 63 2 = s.core.fld (Reg.qlHandover l) 63 2 ∧
    u.core.bit (Reg.qlStatus l) 2 = true ∧
    u.sameRegsBut s [Reg.qlHandover l, Reg.qlStatus l] ∧ u.sameMemory s) ∧
  (∀ (s : State) (l pos : Nat), l < 12 → (s.core.linkUp l = false ∨ (s.link l).tx ≠ none) → s.ticking = true → runs (.qlHandoverGo l pos) s fun u =>
    u.core.bit (Reg.qlHandover l) 3 = true ∧ u.core.rd (Reg.qlHandoverFail l) = s.core.rd (Reg.qlHandoverFail l) + 1 ∧
    u.link l = s.link l ∧ u.sameRegsBut s [Reg.qlHandover l, Reg.qlHandoverFail l] ∧ u.sameMemory s) ∧
  (∀ (s : State) (l b : Nat) (f : QFrame) (h : Handover), s.links.length = 12 → s.core.linkUp l = true → frameBad f = false → frameKind f = 1 →
    b = leField f.payload 14 1 → bitOf b 3 = true → (s.link l).tx = some h → h.switched = false → h.pos = bitsOf b 5 4 →
    s.alive = true → runs (.controlFrame l f) s fun u => (u.link l).tx = some { h with switched := true } ∧
      u.core.outbox.length = s.core.outbox.length + 4) ∧
  (∀ (s : State) (l : Nat) (h : Handover), s.links.length = 12 → l < 12 → (s.link l).tx = some h → h.switched = true → h.old < 8 → h.new < 8 →
    s.alive = true → runs (.handoverComplete l) s fun u => (u.link l).tx = none ∧
      (∀ i x, i < 5 → x = getF (s.core.rd (Reg.qlTxmap l)) (3 * i + 2) (3 * i) →
        getF (u.core.rd (Reg.qlTxmap l)) (3 * i + 2) (3 * i) = if x = h.old then h.new else if x = h.new then h.old else x) ∧
      u.core.bit (Reg.qlHandover l) 4 = true ∧ u.core.bit (Reg.qlStatus l) 2 = false ∧
      u.core.rd (Reg.qlHandovers l) = s.core.rd (Reg.qlHandovers l) + 1 ∧
      u.sameRegsBut s [Reg.qlTxmap l, Reg.qlHandover l, Reg.qlHandovers l, Reg.qlStatus l] ∧ u.sameMemory s) ∧
  (∀ (s : State) (l : Nat) (h : Handover), s.links.length = 12 → l < 12 → (s.link l).tx = some h → h.switched = false →
    s.alive = true → runs (.handoverTimeout l) s fun u => (u.link l).tx = none ∧ u.core.bit (Reg.qlHandover l) 3 = true ∧
      u.core.bit (Reg.qlStatus l) 2 = false ∧ u.core.rd (Reg.qlHandoverFail l) = s.core.rd (Reg.qlHandoverFail l) + 1 ∧
      u.sameRegsBut s [Reg.qlHandover l, Reg.qlHandoverFail l, Reg.qlStatus l] ∧ u.sameMemory s) ∧
  (∀ (s : State) (l : Nat) (f : QFrame), s.links.length = 12 → s.core.linkUp l = true → frameBad f = false → frameKind f = 2 →
    leField f.payload 3 1 ≠ 0 → s.alive = true → runs (.handoverMarker l f) s fun u =>
      (u.link l).rxSwitch = some (leField f.payload 0 1, leField f.payload 1 1, leField f.payload 2 1) ∧
      u.sameRegsBut s [Reg.qlFecCorr l] ∧ u.sameMemory s) ∧
  (∀ (s : State) (l : Nat) (f : QFrame), s.links.length = 12 → s.core.linkUp l = true → frameBad f = false → frameKind f = 2 →
    leField f.payload 3 1 = 0 → leField f.payload 1 1 < 8 → leField f.payload 2 1 < 8 → s.alive = true → runs (.handoverMarker l f) s fun u =>
      (u.link l).rxSwitch = none ∧
      (∀ i x, i < 5 → x = getF (s.core.rd (Reg.qlRxmap l)) (3 * i + 2) (3 * i) →
        getF (u.core.rd (Reg.qlRxmap l)) (3 * i + 2) (3 * i) =
          if x = leField f.payload 2 1 then leField f.payload 1 1 else if x = leField f.payload 1 1 then leField f.payload 2 1 else x) ∧
      u.sameRegsBut s [Reg.qlFecCorr l, Reg.qlRxmap l, Reg.qlStatus l] ∧ u.sameMemory s) ∧
  (∀ (s : State) (l : Nat), s.links.length = 12 → s.core.linkUp l = true → s.core.bit (Reg.qlCtrl l) 2 = false → s.ticking = true → runs (.qlEcho l) s fun u =>
    u.core.bit (Reg.qlCtrl l) 2 = true ∧ (u.link l).echoLeft = 64 ∧ (u.link l).echoes = [] ∧ u.sameRegsBut s [Reg.qlCtrl l] ∧ u.sameMemory s) ∧
  (∀ (s : State) (l : Nat), s.links.length = 12 → s.core.linkUp l = true → s.core.bit (Reg.qlCtrl l) 2 = true → 0 < (s.link l).echoLeft →
    s.alive = true → runs (.echoExchange l) s fun u => u.link l = { s.link l with echoLeft := (s.link l).echoLeft - 1 } ∧
      u.core.outbox = s.core.outbox ++ [s.frameOut l (frameHdr 0 0 3 s.core.moduleNo 0) (bytesAt (leBytes 8 s.core.now.toNat) 0 256)] ∧
      u.sameRegsBut s [] ∧ u.sameMemory s) ∧
  (∀ (s : State) (l : Nat), s.core.linkUp l = true → s.core.bit (Reg.qlCtrl l) 2 = true → (s.link l).echoLeft = 0 →
    (s.link l).echoes.length = 8 → s.alive = true → runs (.echoExchange l) s fun u => u.core.bit (Reg.qlCtrl l) 2 = false ∧
      u.core.fld (Reg.qlEchoRtt l) 31 0 = 2 * ((s.link l).echoes.map fun e => e.1).sum % 2 ^ 32 ∧
      ((u.core.fld (Reg.qlEchoOffset l) 31 0 : Nat) : Int) = ((s.link l).echoes.map fun e => e.2).sum % 4294967296 ∧
      u.sameRegsBut s [Reg.qlCtrl l, Reg.qlEchoRtt l, Reg.qlEchoOffset l] ∧ u.sameMemory s) ∧
  (∀ (s : State) (l : Nat) (f : QFrame), s.core.linkUp l = true → frameBad f = false → frameKind f = 3 → bitOf (leField f.payload 24 1) 0 = false →
    s.alive = true → runs (.echoFrame l f) s fun u => u.sameRegsBut s [Reg.qlFecCorr l] ∧ u.sameMemory s ∧
      ∃ b, u.core.outbox = s.core.outbox ++ [s.frameOut l (frameHdr 0 0 3 s.core.moduleNo 0) b] ∧ leField b 0 8 = leField f.payload 0 8 ∧
        leField b 8 8 = s.core.now.toNat ∧ leField b 16 8 = s.core.now.toNat ∧ bitOf (leField b 24 1) 0 = true) ∧
  (∀ (s : State) (l : Nat) (f : QFrame), s.links.length = 12 → s.core.linkUp l = true → frameBad f = false → frameKind f = 3 →
    bitOf (leField f.payload 24 1) 0 = true → s.core.bit (Reg.qlCtrl l) 2 = true → s.alive = true → runs (.echoFrame l f) s fun u =>
      u.sameRegsBut s [Reg.qlFecCorr l] ∧ u.sameMemory s ∧ ∃ r o, (u.link l).echoes = (s.link l).echoes ++ [(r, o)] ∧
        o = ((leField f.payload 8 8 : Int) - leField f.payload 0 8) - ((s.core.now.toNat : Int) - leField f.payload 16 8) ∧
        (leField f.payload 0 8 ≤ s.core.now.toNat → leField f.payload 8 8 ≤ leField f.payload 16 8 →
          leField f.payload 16 8 - leField f.payload 8 8 ≤ s.core.now.toNat - leField f.payload 0 8 →
          r = (s.core.now.toNat - leField f.payload 0 8) - (leField f.payload 16 8 - leField f.payload 8 8)))

/-! ## The management queue -/

/-- R399 to R402, R62: REG_READ answers registers and changes none; REG_WRITE stores; FLASH_READ answers bytes; FLASH_ERASE and FLASH_WRITE change
exactly their bytes, and a slot in use or an unerased byte refuses a write; a calibration commit answers its class and changes no byte of
images or calibration; CAL_CAPTURE writes the live set with ORIGIN 2 and keeps the images and the key store. -/
def Obligations.ManagementReadsAndWrites : Prop :=
  (∀ (s : State) (e : MgmtEntry) (r : List MgmtEntry), s.mgmtTurn 1 e r → 1 ≤ e.arg1 → e.arg1 ≤ 6 → s.regRefusal e.arg0 (8 * e.arg1) = 0 →
    s.alive = true → runs .regRead s fun u => u.answered s e r 0 e.arg0 0 ((List.range e.arg1).flatMap fun i => leBytes 8 (s.readReg (e.arg0 + 8 * i)).toNat) ∧
      u.sameRegsBut s [Reg.epTxBytes 0] ∧ u.sameMemory s ∧ u.part = s.part) ∧
  (∀ (s : State) (e : MgmtEntry) (r : List MgmtEntry), s.mgmtTurn 2 e r → e.arg0 = Reg.numSrJobSeed → s.core.bare = false →
    s.noneWaiting → s.tidy → s.alive = true → runs .regWrite s fun u => u.answered s e r 0 e.arg0 0 [] ∧ u.core.rd Reg.numSrJobSeed = BitVec.ofNat 64 e.arg1 ∧
      u.sameRegsBut s [Reg.numSrJobSeed, Reg.epTxBytes 0] ∧ u.sameMemory s ∧ u.part = s.part) ∧
  (∀ (s : State) (e : MgmtEntry) (r : List MgmtEntry), s.mgmtTurn 3 e r → 1 ≤ e.arg1 → e.arg1 ≤ 48 → e.arg0 + e.arg1 ≤ 0x210_0000 →
    s.alive = true → runs .flashRead s fun u => u.answered s e r 0 e.arg0 0 (flashBytes s.part.flash e.arg0 e.arg1) ∧ u.part = s.part ∧
      u.sameRegsBut s [Reg.epTxBytes 0] ∧ u.sameMemory s) ∧
  (∀ (s : State) (e : MgmtEntry) (r : List MgmtEntry) (lo n : Nat), s.mgmtTurn 4 e r → e.arg0 % 0x1_0000 = 0 → e.arg0 < 0x110_0000 →
    s.slotBusy e.arg0 = false → (lo, n) = (if e.arg0 < 0x100_0000 then (e.arg0, 0x1_0000) else (0x100_0000, 0x10_0000)) →
    s.flashFails lo n = false → s.alive = true → runs (.flashErase true) s fun u => u.answered s e r 0 e.arg0 0 [] ∧
      (∀ a, sGet u.part.flash a 0xFF = if lo ≤ a ∧ a < lo + n then 0xFF else sGet s.part.flash a 0xFF) ∧
      u.sameRegsBut s [Reg.epTxBytes 0] ∧ u.sameMemory s) ∧
  (∀ (s : State) (e : MgmtEntry) (r : List MgmtEntry), s.mgmtTurn 5 e r → 1 ≤ e.arg1 → e.arg1 ≤ 48 → e.arg0 + e.arg1 ≤ 0x110_0000 →
    e.arg0 / 256 = (e.arg0 + e.arg1 - 1) / 256 → s.slotBusy e.arg0 = false → (∀ i, i < e.arg1 → sGet s.part.flash (e.arg0 + i) 0xFF = 0xFF) →
    s.flashFails e.arg0 e.arg1 = false → s.alive = true → runs (.flashWrite true) s fun u => u.answered s e r 0 e.arg0 0 [] ∧
      (∀ a, sGet u.part.flash a 0xFF = if e.arg0 ≤ a ∧ a < e.arg0 + e.arg1 then e.data.getD (a - e.arg0) 0 else sGet s.part.flash a 0xFF) ∧
      u.sameRegsBut s [Reg.epTxBytes 0] ∧ u.sameMemory s) ∧
  (∀ (s : State) (e : MgmtEntry) (r : List MgmtEntry) (ok : Bool), s.mgmtTurn 5 e r → 1 ≤ e.arg1 → e.arg1 ≤ 48 → e.arg0 + e.arg1 ≤ 0x110_0000 →
    e.arg0 / 256 = (e.arg0 + e.arg1 - 1) / 256 → (s.slotBusy e.arg0 = true ∨ ∃ i, i < e.arg1 ∧ sGet s.part.flash (e.arg0 + i) 0xFF ≠ 0xFF) →
    s.alive = true → runs (.flashWrite ok) s fun u => u.answered s e r (if s.slotBusy e.arg0 then 3 else 7) e.arg0 0 [] ∧ u.part = s.part) ∧
  (∀ (s : State) (e : MgmtEntry) (r : List MgmtEntry), s.mgmtTurn 6 e r → s.alive = true → runs .calCommit s fun u => u.net.mgmtIn = r ∧
    (∃ k : Core, k.outbox = s.core.outbox ∧
      u.core.outbox = (k.sendUdp 0 e.from_ (e.answer 0 e.arg0 (calClass s.part.fuses s.part.flash) [])).outbox) ∧
    ∀ a, a < 0x110_0000 → sGet u.part.flash a 0xFF = sGet s.part.flash a 0xFF) ∧
  (∀ (s : State) (e : MgmtEntry) (r : List MgmtEntry), s.mgmtTurn 7 e r → s.flashFails 0x100_0000 0xF_0000 = false → s.alive = true → runs .calCapture s fun u =>
    u.net.mgmtIn = r ∧ leField (flashBytes u.part.flash 0x100_0000 8) 6 2 = 2 ∧
    (∀ i, i < calLength → sGet u.part.flash (0x100_0000 + i) 0xFF = s.liveSet.getD i 0) ∧
    ∀ a, a < 0x100_0000 ∨ (0x10F_0000 ≤ a ∧ a < 0x110_0000) → sGet u.part.flash a 0xFF = sGet s.part.flash a 0xFF)

/-- R400 to R402, R500, R501: ATTEST captures its report, which is sent in 20 parts; RESET takes effect a millisecond later; CLAIM, RELEASE and the
timeout move the claim; another sender is answered CLAIMED, and an unclaimed queue answers BAD_OP. -/
def Obligations.ManagementClaimAttestAndReset : Prop :=
  (∀ (s : State) (e : MgmtEntry) (r : List MgmtEntry), s.mgmtTurn 8 e r → s.integ.boundaryWait = false → s.alive = true → runs .attest s fun u =>
    u.net.mgmtIn = r ∧ u.core.bit Reg.secStatus 9 = true ∧ u.sameRegsBut s [Reg.secStatus] ∧ u.sameMemory s ∧ u.core.outbox = s.core.outbox ∧
    ∃ a, u.net.attest = some a ∧ a.entry = e ∧ leField a.body 0 4 = 0x5453_5441 ∧ leField a.body 8 8 = s.part.fuses.serial % 2 ^ 64 ∧
      leField a.body 16 8 = s.core.now.toNat ∧ bytesAt a.body 32 32 = bytesAt e.data 0 32) ∧
  (∀ (s : State) (a : Attest), s.net.attest = some a → (∀ e, s.net.mgmtIn.head? = some e → e.listed = true) → s.alive = true → runs .attestSignDone s fun u => u.net.attest = none ∧
    u.core.bit Reg.secStatus 9 = false ∧ u.core.rd Reg.attestCount = s.core.rd Reg.attestCount + 1 ∧
    (s.core.bit (Reg.epStatus 0) 0 = true → u.core.outbox.length = s.core.outbox.length + 20) ∧
    u.sameRegsBut s [Reg.secStatus, Reg.attestCount, Reg.epTxBytes 0] ∧ u.sameMemory s) ∧
  (∀ (s : State) (e : MgmtEntry) (r : List MgmtEntry), s.mgmtTurn 9 e r → s.alive = true → runs .mgmtReset s fun u =>
    u.answered s e r (if e.arg0 = 0 then 0 else 2) e.arg0 0 [] ∧
    u.net.resetAt = (if e.arg0 = 0 then some (s.core.now.toNat + 900000) else s.net.resetAt) ∧
    u.sameRegsBut s [Reg.epTxBytes 0] ∧ u.sameMemory s) ∧
  (∀ (s : State) (t : Nat), s.net.resetAt = some t → t ≤ s.core.now.toNat → s.pwr.powered = true → s.pwr.tripped = false →
    s.pwr.starting = false → s.alive = true → runs .resetCommandFire s fun u => u.core.fld Reg.startStatus 2 0 = 1 ∧ u.core.fld Reg.rstCause 3 0 = 3 ∧
      u.pwr.starting = true ∧ u.net.resetAt = none ∧ u.part = s.part) ∧
  (∀ (s : State) (t : Nat), s.net.resetAt = some t → s.core.now.toNat < t → s.alive = true → runs .resetCommandFire s fun u => u = s) ∧
  (∀ (s : State) (e : MgmtEntry) (r : List MgmtEntry), s.mgmtTurn 0xA e r → s.net.claim = none → s.alive = true → runs .mgmtClaim s fun u =>
    u.answered s e r 0 e.arg0 0 [] ∧ (∃ c, u.net.claim = some c ∧ c.who = e.from_ ∧ c.next = (e.seq + 1) % 2 ^ 32 ∧ c.since = s.core.now.toNat) ∧
    u.sameRegsBut s [Reg.epTxBytes 0] ∧ u.sameMemory s) ∧
  (∀ (s : State) (e : MgmtEntry) (r : List MgmtEntry) (c : Claim), s.mgmtTurn 0xB e r → s.net.claim = some c → s.alive = true → runs .mgmtRelease s fun u =>
    u.answered s e r 0 e.arg0 0 [] ∧ u.net.claim = none ∧ u.sameRegsBut s [Reg.epTxBytes 0] ∧ u.sameMemory s) ∧
  (∀ (s : State) (c : Claim), s.net.claim = some c → s.alive = true → runs .claimTimeout s fun u => u.core = s.core ∧
    u.net.claim = if c.since + 2 ^ 36 ≤ s.core.now.toNat then none else some c) ∧
  (∀ (s : State) (e : MgmtEntry) (r : List MgmtEntry) (c : Claim) (i : Instr) (op : Nat), (i, op) ∈ mgmtOps → s.net.mgmtIn = e :: r →
    s.net.attest = none → s.integ.boundaryWait = false → s.noneWaiting → e.op = op → s.net.claim = some c → c.who.same e.from_ = false →
    (∀ e2, r.head? = some e2 → e2.listed = true) → s.alive = true → runs i s fun u => u.answered s e r 6 e.arg0 0 [] ∧ u.net.claim = some c ∧ u.part = s.part ∧ u.sameMemory s) ∧
  (∀ (s : State) (e : MgmtEntry) (r : List MgmtEntry) (i : Instr) (op : Nat), (i, op) ∈ mgmtOps → op ∉ [1, 3, 8, 0xA] → s.net.mgmtIn = e :: r →
    s.net.attest = none → s.noneWaiting → e.op = op → s.net.claim = none →
    (∀ e2, r.head? = some e2 → e2.listed = true) → s.alive = true → runs i s fun u => u.answered s e r 1 e.arg0 0 [] ∧ u.net.claim = none ∧ u.part = s.part ∧ u.sameMemory s)

/-! ## The Hatbox -/

/-- R420 to R428: TAKE makes a checkpoint due and RESTORE asks the partner for its image, each refused with RESULT 0x05 without a partner and without
effect while one runs; a log too small for the checkpoint ends it with RESULT 0x02 and nothing sent; pages are copied, sent once the log takes them, and
freed on their acknowledgement, and COMMIT follows the last; its answer ends the checkpoint; ABORT, and the loss of a link of HATBOX_LINKS, end it with
every page changed; a restored page is written into its region, and the end of a restore sets HB_STEP. How the messages are laid out, TAKE and RESTORE
without a partner, and the end after another status of COMMIT_ACK, are the model's choices (log entry 35). -/
def Obligations.CheckpointsAndRestoresOfTheModule : Prop :=
  (∀ (s : State) (m : Nat), s.core.fld Reg.hbStatus 2 0 = 0 → s.hbPartner = some m → s.ticking = true → runs .hbTake s fun u =>
    u.core.fld Reg.hbStatus 2 0 = 1 ∧ u.core.bit Reg.hbCtrl 0 = true ∧ u.sameRegsBut s [Reg.hbCtrl, Reg.hbStatus] ∧ u.sameMemory s ∧ s.sameUnits u) ∧
  (∀ (s : State) (m : Nat), s.core.fld Reg.hbStatus 2 0 = 0 → s.hbPartner = some m → s.ticking = true → runs .hbRestore s fun u =>
    u.core.fld Reg.hbStatus 2 0 = 4 ∧ u.core.bit Reg.hbCtrl 2 = true ∧ u.sendsH m (hbMsg 0x25 0 0 0 (tableBytes s.core.hbTable)) ∧
    u.sameRegsBut s [Reg.hbCtrl, Reg.hbStatus] ∧ u.sameMemory s ∧ s.sameUnits u) ∧
  (∀ (s : State) (c : Instr), c ∈ [.hbTake, .hbRestore] → s.core.fld Reg.hbStatus 2 0 = 0 → s.hbPartner = none → s.ticking = true → runs c s fun u =>
    u.core.fld Reg.hbStatus 2 0 = 0 ∧ u.core.fld Reg.hbStatus 15 8 = 5 ∧ u.core.bit Reg.hbStatus 16 = true ∧
    u.sameRegsBut s [Reg.hbCtrl, Reg.hbStatus] ∧ u.sameMemory s ∧ s.sameUnits u) ∧
  (∀ (s : State) (c : Instr), c ∈ [.hbTake, .hbRestore] → s.core.fld Reg.hbStatus 2 0 ≠ 0 → s.ticking = true → runs c s fun u => u = s) ∧
  (∀ (s : State), s.core.fld Reg.hbStatus 2 0 ≠ 0 → s.ticking = true → runs .hbAbort s fun u =>
    u.core.fld Reg.hbStatus 2 0 = 0 ∧ u.core.fld Reg.hbStatus 15 8 = 4 ∧ u.core.bit Reg.hbStatus 16 = true ∧ u.core.pend = [] ∧
    u.core.pageOut = [] ∧ u.integ.hbPages = [] ∧ ∀ p ∈ s.integ.hbPages, p ∉ u.core.clean) ∧
  (∀ (s : State) (p : Nat), s.core.fld Reg.hbStatus 2 0 = 2 → p ∈ s.core.pend → (∀ q ∈ s.core.pend, p ≤ q) →
    s.core.pageOut.length < stagingPages → s.ticking = true → runs .pageCopy s fun u => p ∉ u.core.pend ∧ p ∈ u.core.clean ∧
      (s.integ.hbFits = true → p ∈ u.integ.hbSent) ∧ (s.integ.hbFits = false → u.core.msgOut = s.core.msgOut) ∧
      u.core.pageOut = s.core.pageOut ++ [(p, s.core.rdBytes (p * 0x4000) 0x4000)] ∧ u.sameMemory s) ∧
  (∀ (s : State) (m : Msg) (ms : List Msg), s.msgTurn 0x21 m ms → s.core.fld Reg.hbStatus 2 0 = 2 → s.hbPartner = some m.src →
    leField m.bytes 1 1 = 1 → leField m.bytes 2 6 = s.integ.hbSeq % 2 ^ 48 → s.integ.hbFits = false → s.ticking = true → runs .pageAck s fun u =>
      u.net.rxMsgs = ms ∧ u.sameMemory s ∧ u.sameRegsBut s [Reg.hbStatus, Reg.hbCtrl] ∧
      (leField m.bytes 8 8 < s.integ.hbPages.length * (64 + 0x4000) → u.core.fld Reg.hbStatus 2 0 = 0 ∧ u.core.fld Reg.hbStatus 15 8 = 2 ∧
        u.core.bit Reg.hbStatus 16 = true ∧ u.core.msgOut = s.core.msgOut ∧ u.core.pend = [] ∧ ∀ p ∈ s.integ.hbPages, p ∉ u.core.clean) ∧
      (s.integ.hbPages.length * (64 + 0x4000) ≤ leField m.bytes 8 8 → s.core.pend ≠ [] → u.core.fld Reg.hbStatus 2 0 = 2 ∧
        u.integ = { s.integ with hbFits := true })) ∧
  (∀ (s : State) (m : Msg) (ms : List Msg), s.msgTurn 0x21 m ms → s.core.fld Reg.hbStatus 2 0 = 2 → s.hbPartner = some m.src →
    leField m.bytes 1 1 = 0 → leField m.bytes 8 8 = s.integ.hbSeq → s.ticking = true → runs .pageAck s fun u => u.net.rxMsgs = ms ∧ u.sameMemory s ∧
      u.core.pageOut = s.core.pageOut.filter (fun p => pageKey (pagePlace s.core.hbTable p.1) != leField m.bytes 2 6) ∧
      (s.core.pend = [] → u.core.pageOut = [] → s.integ.hbFits = true → u.core.fld Reg.hbStatus 2 0 = 3 ∧
        u.sendsH m.src (hbMsg 0x22 0 s.integ.hbSeq s.integ.hbAt (tableBytes s.core.hbTable)))) ∧
  (∀ (s : State) (m : Msg) (ms : List Msg), s.msgTurn 0x23 m ms → s.core.fld Reg.hbStatus 2 0 = 3 → s.hbPartner = some m.src →
    leField m.bytes 1 1 = 0 → s.tidy → s.ticking = true → runs .commitAck s fun u => u.net.rxMsgs = ms ∧ u.core.fld Reg.hbStatus 2 0 = 0 ∧
      u.core.fld Reg.hbStatus 15 8 = 1 ∧ u.core.bit Reg.hbStatus 16 = true ∧ u.core.rd Reg.hbStep = BitVec.ofNat 64 s.integ.hbAt ∧
      u.core.pend = [] ∧ u.integ.hbPages = [] ∧ u.sameRegsBut s [Reg.hbStatus, Reg.hbCtrl, Reg.hbStep] ∧ u.sameMemory s) ∧
  (∀ (s : State) (m : Msg) (ms : List Msg), s.msgTurn 0x23 m ms → s.core.fld Reg.hbStatus 2 0 = 3 → s.hbPartner = some m.src →
    leField m.bytes 1 1 ≠ 0 → s.ticking = true → runs .commitAck s fun u => u.net.rxMsgs = ms ∧ u.core.fld Reg.hbStatus 2 0 = 0 ∧
      u.core.fld Reg.hbStatus 15 8 = 3 ∧ ∀ p ∈ s.integ.hbPages, p ∉ u.core.clean) ∧
  (∀ (s : State) (m : Msg) (ms : List Msg) (r : Nat × Nat) (a : Nat), s.msgTurn 0x26 m ms → s.core.fld Reg.hbStatus 2 0 = 4 →
    s.hbPartner = some m.src → r = s.core.hbTable.getD (leField m.bytes 2 2) (0, 0) → 0x4000 * (leField m.bytes 4 4 + 1) ≤ r.2 →
    s.core.memRange r.1 r.2 = true → a = r.1 + 0x4000 * leField m.bytes 4 4 → (∀ l ∈ linesOf a 0x4000, s.core.isUe l = false) →
    s.core.copiesFit 2 → s.ticking = true → runs .restorePage s fun u => u.net.rxMsgs = ms ∧ (s.core.unstaged a 0x4000 → u.core.rdBytes a 0x4000 = bytesAt m.bytes 16 0x4000) ∧
      u.sameMemoryBut s a 0x4000) ∧
  (∀ (s : State) (m : Msg) (ms : List Msg), s.msgTurn 0x27 m ms → s.core.fld Reg.hbStatus 2 0 = 4 → s.hbPartner = some m.src →
    leField m.bytes 1 1 = 0 → s.ticking = true → runs .restoreDone s fun u => u.net.rxMsgs = ms ∧ u.core.fld Reg.hbStatus 2 0 = 0 ∧
      u.core.fld Reg.hbStatus 15 8 = 7 ∧ u.core.bit Reg.hbStatus 16 = true ∧ u.core.rd Reg.hbStep = BitVec.ofNat 64 (leField m.bytes 8 8) ∧
      (∀ p ∈ tablePages s.core.hbTable, p ∈ u.core.clean) ∧
      u.sameRegsBut s [Reg.hbStatus, Reg.hbCtrl, Reg.hbStep, Reg.jnlReplayPtr] ∧ u.sameMemory s) ∧
  (∀ (s : State) (m : Msg) (ms : List Msg), s.msgTurn 0x27 m ms → s.core.fld Reg.hbStatus 2 0 = 4 → s.hbPartner = some m.src →
    leField m.bytes 1 1 ≠ 0 → s.ticking = true → runs .restoreDone s fun u => u.net.rxMsgs = ms ∧ u.core.fld Reg.hbStatus 2 0 = 0 ∧
      u.core.fld Reg.hbStatus 15 8 = 6 ∧ u.sameRegsBut s [Reg.hbStatus, Reg.hbCtrl] ∧ u.sameMemory s) ∧
  (∀ (s : State) (l : Nat), s.links.length = 12 → l < 12 → s.core.linkState l = 3 → s.core.reqs = [] → s.red.sends = [] → s.noneWaiting →
    s.hatboxLink l = true → 2 ≤ s.core.fld Reg.hbStatus 2 0 → s.alive = true → runs (.recoveryTimeout l) s fun u =>
      u.core.linkState l = 0 ∧ u.core.fld Reg.hbStatus 2 0 = 0 ∧ u.core.fld Reg.hbStatus 15 8 = 3 ∧ u.core.bit Reg.hbStatus 16 = true ∧
      u.core.pend = [] ∧ ∀ p ∈ s.integ.hbPages, p ∉ u.core.clean)

/-- R421, R423 to R427: the partner answers a stream's first exchange with the room of its log, zero where HATBOX_IN names no module; it writes a
page to its log and acknowledges it, applies the log at COMMIT, keeps the journal mirror, and answers a restore with its image and mirror, or with status
0x06. How the messages are laid out, and the status 0x02 of a COMMIT that names no open stream, are the model's choices (log entry 35). -/
def Obligations.PartnerKeepsImageAndMirror : Prop :=
  (∀ (s : State) (m : Msg) (ms : List Msg) (tb : List (Nat × Nat)), s.msgTurn 0x20 m ms → leField m.bytes 1 1 = 1 → s.hbFrom m = true →
    (∀ k h, s.hbForce = some (k, h) → leField h 4 2 ≠ 2) → tb = tableOf (bytesAt m.bytes 16 256) → s.ticking = true → runs .page s fun u =>
      u.net.rxMsgs = ms ∧ u.sameMemory s ∧ u.integ = { s.integ with hbOpen := some (leField m.bytes 2 6, tb), hbIn := [] } ∧
      u.sendsH m.src (hbMsg 0x21 1 (leField m.bytes 2 6) (s.hbRegion.2 - logBase tb) [])) ∧
  (∀ (s : State) (m : Msg) (ms : List Msg), s.msgTurn 0x20 m ms → leField m.bytes 1 1 = 1 → s.pat.hatboxIn = 0xFFFF → s.ticking = true →
    runs .page s fun u => u.net.rxMsgs = ms ∧ u.sameMemory s ∧ u.integ = s.integ ∧ u.sendsH m.src (hbMsg 0x21 1 (leField m.bytes 2 6) 0 [])) ∧
  (∀ (s : State) (m : Msg) (ms : List Msg) (c : Instr) (k : Nat), (c, k) ∈ [(Instr.page, 0x20), (Instr.commit, 0x22), (Instr.journal, 0x24)] →
    s.msgTurn k m ms → leField m.bytes 1 1 ≠ 1 → s.hbFrom m = false → s.core.fld Reg.hbStatus 2 0 ≠ 4 → s.ticking = true →
    runs c s fun u => u = { s with net := { s.net with rxMsgs := ms } }) ∧
  (∀ (s : State) (m : Msg) (ms : List Msg) (seq a : Nat) (tb : List (Nat × Nat)), s.msgTurn 0x20 m ms → leField m.bytes 1 1 = 0 → s.hbFrom m = true →
    (∀ k h, s.hbForce = some (k, h) → leField h 4 2 ≠ 2) → s.integ.hbOpen = some (seq, tb) → leField m.bytes 8 8 % 2 ^ 48 = seq →
    a = logBase tb + s.integ.hbIn.length * (64 + 0x4000) → a + (64 + 0x4000) ≤ s.hbRegion.2 →
    (∀ l ∈ linesOf (s.hbRegion.1 + a) (64 + 0x4000), s.core.isUe l = false) → s.core.copiesFit 3 → s.ticking = true → runs .page s fun u =>
      u.net.rxMsgs = ms ∧ u.sendsH m.src (hbMsg 0x21 0 (leField m.bytes 2 6) (leField m.bytes 8 8) []) ∧
      u.integ.hbIn = s.integ.hbIn ++ [{ region := leField m.bytes 2 2, page := leField m.bytes 4 4, seq := leField m.bytes 8 8 }] ∧
      (s.core.unstaged (s.hbRegion.1 + a) (64 + 0x4000) → u.hbBytes a 16 = bytesAt m.bytes 0 16 ∧
        u.hbBytes (a + 64) 0x4000 = bytesAt m.bytes 16 0x4000) ∧ u.sameMemoryBut s (s.hbRegion.1 + a) (64 + 0x4000)) ∧
  (∀ (s : State) (m : Msg) (ms : List Msg) (tb : List (Nat × Nat)) (p : HbPage) (a o : Nat), s.msgTurn 0x22 m ms → s.hbFrom m = true →
    (∀ k h, s.hbForce = some (k, h) → leField h 4 2 ≠ 2) → tb = tableOf (bytesAt m.bytes 16 256) →
    s.integ.hbOpen = some (leField m.bytes 2 6, tb) → s.integ.hbIn = [p] →
    o = imageOffset tb (leField (s.hbBytes (logBase tb) 64) 2 2) (leField (s.hbBytes (logBase tb) 64) 4 4) → o + 0x4000 ≤ logBase tb →
    s.core.ue = [] → s.core.undef = [] → (∀ b, s.core.stageAt b = none) → s.core.copiesFit 8 → a = s.hbRegion.1 + o → a % 64 = 0 →
    s.ticking = true → runs .commit s fun u => u.net.rxMsgs = ms ∧ u.integ.hbIn = [] ∧ u.integ.hbOpen = none ∧
      u.core.rdBytes a 0x4000 = s.hbBytes (logBase tb + 64) 0x4000 ∧
      u.sendsH m.src (hbMsg 0x23 0 (leField m.bytes 2 6) (leField m.bytes 8 8) [])) ∧
  (∀ (s : State) (m : Msg) (ms : List Msg), s.msgTurn 0x22 m ms → s.hbFrom m = true → (∀ k h, s.hbForce = some (k, h) → leField h 4 2 ≠ 2) →
    s.integ.hbOpen ≠ some (leField m.bytes 2 6, tableOf (bytesAt m.bytes 16 256)) → s.ticking = true → runs .commit s fun u =>
      u.net.rxMsgs = ms ∧ u.sameMemory s ∧ u.sendsH m.src (hbMsg 0x23 2 (leField m.bytes 2 6) (leField m.bytes 8 8) [])) ∧
  (∀ (s : State) (m : Msg) (ms : List Msg) (e : List Byte) (a : Nat), s.msgTurn 0x24 m ms → s.core.fld Reg.hbStatus 2 0 ≠ 4 → s.hbFrom m = true →
    e = m.bytes.drop 16 → s.integ.mirHead + e.length ≤ mirrorSize → a = s.hbRegion.1 + (0x1_0000 + s.integ.mirHead) →
    (∀ l ∈ linesOf a e.length, s.core.isUe l = false) → s.core.copiesFit (e.length / 0x4000 + 2) → s.ticking = true → runs .journal s fun u => u.net.rxMsgs = ms ∧
      (s.core.unstaged a e.length → u.core.rdBytes a e.length = e) ∧
      u.sameMemoryBut s a e.length ∧ u.integ.mirHead = s.integ.mirHead + e.length) ∧
  (∀ (s : State) (m : Msg) (ms : List Msg), s.msgTurn 0x25 m ms → s.hbFrom m = false → s.ticking = true → runs .restoreReq s fun u =>
    u.net.rxMsgs = ms ∧ u.sameMemory s ∧ u.sendsH m.src (hbMsg 0x27 6 0 0 [])) ∧
  (∀ (s : State) (m : Msg) (ms : List Msg) (k : Nat) (h : List Byte), s.msgTurn 0x25 m ms → s.hbFrom m = true → s.hbForce = some (k, h) →
    leField h 4 2 = 1 → bytesAt h 32 256 = bytesAt m.bytes 16 256 → s.ticking = true → runs .restoreReq s fun u => u.net.rxMsgs = ms ∧ u.sameMemory s ∧
      u.sendsH m.src (hbMsg 0x27 0 0 (leField h 8 8) []) ∧
      (∀ r i, r < 16 → i < (leField m.bytes (16 + 16 * r + 8) 8) / 0x4000 →
        u.sendsH m.src (hbMsg 0x26 0 (r + 2 ^ 16 * i) (leField h 16 8) (s.hbBytes (imageOffset (tableOf (bytesAt m.bytes 16 256)) r i) 0x4000))) ∧
      (∀ x ∈ s.integ.mirror, leField h 8 8 ≤ x.2.2 → u.sendsH m.src (hbMsg 0x24 0 0 0 (s.hbBytes (0x1_0000 + x.1) (64 * x.2.1))))) ∧
  (∀ (s : State) (m : Msg) (ms : List Msg) (k : Nat) (h : List Byte), s.msgTurn 0x25 m ms → s.hbFrom m = true → s.hbForce = some (k, h) →
    leField h 4 2 = 1 → bytesAt h 32 256 ≠ bytesAt m.bytes 16 256 → s.ticking = true → runs .restoreReq s fun u => u.net.rxMsgs = ms ∧ u.sameMemory s ∧
      u.sendsH m.src (hbMsg 0x27 6 0 0 []))

/-! ## Levels, heat and sleep -/

/-- R443, R445 to R453, R470, R472: TARGET is stored, and is in force from the governor's next period; a level change raises the rails before the clocks
pause or lowers them after, and ends at its level; a PMBus fault abandons it. The governor, in its period and while GOV_EN is set, reads the sensors and
moves the ceiling; telemetry is stored; a trip holds the module until POR_N; droop stretches count; the idle trim stays within four steps. That a fault
after a lowering abandons it, and the count of cool periods, are log entry 22; the fault bits of STATUS_WORD are log entry 71; that a timer's first
period ends at once is log entry 97. -/
def Obligations.LevelsFollowTargetAndHeat : Prop :=
  (∀ (s : State) (v : Word), s.ticking = true → runs (.plTargetWrite v) s fun u => u.core.rd Reg.plCtrl = v &&& 0x7 ∧
    u.sameRegsBut s [Reg.plCtrl] ∧ u.sameMemory s ∧ s.sameUnits u ∧ u.appliedLevel = s.appliedLevel) ∧
  (∀ (s : State) (l : Nat), s.core.bit Reg.startStatus 3 = true → s.pwr.change = none → s.core.fld Reg.sleepStatus 2 0 ≤ 2 →
    l = s.appliedLevel → s.core.fld Reg.plStatus 2 0 < l → runs (.levelChange .good) s fun u => u.pwr.change = some (l, .ramping) ∧
      u.core.bit Reg.plStatus 6 = true ∧ u.core.outbox = s.core.outbox ++ (List.range 6).map (fun r => .pmbus r 0x21 (s.railMv l r)) ∧
      u.sameRegsBut s [Reg.plStatus] ∧ u.sameMemory s ∧ s.sameUnits { u with pwr := s.pwr }) ∧
  (∀ (s : State) (l : Nat), s.core.bit Reg.startStatus 3 = true → s.pwr.change = none → s.core.fld Reg.sleepStatus 2 0 ≤ 2 →
    l = s.appliedLevel → l < s.core.fld Reg.plStatus 2 0 → ∀ a, runs (.levelChange a) s fun u =>
      u.pwr.change = some (l, .locking) ∧ u.core.bit Reg.plStatus 6 = true ∧ u.core.bit Reg.clkStatus 7 = true ∧
      u.core.bit Reg.clkStatus 0 = false ∧
      u.core.outbox = s.core.outbox ∧ u.sameRegsBut s [Reg.plStatus, Reg.clkStatus] ∧ u.sameMemory s) ∧
  (∀ (s : State) (l : Nat), s.core.bit Reg.startStatus 3 = true → s.pwr.change = none → s.core.fld Reg.sleepStatus 2 0 ≤ 2 →
    l = s.appliedLevel → l = s.core.fld Reg.plStatus 2 0 → s.pwr.relevel = true → runs (.levelChange .good) s fun u =>
      u.pwr.change = some (l, if s.pwr.pair.2 < (s.levelPair l).2 ∨ (s.pwr.pair.2 = (s.levelPair l).2 ∧ s.pwr.pair.1 ≤ (s.levelPair l).1)
        then .ramping else .lockingDown) ∧
      u.pwr.relevel = false ∧ u.core.bit Reg.plStatus 6 = true ∧ u.sameRegsBut s [Reg.plStatus, Reg.clkStatus] ∧ u.sameMemory s) ∧
  (∀ (s : State) (l rail cmd : Nat), s.core.bit Reg.startStatus 3 = true → s.pwr.change = none → s.core.fld Reg.sleepStatus 2 0 ≤ 2 →
    l = s.appliedLevel → s.core.fld Reg.plStatus 2 0 < l → runs (.levelChange (.failed rail cmd)) s fun u => u.pwr.change = none ∧
      u.core.bit Reg.plStatus 8 = true ∧ u.core.bit Reg.plStatus 6 = false ∧ u.core.fld Reg.plStatus 2 0 = s.core.fld Reg.plStatus 2 0 ∧
      u.core.bit Reg.pmbStatus 0 = true ∧ u.core.fld Reg.pmbStatus 3 1 = rail % 8 ∧ u.core.fld Reg.pmbStatus 15 8 = cmd % 256) ∧
  (∀ (s : State) (a : PmbusAnswer), s.appliedLevel = s.core.fld Reg.plStatus 2 0 → s.pwr.relevel = false → runs (.levelChange a) s fun u => u = s) ∧
  (∀ (s : State) (l : Nat), s.pwr.change = some (l, .ramping) → runs .railSettled s fun u => u.pwr.change = some (l, .locking) ∧
    u.core.bit Reg.clkStatus 7 = true ∧ u.core.bit Reg.clkStatus 0 = false ∧ u.sameRegsBut s [Reg.clkStatus] ∧ u.sameMemory s) ∧
  (∀ (s : State) (l : Nat), s.pwr.change = some (l, .locking) → l < 8 → s.pwr.sleepPending = none → (∀ i ∈ s.pwr.pllPending, i < 6) →
    runs (.pllRelockDone .good) s fun u => u.pwr.change = none ∧ u.core.fld Reg.plStatus 2 0 = l ∧ u.core.bit Reg.plStatus 6 = false ∧
      u.core.bit Reg.clkStatus 7 = false ∧ u.core.bit Reg.clkStatus 0 = true ∧ u.sameRegsBut s [Reg.plStatus, Reg.clkStatus] ∧ u.sameMemory s ∧
      u.core.outbox = s.core.outbox ++ (if l < s.core.fld Reg.plStatus 2 0 then (List.range 6).map (fun r => .pmbus r 0x21 (s.railMv l r)) else [])) ∧
  (∀ (s : State) (l rail cmd : Nat), s.pwr.change = some (l, .locking) → l < s.core.fld Reg.plStatus 2 0 → s.pwr.sleepPending = none →
    runs (.pllRelockDone (.failed rail cmd)) s fun u => u.pwr.change = none ∧ u.core.fld Reg.plStatus 2 0 = s.core.fld Reg.plStatus 2 0 ∧
      u.core.bit Reg.plStatus 8 = true ∧ u.core.bit Reg.plStatus 6 = false ∧ u.core.bit Reg.clkStatus 7 = false ∧
      u.core.bit Reg.pmbStatus 0 = true ∧ u.core.fld Reg.pmbStatus 3 1 = rail % 8 ∧ u.core.fld Reg.pmbStatus 15 8 = cmd % 256) ∧
  (∀ (s : State) (ts : List (BitVec 16)) (d h y : Int) (hot cool : Prop), d = (s.core.fld Reg.thermCtrl 7 0 : Nat) →
    h = (s.core.fld Reg.thermCtrl 15 8 : Nat) → y = (s.core.fld Reg.thermCtrl 19 16 : Nat) →
    (hot ↔ ∃ i, i < 30 ∧ 16 * (if i < 18 then d else h) < (ts.getD i 0).toInt) →
    (cool ↔ ∀ i, i < 30 → (ts.getD i 0).toInt < 16 * ((if i < 18 then d else h) - y)) → s.alive = true →
    due s.pwr.govAt (2 ^ 20) s.core.now.toNat = true → runs (.governorTick ts) s fun u =>
      u.pwr.target = s.core.fld Reg.plCtrl 2 0 ∧ u.pwr.govAt = some s.core.now.toNat ∧
      u.core.bit Reg.plStatus 7 = decide (u.core.fld Reg.plStatus 5 3 < s.core.fld Reg.plCtrl 2 0) ∧
      (s.core.bit Reg.thermCtrl 20 = false → u.core.fld Reg.plStatus 5 3 = 7 ∧ u.sameRegsBut s [Reg.plStatus]) ∧
      (s.core.bit Reg.thermCtrl 20 = true → ∀ i, i < 30 → u.core.rd (Reg.temp i) = BitVec.ofNat 64 (ts.getD i 0).toNat) ∧
      (s.core.bit Reg.thermCtrl 20 = true → hot → u.core.fld Reg.plStatus 5 3 = s.core.fld Reg.plStatus 5 3 - 1 ∧ u.pwr.coolPeriods = 0) ∧
      (s.core.bit Reg.thermCtrl 20 = true → ¬ hot → cool → 7 ≤ s.pwr.coolPeriods →
        u.core.fld Reg.plStatus 5 3 = min 7 (s.core.fld Reg.plStatus 5 3 + 1) ∧ u.pwr.coolPeriods = 0) ∧
      (s.core.bit Reg.thermCtrl 20 = true → ¬ hot → cool → s.pwr.coolPeriods < 7 → u.core.fld Reg.plStatus 5 3 = s.core.fld Reg.plStatus 5 3 ∧
        u.pwr.coolPeriods = s.pwr.coolPeriods + 1) ∧
      (s.core.bit Reg.thermCtrl 20 = true → ¬ hot → ¬ cool → u.core.fld Reg.plStatus 5 3 = s.core.fld Reg.plStatus 5 3 ∧ u.pwr.coolPeriods = 0) ∧
      u.core.fld Reg.plStatus 2 0 = s.core.fld Reg.plStatus 2 0 ∧
      u.sameRegsBut s (Reg.plStatus :: Reg.thermStatus :: (List.range 30).map Reg.temp) ∧ u.sameMemory s) ∧
  (∀ (s : State) (ts : List (BitVec 16)), (s.alive = false ∨ due s.pwr.govAt (2 ^ 20) s.core.now.toNat = false) →
    runs (.governorTick ts) s fun u => u = s) ∧
  (∀ (s : State) (rs : List (Option RailReading)) (l n cmd : Nat) (p : ChangePhase), s.pwr.powered = true →
    due s.pwr.pollAt (2 ^ 20) s.core.now.toNat = true → s.pwr.change = some (l, p) → s.pwr.sleepPending = none → n < 6 →
    (∀ k, k < n → ∃ r, rs.getD k none = some r ∧ faultWord r.status = false) →
    ((rs.getD n none = none ∧ cmd = 0x8B) ∨ ∃ r, rs.getD n none = some r ∧ faultWord r.status = true ∧ cmd = 0x79) →
    runs (.pmbusTelemetryPoll rs) s fun u => u.pwr.change = none ∧ u.core.fld Reg.plStatus 2 0 = s.core.fld Reg.plStatus 2 0 ∧
      u.core.bit Reg.plStatus 8 = true ∧ u.core.fld Reg.pmbStatus 3 1 = n ∧ u.core.fld Reg.pmbStatus 15 8 = cmd) ∧
  (∀ (s : State) (rs : List (Option RailReading)), s.pwr.powered = true → due s.pwr.pollAt (2 ^ 20) s.core.now.toNat = true →
    (s.pwr.change = none ∨ ∀ n, n < 6 → ∃ r, rs.getD n none = some r ∧ faultWord r.status = false) →
    runs (.pmbusTelemetryPoll rs) s fun u => (∀ n r, n < 6 → rs.getD n none = some r →
      u.core.fld (Reg.pmbRail n) 15 0 = r.vout.toNat ∧ u.core.fld (Reg.pmbRail n) 31 16 = r.iout.toNat ∧
      u.core.fld (Reg.pmbRail n) 47 32 = r.status.toNat ∧ u.core.fld (Reg.pmbRail n) 55 48 = r.temp.toNat) ∧
    (∀ n, n < 6 → rs.getD n none = none → u.core.rd (Reg.pmbRail n) = s.core.rd (Reg.pmbRail n)) ∧
    u.sameRegsBut s ((List.range 6).map Reg.pmbRail) ∧ u.sameMemory s ∧ u.pwr.change = s.pwr.change ∧ u.pwr.pollAt = some s.core.now.toNat) ∧
  (∀ (s : State) (i : Nat) (t : BitVec 16), s.pwr.powered = true → s.pwr.tripped = false → i < 30 →
    16 * ((if i < 18 then s.part.fuses.tripDie else s.part.fuses.tripHbm : Nat) : Int) < t.toInt → runs (.thermalTrip i t) s fun u =>
      u.pwr.tripped = true ∧ u.core.bit Reg.rstCause 4 = true ∧ u.palm = [] ∧ u.work = Work.initial ∧ u.part = s.part ∧
      u.core.now = s.core.now ∧ u.core.bit Reg.startStatus 3 = false) ∧
  (∀ (s : State) (i : Nat) (t : BitVec 16), t.toInt ≤ 16 * ((if i < 18 then s.part.fuses.tripDie else s.part.fuses.tripHbm : Nat) : Int) →
    runs (.thermalTrip i t) s fun u => u = s) ∧
  (∀ (s : State) (r : Nat), r < 16 → r ∉ s.pwr.stretched → s.ticking = true → runs (.droopDetect r) s fun u =>
    u.pwr.stretched = s.pwr.stretched ++ [r] ∧ u.core.rd (Reg.droopEvents r) = s.core.rd (Reg.droopEvents r) + 1 ∧
    u.sameRegsBut s [Reg.droopEvents r] ∧ u.sameMemory s) ∧
  (∀ (s : State) (r n : Nat), r ∈ s.pwr.stretched → 64 ≤ n → s.ticking = true → runs (.droopStretchEnd r n) s fun u => r ∉ u.pwr.stretched ∧
    u.core.rd (Reg.droopAclk r) = s.core.rd (Reg.droopAclk r) + BitVec.ofNat 64 n ∧ u.sameRegsBut s [Reg.droopAclk r] ∧ u.sameMemory s) ∧
  (∀ (s : State) (r : Nat) (x : Int), s.core.bit Reg.droopCtrl 1 = true → r < 16 → s.regionIdle r = true → s.ticking = true → runs (.idleCalTrim r x) s fun u =>
    u.core = s.core ∧ (∃ y, (r, y) ∈ u.pwr.trims ∧ -4 ≤ y ∧ y ≤ 4 ∧ (-4 ≤ x → x ≤ 4 → y = x)) ∧
    ∀ p, p.1 ≠ r → (p ∈ u.pwr.trims ↔ p ∈ s.pwr.trims))

/-- R451, R454 to R458, R468: a sleep request enters its state when nothing holds it, is refused with the first reason, or waits for a level change. S1 keeps
everything; S2 loses contexts, tile registers and SRAM; S3 keeps the registers of the Brim dies, S4 those of the always-on domain; each keeps HBM and DDR. A
wake returns to S0, out of S3 at the applied level; the wake pin starts the module out of S4 with its pads held; PAD_RELEASE releases them. A block reset gives the
block's registers their reset values, drops its work and changes nothing else; what it took from the descriptors of other tiles stays owed to them (log entry 104). -/
def Obligations.SleepAndBlockResetsLoseTheirPart : Prop :=
  (∀ (s : State) (c : Instr) (k : Nat), (c, k) ∈ [(Instr.sleepS1, 1), (.sleepS2, 2), (.sleepS3, 3), (.sleepS4, 4)] →
    s.core.fld Reg.sleepStatus 2 0 = 0 → s.pwr.sleepPending = none → s.sleepBlock k = 0 → s.ticking = true → runs c s fun u =>
      u.core.fld Reg.sleepStatus 2 0 = k ∧ u.part = s.part ∧ u.pat = s.pat ∧ u.core.now = s.core.now ∧
      u.core.rd Reg.padHold = s.core.rd Reg.padHold ||| (if k = 3 then 0x3 else if k = 4 then 0xF else 0) ∧
      (∀ a, a < 0x400_0000_0000 ∨ 0x7F0_0000_0000 ≤ a → u.core.rdByte a = s.core.rdByte a) ∧
      (k = 1 → u.sameMemory s ∧ u.palm = s.palm ∧ u.work = s.work ∧ u.sameRegsBut s [Reg.sleepStatus, Reg.sleepCtrl, Reg.padHold]) ∧
      (2 ≤ k → u.palm = [] ∧ (∀ a, 0x400_0000_0000 ≤ a → a < 0x7F0_0000_0000 → u.core.rdByte a = 0) ∧
        ∀ o, 0x800_0000 ≤ o → u.core.rd o = resetWord o) ∧
      (k = 2 → ∀ o, o < 0x800_0000 → o ∉ sleepRegs → u.core.rd o = s.core.rd o) ∧
      (k = 3 → (∀ o, brimBlock o → o ∉ sleepRegs → u.core.rd o = s.core.rd o) ∧ u.core.bit Reg.clkStatus 0 = false) ∧
      (k = 4 → ∀ o ∈ Reg.startStatus :: Reg.rstCause :: residRegs, u.core.rd o = s.core.rd o)) ∧
  (∀ (s : State) (c : Instr) (k r : Nat), (c, k) ∈ [(Instr.sleepS1, 1), (.sleepS2, 2), (.sleepS3, 3), (.sleepS4, 4)] →
    s.core.fld Reg.sleepStatus 2 0 = 0 → s.pwr.sleepPending = none → s.sleepBlock k = r → r ≠ 0 → s.ticking = true → runs c s fun u =>
      u.core.fld Reg.sleepStatus 2 0 = 0 ∧ u.sameMemory s ∧ u.palm = s.palm ∧ u.sameRegsBut s [Reg.sleepStatus, Reg.sleepCtrl] ∧
      (s.pwr.change.isSome = true → u.pwr.sleepPending = some k) ∧
      (s.pwr.change.isSome = false → u.core.bit Reg.sleepStatus 3 = true ∧ u.core.fld Reg.sleepStatus 7 4 = r ∧ u.pwr.sleepPending = none)) ∧
  (∀ (s : State) (c : Instr), c ∈ [.sleepWake, .wakePin] → 1 ≤ s.core.fld Reg.sleepStatus 2 0 → s.core.fld Reg.sleepStatus 2 0 ≤ 2 → runs c s fun u =>
    u.core.fld Reg.sleepStatus 2 0 = 0 ∧ u.core.fld Reg.sleepCtrl 2 0 = 0 ∧ u.sameRegsBut s [Reg.sleepStatus, Reg.sleepCtrl] ∧
    u.sameMemory s ∧ u.palm = s.palm ∧ s.sameUnits u) ∧
  (∀ (s : State) (c : Instr), c ∈ [.sleepWake, .wakePin] → s.core.fld Reg.sleepStatus 2 0 = 3 → runs c s fun u =>
    u.core.fld Reg.sleepStatus 2 0 = 0 ∧ u.core.fld Reg.sleepCtrl 2 0 = 0 ∧ u.core.fld Reg.plStatus 2 0 = s.appliedLevel ∧
    u.core.bit Reg.clkStatus 0 = true ∧ u.sameRegsBut s [Reg.sleepStatus, Reg.sleepCtrl, Reg.plStatus, Reg.clkStatus] ∧
    u.sameMemory s ∧ u.palm = s.palm ∧ u.work = s.work ∧ ∀ r ∈ [0, 1, 2, 3, 5], Out.pmbus r 0x01 0x80 ∈ u.core.outbox) ∧
  (∀ (s : State), s.core.fld Reg.sleepStatus 2 0 = 4 → s.pwr.powered = true → s.pwr.tripped = false → s.pwr.starting = false →
    runs .wakePin s fun u => u.core.fld Reg.startStatus 2 0 = 1 ∧ u.core.fld Reg.rstCause 3 0 = 6 ∧ u.core.rd Reg.padHold = 0xF ∧
      u.core.rd (Reg.residS 4) = s.core.rd (Reg.residS 4) + (s.core.now - s.pwr.s4At) ∧ u.pwr.fromS4 = true ∧ u.pwr.starting = true) ∧
  (∀ (s : State) (v : Word), s.ticking = true → runs (.padReleaseWrite v) s fun u => u.core.rd Reg.padHold = s.core.rd Reg.padHold &&& ~~~v ∧ u.sameMemory s ∧
    u.sameRegsBut s (Reg.padHold :: Reg.epStatus 0 :: Reg.epStatus 1 :: (List.range 12).map Reg.qlStatus) ∧
    (s.core.bit Reg.padHold 2 = true → v.getLsbD 2 = true → ∀ p, p < 2 → u.core.bit (Reg.epStatus p) 0 = false) ∧
    (s.core.bit Reg.padHold 2 = true → v.getLsbD 2 = true → ∀ l, l < 12 → s.core.bit (Reg.qlCtrl l) 0 = true → u.core.fld (Reg.qlStatus l) 1 0 = 1)) ∧
  (∀ (s : State) (c : Instr) (i lo n : Nat), (c, lo, n) ∈ [(Instr.blockResetPalm i, 0, 0x2000), (.blockResetMitt i, 0x2000, 0x1000),
      (.blockResetCuff i, 0x3000, 0x1000), (.blockResetGlove i, 0x4000, 0x1000), (.blockResetSizer i, 0x5000, 0x1000),
      (.blockResetCounters i, 0x6000, 0x1000)] → i < s.core.active → (∀ j ∈ s.work.dumps, j.begun = false) → s.ticking = true → runs c s fun u =>
    u.sameMemory s ∧ (∀ o, tileCtl i + lo ≤ o → o < tileCtl i + lo + n → u.core.rd o = resetWord o) ∧
    (∀ o, o < tileCtl i + lo ∨ tileCtl i + lo + n ≤ o → u.core.rd o = s.core.rd o)) ∧
  (∀ (s : State) (i : Nat), i < s.core.active → s.ticking = true → runs (.blockResetPalm i) s fun u =>
    u.palm = s.palm.filter (fun x => x.t != i) ∧ u.work.descs = s.work.descs ∧
    (∀ w, w ∈ u.work.stores ↔ w ∈ s.work.stores ∧ ∀ n, w.by_ ≠ some (i, n)) ∧
    (∀ w, w ∈ u.work.direct ↔ w ∈ s.work.direct ∧ ∀ n, w.by_ ≠ some (i, n))) ∧
  (∀ (s : State) (c : Instr) (i e : Nat), (c, e) ∈ [(Instr.blockResetMitt i, 0), (.blockResetCuff i, 1), (.blockResetGlove i, 2)] →
    i < s.core.active → s.ticking = true → runs c s fun u => u.palm = s.palm ∧
      u.work.descs.map (fun d => { d with acks := 0 }) =
        (s.work.descs.filter fun d => !(d.tile == i && d.engine == e)).map (fun d => { d with acks := 0 }) ∧
      (e = 0 → ∀ h ∈ u.work.shares, h.tile ≠ i) ∧ (e = 1 → ∀ j ∈ u.work.jobs, j.tile ≠ i)) ∧
  (∀ (s : State) (i : Nat), i < s.core.active → s.ticking = true → runs (.blockResetSizer i) s fun u =>
    u.palm = s.palm ∧ u.work.descs = s.work.descs.filter (fun d => !(d.tile == i && d.phase == .reserving)) ∧
    ∀ r, r ∈ u.work.resv ↔ r ∈ s.work.resv ∧ r.tile ≠ i ∧ ∀ d ∈ s.work.descs, d.tile = i → d.phase = .reserving → d.id ≠ r.desc) ∧
  (∀ (s : State) (i : Nat), i < s.core.active → s.ticking = true → runs (.blockResetCounters i) s fun u => u.palm = s.palm ∧ u.work = s.work) ∧
  (∀ (s : State) (i : Nat), i < 2 → s.ticking = true → runs (.blockResetEthPort i) s fun u => u.sameMemory s ∧ u.core.rd (Reg.epMac i) = s.core.rd (Reg.epMac i) ∧
    (∀ o, Reg.epCtrl i ≤ o → o < Reg.epCtrl i + 0x1000 → o ≠ Reg.epMac i → u.core.rd o = resetWord o) ∧
    (∀ o, o < Reg.epCtrl i ∨ Reg.epCtrl i + 0x1000 ≤ o → u.core.rd o = s.core.rd o) ∧ u.work = s.work ∧ u.links = s.links) ∧
  (∀ (s : State) (l : Nat), s.links.length = 12 → l < 12 → s.ticking = true → runs (.blockResetQuirasLink l) s fun u => u.sameMemory s ∧ u.link l = Link.initial ∧
    (∀ o, Reg.qlCtrl l ≤ o → o < Reg.qlCtrl l + 0x100 → u.core.rd o = resetWord o) ∧
    (∀ o, o < Reg.qlCtrl l ∨ Reg.qlCtrl l + 0x100 ≤ o → u.core.rd o = s.core.rd o) ∧ u.work = s.work)

/-! ## Calibration and replacements -/

/-- R429 to R434, R438: a round, no sooner than its period after the last, takes the next lane of its object, counts and keeps the lane's margin, of which the object shows
the worst; it is skipped without a free spare, and a failed compare makes the lane due. A Quiras round hands its position to the spare and back with eight
markers. A measurement makes an object due whose
margin stays below FLOOR for CONSEC measurements or falls below half of it; DARN_REQ makes an object due, or exhausted without a spare. A boundary that
waits for a worn tile moves the tile's logical number to a spare once the tile is quiescent, or leaves it for the next boundary once it has waited longer than
DARN_WAIT. What a skipped or abandoned round counts, and that an object shows the worst of its lanes' latest margins, is log entry 49; that a round's two
handovers count is log entry 82. -/
def Obligations.MarginsMakeDueAndTilesMove : Prop :=
  (∀ (s : State) (ch margin : Nat) (last : Bool), s.calDue ch = true → ch < 384 → s.core.fld (Reg.hbmChStatus ch) 7 0 = 0 →
    ch ∉ s.integ.onSpare → s.ticking = true → runs (.calRoundHbm ch margin ⟨last, true⟩) s fun u =>
      u.core.rd Reg.calRounds = s.core.rd Reg.calRounds + 1 ∧ (ch, s.integ.turnOf ch, min margin 255) ∈ u.integ.lanes ∧
      u.integ.turnOf ch = (if last then 0 else s.integ.turnOf ch + 1) ∧
      (∀ k x, (ch, k, x) ∈ u.integ.lanes → u.core.fld (Reg.margin ch) 7 0 ≤ x) ∧
      (∃ k x, (ch, k, x) ∈ u.integ.lanes ∧ u.core.fld (Reg.margin ch) 7 0 = min x 255 ∧ u.core.fld (Reg.margin ch) 15 8 = k % 256) ∧
      u.integ.onSpare = s.integ.onSpare) ∧
  (∀ (s : State) (ch margin : Nat) (last ok : Bool), s.calDue ch = true → ch < 384 →
    (s.core.fld (Reg.hbmChStatus ch) 7 0 ≠ 0 ∨ ch ∈ s.integ.onSpare) → s.ticking = true → runs (.calRoundHbm ch margin ⟨last, ok⟩) s fun u =>
      u.core.rd Reg.calSkipped = s.core.rd Reg.calSkipped + 1 ∧ u.sameRegsBut s [Reg.calSkipped] ∧ u.sameMemory s ∧
      u.integ.lanes = s.integ.lanes ∧ u.integ.turn = s.integ.turn ∧ u.integ.onSpare = s.integ.onSpare) ∧
  (∀ (s : State) (ch margin : Nat) (last : Bool), s.calDue ch = true → ch < 384 → s.core.fld (Reg.hbmChStatus ch) 7 0 = 0 →
    ch ∉ s.integ.onSpare → s.ticking = true → runs (.calRoundHbm ch margin ⟨last, false⟩) s fun u => u.integ.onSpare = s.integ.onSpare ++ [ch] ∧
      u.core.fld (Reg.margin ch) 15 8 = s.integ.turnOf ch % 256 ∧ (1, ch) ∈ u.core.due ∧ u.core.rd Reg.calRounds = s.core.rd Reg.calRounds ∧
      u.sameMemory s) ∧
  (∀ (s : State) (l p margin : Nat), s.links.length = 12 → s.calDue (400 + l) = true → s.core.linkUp l = true → (s.link l).tx = none → s.quirasLost l = false →
    p = s.integ.turnOf (400 + l) % 4 → s.ticking = true → runs (.calRoundQuiras l margin false) s fun u =>
      u.core.rd Reg.calRounds = s.core.rd Reg.calRounds + 1 ∧ u.core.rd (Reg.qlHandovers l) = s.core.rd (Reg.qlHandovers l) + 2 ∧
      u.core.outbox.length = s.core.outbox.length + 8 ∧ (400 + l, p, min margin 255) ∈ u.integ.lanes ∧
      u.integ.turnOf (400 + l) = (p + 1) % 4 ∧ (∀ k x, (400 + l, k, x) ∈ u.integ.lanes → u.core.fld (Reg.margin (400 + l)) 7 0 ≤ x) ∧
      u.core.rd (Reg.qlTxmap l) = s.core.rd (Reg.qlTxmap l) ∧ u.links = s.links) ∧
  (∀ (s : State) (l margin : Nat), s.calDue (400 + l) = true → s.core.linkUp l = true → (s.link l).tx = none → s.quirasLost l = false →
    s.ticking = true → runs (.calRoundQuiras l margin true) s fun u => u.core.bit (Reg.qlHandover l) 3 = true ∧
      u.core.rd (Reg.qlHandoverFail l) = s.core.rd (Reg.qlHandoverFail l) + 1 ∧ u.links = s.links ∧ u.integ.turn = s.integ.turn ∧
      u.sameRegsBut s [Reg.qlHandover l, Reg.qlHandoverFail l] ∧ u.sameMemory s) ∧
  (∀ (s : State) (l margin : Nat) (b : Bool), s.calDue (400 + l) = true → s.core.linkUp l = true → (s.link l).tx = none → s.quirasLost l = true →
    s.ticking = true → runs (.calRoundQuiras l margin b) s fun u =>
      u.core.rd Reg.calSkipped = s.core.rd Reg.calSkipped + 1 ∧ u.sameRegsBut s [Reg.calSkipped] ∧ u.sameMemory s ∧ u.links = s.links ∧
      u.integ.turn = s.integ.turn) ∧
  (∀ (s : State) (ch l margin : Nat) (last b : Bool) (c : Instr),
    ((c = .calRoundHbm ch margin ⟨last, b⟩ ∧ s.calDue ch = false) ∨
     (c = .calRoundQuiras l margin b ∧ (s.calDue (400 + l) = false ∨ s.core.linkUp l = false ∨ (s.link l).tx ≠ none))) →
    s.ticking = true → runs c s fun u => u = s) ∧
  (∀ (s : State) (o k margin lane f b : Nat), ((384 ≤ o ∧ o < 400) ∨ (412 ≤ o ∧ o < 414) ∨ (448 ≤ o ∧ o < 550)) → objectKind o = some k →
    f = s.core.fld Reg.darnCtrl 15 8 → b = (if min margin 255 < f then min (s.core.fld (Reg.margin o) 23 16 + 1) 255 else 0) →
    s.ticking = true → runs (.marginMeasure o margin lane) s fun u => u.core.fld (Reg.margin o) 7 0 = min margin 255 ∧ u.core.fld (Reg.margin o) 15 8 = lane % 256 ∧
      u.core.fld (Reg.margin o) 23 16 = b ∧
      (¬ (0 < b ∧ s.core.fld Reg.darnCtrl 19 16 ≤ b) → ¬ 2 * min margin 255 < f → u.core.due = s.core.due ∧ u.sameMemory s) ∧
      ((0 < b ∧ s.core.fld Reg.darnCtrl 19 16 ≤ b) ∨ 2 * min margin 255 < f → k = 3 → (k, o) ∈ u.core.due)) ∧
  (∀ (s : State) (o k : Nat), o < 550 → objectKind o = some k → (k = 0 → s.pat.map.getD (o - 448) 0xFF ≠ 0xFF ∧ s.pat.map.getD (o - 448) 0xFF ≠ 0xFD) →
    s.ticking = true → runs (.darnReqWrite o) s fun u =>
      (s.hasSpare k o = true → (k, o) ∉ s.core.due → u.core.due = s.core.due ++ [(k, o)] ∧ u.core.bit (Reg.margin o) 24 = true ∧ u.sameMemory s) ∧
      (s.hasSpare k o = false → u.core.due = s.core.due ∧ u.core.bit (Reg.margin o) 25 = true)) ∧
  (∀ (s : State) (o : Nat), o < 1024 → objectKind o = none → s.core.events = [] → s.ticking = true → runs (.darnReqWrite o) s fun u => u = s) ∧
  (∀ (s : State) (o sp code : Nat), s.waitTile = some o → s.core.due = [(0, o)] → s.pat.ready = none → code = s.pat.map.getD (o - 448) 0xFF →
    code < 0x80 → s.quiescent code = true → pickSpare s.pat.map (o - 448) 0xFFFF = some sp → s.ticking = true → runs .tileReplace s fun u =>
      u.pat.map = (s.pat.map.set sp code).set (o - 448) 0xFD ∧ u.core.due = [] ∧ u.integ.boundaryWait = false ∧
      u.core.rd Reg.darnDone = s.core.rd Reg.darnDone + 1 ∧ u.core.rd Reg.bandStep = BitVec.ofNat 64 ((s.core.step + 1) % 2 ^ 48)) ∧
  (∀ (s : State) (o : Nat), s.waitTile = some o → s.quiescent (s.pat.map.getD (o - 448) 0xFF) = false → s.ticking = true → runs .tileReplace s fun u => u = s) ∧
  (∀ (s : State) (o : Nat), s.waitTile = some o → s.quiescent (s.pat.map.getD (o - 448) 0xFF) = false →
    s.integ.waitedOut s.core.now.toNat = true → s.core.due = [(0, o)] → s.pat.ready = none → s.ticking = true → runs .tileReplaceDefer s fun u =>
      u.pat.map = s.pat.map ∧ u.core.due = s.core.due ∧ u.integ.boundaryWait = false ∧ u.integ.deferred = [] ∧
      u.core.rd Reg.darnDeferred = s.core.rd Reg.darnDeferred + 1 ∧ u.core.rd Reg.bandStep = BitVec.ofNat 64 ((s.core.step + 1) % 2 ^ 48)) ∧
  (∀ (s : State) (o : Nat), s.waitTile = some o → (s.quiescent (s.pat.map.getD (o - 448) 0xFF) = true ∨
    s.integ.waitedOut s.core.now.toNat = false) → s.ticking = true → runs .tileReplaceDefer s fun u => u = s) ∧
  (∀ (s : State) (c : Instr), c ∈ [.tileReplace, .tileReplaceDefer] → s.waitTile = none → s.ticking = true → runs c s fun u => u = s)

/-! ## Observation and keys -/

/-- R476 to R487: a trigger arms an idle Doff DOFF_LEAD ticks after its tick, the fourth low tick of DOFF_IN (log entry 113), and passes it on by the links of
DOFF_FWD; in any other state it is counted, and one of the same tick that stands higher becomes the SOURCE; at its time every counter freezes but those of blocks
that saw the announcement late, which latch at their own tick and set SKEWED, and DOFF_OUT falls for 64 ticks; THAW ends it from the next tick; a DOFF message
arms by the local time, or for the next tick when that is past. A dump of a written record is copied behind its header to the DUMP region. -/
def Obligations.DoffFreezesAndDumps : Prop :=
  (∀ (s : State) (c : Instr) (src n t : Nat), (c, src) ∈ [(Instr.doffFire, 0), (.doffPinTrigger n, 1)] →
    (src = 1 → 4 ≤ n ∧ s.core.bit Reg.doffCtrl 1 = true) → t = (if src = 0 then s.core.now.toNat else s.core.now.toNat - (n - 4)) →
    s.core.fld Reg.doffStatus 1 0 = 0 → s.ticking = true → runs c s fun u =>
      u.core.fld Reg.doffStatus 1 0 = 1 ∧ u.core.fld Reg.doffStatus 4 2 = src ∧
      u.core.rd Reg.doffTime = BitVec.ofNat 64 (t + s.core.fld Reg.doffLead 19 0) ∧
      u.pwr.doffFire = some (t + s.core.fld Reg.doffLead 19 0) ∧ u.pwr.doffSeq = (s.pwr.doffSeq + 1) % 2 ^ 16 ∧
      (∀ l, l < 12 → s.core.bit Reg.doffFwd l = true → 0 < s.core.fld Reg.doffCtrl 19 16 →
        ∃ m ∈ u.core.msgOut, m.link = l ∧ leField m.bytes 0 1 = 0x18) ∧
      u.sameRegsBut s [Reg.doffStatus, Reg.doffTime, Reg.doffId] ∧ u.sameMemory s) ∧
  (∀ (s : State) (c : Instr) (src n t : Nat), (c, src) ∈ [(Instr.doffFire, 0), (.doffPinTrigger n, 1)] →
    (src = 1 → 4 ≤ n ∧ s.core.bit Reg.doffCtrl 1 = true) → t = (if src = 0 then s.core.now.toNat else s.core.now.toNat - (n - 4)) →
    (s.core.fld Reg.doffStatus 1 0 = 2 ∨ (s.core.fld Reg.doffStatus 1 0 = 1 ∧ (s.pwr.doffTook ≠ some t ∨ s.core.fld Reg.doffStatus 4 2 ≤ src))) →
    s.ticking = true → runs c s fun u => u.core.rd Reg.doffIgnored = s.core.rd Reg.doffIgnored + 1 ∧
      u.sameRegsBut s [Reg.doffIgnored] ∧ u.sameMemory s ∧ s.sameUnits u) ∧
  (∀ (s : State), s.core.fld Reg.doffStatus 1 0 = 1 → s.pwr.doffTook = some s.core.now.toNat → 0 < s.core.fld Reg.doffStatus 4 2 →
    s.core.fld Reg.doffStatus 4 2 < 3 → s.ticking = true → runs .doffFire s fun u => u.core.fld Reg.doffStatus 4 2 = 0 ∧
      u.core.fld Reg.doffStatus 1 0 = 1 ∧ u.core.rd Reg.doffIgnored = s.core.rd Reg.doffIgnored + 1 ∧
      u.sameRegsBut s [Reg.doffStatus, Reg.doffIgnored] ∧ u.sameMemory s ∧ s.sameUnits u) ∧
  (∀ (s : State) (n : Nat), (n < 4 ∨ s.core.bit Reg.doffCtrl 1 = false) → s.alive = true → runs (.doffPinTrigger n) s fun u => u = s) ∧
  (∀ (s : State) (f : Nat) (late : List Nat), s.pwr.doffFire = some f → f ≤ s.core.now.toNat → s.alive = true → runs (.doffFreeze late) s fun u =>
    u.core.frozen = some s.core.ctl ∧ u.core.fld Reg.doffStatus 1 0 = 2 ∧ u.pwr.doffFire = none ∧ u.pwr.doffOutUntil = some (f + 64) ∧
    u.core.rd Reg.doffFired = s.core.rd Reg.doffFired + 1 ∧ u.pwr.lateBlocks = late ∧
    (∀ o, u.snapshot o = if o / 0x1000 ∈ late then none else some s.core.ctl) ∧
    u.sameRegsBut s [Reg.doffStatus, Reg.doffFired] ∧ u.sameMemory s) ∧
  (∀ (s : State) (b : Nat) (late : List Nat) (snap : List (Nat × Word)), s.pwr.doffFire = none → s.core.fld Reg.doffStatus 1 0 = 2 →
    s.core.frozen = some snap → b ∈ s.pwr.lateBlocks → b ∉ late → (s.core.ctl.map fun p => p.1).Nodup → s.alive = true →
    runs (.doffFreeze late) s fun u => u.core.bit Reg.doffStatus 6 = true ∧ b ∉ u.pwr.lateBlocks ∧
      (s.core.bit Reg.doffStatus 6 = false → u.core.rd Reg.obsDoffSkewed = s.core.rd Reg.obsDoffSkewed + 1) ∧
      (∃ l, u.core.frozen = some l ∧ (∀ o, o / 0x1000 = b → sGet l o (resetWord o) = s.core.rd o) ∧
        ∀ o, o / 0x1000 ∉ s.pwr.lateBlocks → sGet l o (resetWord o) = sGet snap o (resetWord o)) ∧
      u.sameRegsBut s [Reg.doffStatus, Reg.obsDoffSkewed] ∧ u.sameMemory s) ∧
  (∀ (s : State) (f : Nat) (late : List Nat), s.pwr.doffFire = some f → s.core.now.toNat < f → s.alive = true →
    runs (.doffFreeze late) s fun u => u = s) ∧
  (∀ (s : State) (f : Nat), s.pwr.doffOutUntil = some f → s.alive = true → runs .doffOutRelease s fun u => u.core = s.core ∧
    u.pwr.doffOutUntil = if f ≤ s.core.now.toNat then none else some f) ∧
  (∀ s : State, s.core.fld Reg.doffStatus 1 0 = 2 → s.ticking = true → runs .doffThaw s fun u => u.core.fld Reg.doffStatus 1 0 = 0 ∧ u.core.frozen = none ∧
    (s.pwr.lateBlocks = [] → s.core.frozen.isSome = true → ∀ o, u.snapshot o = s.snapshot o) ∧
    u.sameRegsBut s [Reg.doffStatus] ∧ u.sameMemory s ∧ s.sameUnits { u with pwr := s.pwr }) ∧
  (∀ (s : State) (m : Msg) (ms : List Msg) (t : Nat), s.msgTurn 0x18 m ms → m.link < 12 → s.core.bit Reg.doffCtrl 2 = true →
    s.pwr.doffIdent = none → s.core.fld Reg.doffStatus 1 0 = 0 → s.core.localTick m.link (leField m.bytes 8 8) = (t : Int) →
    t < 2 ^ 64 → s.ticking = true → runs .doffMsg s fun u => u.net.rxMsgs = ms ∧ u.core.fld Reg.doffStatus 4 2 = 3 ∧ u.core.rd Reg.doffTime = BitVec.ofNat 64 t ∧
      u.core.fld Reg.doffId 39 32 = (leField m.bytes 1 1 + 1) % 256 ∧ u.sameMemory s ∧
      (s.core.now.toNat ≤ t → u.pwr.doffFire = some t ∧ u.core.fld Reg.doffStatus 1 0 = 1) ∧
      (t < s.core.now.toNat → u.pwr.doffFire = some (s.core.now.toNat + 1) ∧ u.core.fld Reg.doffStatus 1 0 = 1 ∧ u.core.bit Reg.doffStatus 5 = true ∧
        u.core.fld Reg.doffLate 31 0 = (s.core.now.toNat + 1 - t) % 2 ^ 32)) ∧
  (∀ (s : State) (m : Msg) (ms : List Msg), s.msgTurn 0x18 m ms → (s.core.bit Reg.doffCtrl 2 = false ∨ s.core.fld Reg.doffStatus 1 0 = 2 ∨
    s.pwr.doffIdent = some (leField m.bytes 4 2 % 4096, leField m.bytes 2 2)) → s.ticking = true → runs .doffMsg s fun u => u.net.rxMsgs = ms ∧
      u.core.rd Reg.doffIgnored = s.core.rd Reg.doffIgnored + 1 ∧ u.sameRegsBut s [Reg.doffIgnored] ∧ u.sameMemory s) ∧
  (∀ (s r : State) (d : Desc) (j : DumpJob) (lo off : Nat) (bytes all : List Byte), s.dumpNow = some (d, j) → d.phase = .finished → j.begun = false →
    ((d.undefined || d.mixed) && !d.left) = false → (∀ e ∈ s.work.descs, e.phase ≠ .dumping) → s.noneWaiting → j.dest = 0 → j.req < 8 → r = s.readBy (.desc d.id) → s.lacksNothing (.desc d.id) (fun s => s.beginDump d j) →
    lo = (r.measured d j.record).span.1.toNat →
    bytes = r.core.gBytes lo ((r.measured d j.record).span.2 - (r.measured d j.record).span.1).toNat →
    all = d.dumpHeader j s.core.now lo bytes ++ bytes → off = roundUp (s.core.fld Reg.dumpNext 39 0) 64 →
    off + all.length ≤ (s.pat.region 96).2 → off + all.length < 2 ^ 40 →
    (∀ l ∈ linesOf ((s.pat.region 96).1 + off) all.length, s.core.isUe l = false) → s.core.copiesFit (all.length / 0x4000 + 2) →
    s.ticking = true → runs .tensorDumpCopy s fun u =>
      (s.core.unstaged ((s.pat.region 96).1 + off) all.length → u.core.rdBytes ((s.pat.region 96).1 + off) all.length = all) ∧
      u.sameMemoryBut s ((s.pat.region 96).1 + off) all.length ∧
      u.core.fld Reg.dumpNext 39 0 = off + all.length ∧ u.core.bit Reg.dumpStatus (4 + j.req) = true ∧
      u.core.rd Reg.dumpDone = s.core.rd Reg.dumpDone + 1 ∧ j ∉ u.work.dumps) ∧
  (∀ (s : State) (v : Word), s.core.bit Reg.dumpStatus 0 = false → s.ticking = true → runs (.dumpNextWrite v) s fun u =>
    u.core.fld Reg.dumpNext 39 0 = v.toNat % 2 ^ 40 ∧ u.sameRegsBut s [Reg.dumpNext] ∧ u.sameMemory s ∧ s.sameUnits u) ∧
  (∀ (s : State) (v : Word), s.core.bit Reg.dumpStatus 0 = true → s.ticking = true → runs (.dumpNextWrite v) s fun u =>
    u.work.dumpNext = some v.toNat ∧ u.core = s.core)

/-- R496 to R498, R502, R503, R513: a key command without its confirmation is refused, one that may run sets CMD_BUSY until it is done, and its end
blows hash bits or the revocation fuse of its slot alone. The I2C target, at its fused address and while VDD_AON is up, answers its register, and a write
of more than its index with NACK. -/
def Obligations.KeyCommandsBlowFuses : Prop :=
  (∀ (s : State) (slot : Nat), slot < 4 → s.core.bit Reg.secStatus 8 = false → s.pat.checking = none →
    allZero (s.part.fuses.keyHash.getD slot []) = true → (∃ k, k < 8 ∧ s.core.rd (Reg.keyStage k) ≠ 0) → s.ticking = true → runs (.keyProgram slot 0xC1E5) s fun u =>
      u.core.fld Reg.keyResult 7 0 = 1 ∧ u.core.bit Reg.secStatus 8 = true ∧ u.core.bit Reg.keyCmd 4 = true ∧ u.pwr.keyOp = some (1, slot) ∧
      u.part = s.part ∧ u.sameRegsBut s [Reg.keyCmd, Reg.keyResult, Reg.secStatus] ∧ u.sameMemory s) ∧
  (∀ (s : State) (slot k : Nat), slot < 4 → s.core.bit Reg.secStatus 8 = false → s.pat.checking = none → keyPresent s.part.fuses slot = true →
    (∀ i, s.pat.run = some i → i.key ≠ slot) → k < 4 → k ≠ slot → keyPresent s.part.fuses k = true → s.ticking = true → runs (.keyRevoke slot 0xC1E5) s fun u =>
      u.core.fld Reg.keyResult 7 0 = 1 ∧ u.core.bit Reg.secStatus 8 = true ∧ u.pwr.keyOp = some (2, slot) ∧ u.part = s.part ∧
      u.sameRegsBut s [Reg.keyCmd, Reg.keyResult, Reg.secStatus] ∧ u.sameMemory s) ∧
  (∀ (s : State) (c : Instr) (slot confirm : Nat), c ∈ [.keyProgram slot confirm, .keyRevoke slot confirm] → s.core.bit Reg.secStatus 8 = false →
    confirm < 2 ^ 16 → confirm ≠ 0xC1E5 → s.ticking = true → runs c s fun u => u.core.fld Reg.keyResult 7 0 = 0x20 ∧ u.core.bit Reg.keyResult 8 = true ∧
      u.core.bit Reg.keyCmd 4 = false ∧ u.part = s.part ∧ u.pwr = s.pwr ∧ u.sameMemory s) ∧
  (∀ (s : State) (c : Instr) (slot confirm : Nat), c ∈ [.keyProgram slot confirm, .keyRevoke slot confirm] → s.core.bit Reg.secStatus 8 = true →
    s.ticking = true → runs c s fun u => u = s) ∧
  (∀ (s : State) (slot : Nat) (b : List Byte), s.pwr.keyOp = some (1, slot) → slot < s.part.fuses.keyHash.length → s.ticking = true → runs (.keyCmdDone b) s fun u =>
    (∀ i j, i < 64 → u.part.fuses.keyBit slot i j = (s.part.fuses.keyBit slot i j || (b.getD i 0).getLsbD j)) ∧
    (∀ k i j, k ≠ slot → u.part.fuses.keyBit k i j = s.part.fuses.keyBit k i j) ∧ u.part.fuses.revoked = s.part.fuses.revoked ∧
    u.core.fld Reg.keyResult 7 0 = (if u.part.fuses.keyHash.getD slot [] = s.core.stagedHash then 0x10 else 0x26) ∧
    u.core.bit Reg.keyResult 8 = true ∧ u.core.bit Reg.secStatus 8 = false ∧ u.core.bit Reg.keyCmd 4 = false ∧ u.pwr.keyOp = none) ∧
  (∀ (s : State) (slot : Nat) (b : List Byte), s.pwr.keyOp = some (2, slot) → slot < s.part.fuses.revoked.length → slot < 4 →
    s.ticking = true → runs (.keyCmdDone b) s fun u => u.part.fuses.revoked = s.part.fuses.revoked.set slot true ∧ u.part.fuses.keyHash = s.part.fuses.keyHash ∧
      u.core.fld Reg.keyResult 7 0 = 0x10 ∧ u.core.bit Reg.secStatus (4 + slot) = true ∧ u.core.bit Reg.secStatus 8 = false ∧ u.pwr.keyOp = none) ∧
  (∀ (s : State) (i more : Nat), s.pwr.powered = true → runs (.i2cRead ⟨s.part.fuses.i2cAddr, i, more⟩) s fun u =>
    u.core.outbox = s.core.outbox ++ [if more = 0 then .i2c i (match i2cReg i with
      | some o => s.core.rd o
      | none => 0) else .i2cNack] ∧ u.sameRegsBut s [] ∧ u.sameMemory s ∧ s.sameUnits u) ∧
  (∀ (s : State) (a i more : Nat), (s.pwr.powered = false ∨ a ≠ s.part.fuses.i2cAddr) → runs (.i2cRead ⟨a, i, more⟩) s fun u => u = s)

/-- R12, R16, R79, R139: a store puts the written bits into the fields that store them, in the half that it writes; one that is not of 4 or 8
bytes, not aligned or outside every block changes nothing. A counter clear zeroes its counters and nothing else, and does nothing while Doff holds them. In
which order the bits of one store act is log entry 15; which counters of memory a clear takes is log entry 48. -/
def Obligations.StoresAndCounterClears : Prop :=
  (∀ (s : State) (i l m o : Nat) (mask v : Word), (o, mask) ∈ plainRegs i l m → i < 4 → l < 12 → m < 4096 → s.tidy → s.noneWaiting →
    s.ticking = true → runs (.registerWrite o 8 v) s fun u => u.core.rd o = ((s.core.rd o &&& ~~~mask) ||| (v &&& mask)) ∧
      u.sameRegsBut s [o] ∧ u.sameMemory s ∧ s.sameUnits u ∧ u.palm = s.palm) ∧
  (∀ (s : State) (i l m o : Nat) (mask v : Word), (o, mask) ∈ plainRegs i l m → i < 4 → l < 12 → m < 4096 → s.tidy → s.noneWaiting →
    s.ticking = true → runs (.registerWrite o 4 v) s fun u => u.core.rd o = ((s.core.rd o &&& ~~~(mask &&& 0xFFFF_FFFF)) ||| (v &&& mask &&& 0xFFFF_FFFF)) ∧
      u.sameRegsBut s [o] ∧ u.sameMemory s ∧ s.sameUnits u ∧ u.palm = s.palm) ∧
  (∀ (s : State) (i l m o : Nat) (mask v : Word), (o, mask) ∈ plainRegs i l m → i < 4 → l < 12 → m < 4096 → s.tidy → s.noneWaiting →
    s.ticking = true → runs (.registerWrite (o + 4) 4 v) s fun u =>
      u.core.rd o = ((s.core.rd o &&& ~~~(mask &&& 0xFFFF_FFFF_0000_0000)) ||| ((v <<< 32) &&& mask &&& 0xFFFF_FFFF_0000_0000)) ∧
      u.sameRegsBut s [o] ∧ u.sameMemory s ∧ s.sameUnits u ∧ u.palm = s.palm) ∧
  (∀ (s : State) (o n : Nat) (v : Word), s.tidy → s.noneWaiting → ((n ≠ 4 ∧ n ≠ 8) ∨ o % n ≠ 0 ∨ 0x1000_0000 ≤ o ∨ (0x60_0000 ≤ o ∧ o < 0x100_0000) ∨
    (0x110_0000 ≤ o ∧ o < 0x800_0000)) → s.ticking = true → runs (.registerWrite o n v) s fun u => u = s) ∧
  (∀ (s : State) (t p l o n : Nat) (c : Instr), clearsRun t p l c o n → t < s.core.active → p < 2 → l < 12 → s.core.frozen = none →
    s.ticking = true → runs c s fun u => (∀ k, k < n → u.core.rd (o + 8 * k) = 0) ∧ (∀ r, (∀ k, k < n → r ≠ o + 8 * k) → u.core.rd r = s.core.rd r) ∧
      u.sameMemory s ∧ s.sameUnits u ∧ u.palm = s.palm) ∧
  (∀ (s : State), s.core.frozen = none → s.ticking = true → runs .obsCntClear s fun u =>
    (∀ r, r ∈ [Reg.doffIgnored, Reg.obsDoffSkewed, Reg.dumpDone] → u.core.rd r = 0) ∧ (∀ k, k < 8 → u.core.rd (Reg.obsHbmRd + 8 * k) = 0) ∧
    (∀ r, r < 0x5_0040 ∨ (0x5_0050 ≤ r ∧ r < 0x5_0060) ∨ (0x5_00A0 ≤ r ∧ r < 0x5_0198) ∨ 0x5_01B0 ≤ r → u.core.rd r = s.core.rd r) ∧
    u.sameMemory s ∧ s.sameUnits u) ∧
  (∀ (s : State) (c : Instr) (n base : Nat) (reg : Nat → Nat), (c, n, base) ∈ [(Instr.hbmCntClear, 384, Reg.hbmCe), (.ddrCntClear, 16, Reg.ddrCe)] →
    reg = (if n = 384 then Reg.hbmChStatus else Reg.ddrChStatus) → s.core.frozen = none → s.ticking = true → runs c s fun u => (∀ k, k < 4 → u.core.rd (base + 8 * k) = 0) ∧
      (∀ i, i < n → u.core.fld (reg i) 47 16 = 0 ∧ u.core.fld (reg i) 15 0 = s.core.fld (reg i) 15 0) ∧ u.sameMemory s ∧ s.sameUnits u) ∧
  (∀ (s : State) (t p l : Nat) (c : Instr), ((∃ o n, clearsRun t p l c o n) ∨ c ∈ [.obsCntClear, .hbmCntClear, .ddrCntClear]) →
    s.core.frozen ≠ none → s.ticking = true → runs c s fun u => u = s)

/-! ## What every step keeps -/

/-- R138, R200, R252, R282, R309, R343, R362, R403, R405, R406, R435, R470, R488: what the register tables give as reset values holds in the state
after reset, in which memory lists nothing, the memories have their canonical form, no command and no work waits. (A register outside these lists
holds 0 or its table's value; the values the spec does not give are the model's, log entry 2.) -/
def Obligations.ResetStateIsRegular : Prop :=
  State.reset.memCanonical ∧ State.reset.tidy ∧ State.reset.core.mem = [] ∧ State.reset.pending = [] ∧ State.reset.noneWaiting ∧
  (∀ o v : Nat, (o, v) ∈ [(Reg.numCtrl, 0x7A), (Reg.numThresh, 0x3D80_3D80_3D80_3D80), (Reg.hbmCtrl, 0xC02), (Reg.ddrCtrl, 0xC02),
    (Reg.redDrain, 0x10_0000), (Reg.remoteTimeout, 0x10_0000), (Reg.detCtrl, 0x8), (Reg.detParam, 0xC85_4040_0000), (Reg.detRecover, 0x10),
    (Reg.jnlCtrl, 0x1), (Reg.darnCtrl, 0x3_0863), (Reg.darnWait, 0xD_BBA0), (Reg.plCtrl, 0x7), (Reg.thermCtrl, 0x15_5A5F), (Reg.droopCtrl, 0x2),
    (Reg.doffCtrl, 0x8_0006), (Reg.doffLead, 0x1000)] → State.reset.core.rd o = BitVec.ofNat 64 v) ∧
  (∀ i o v : Nat, i < 88 → (o, v) ∈ [(Reg.mittCtrl i, 0x1), (Reg.gloveCtrl i, 0x6), (Reg.sizerArea i, 0x878)] →
    State.reset.core.rd o = BitVec.ofNat 64 v) ∧
  (∀ i o v : Nat, i < 2 → (o, v) ∈ [(Reg.epCtrl i, 0x1), (Reg.epCmdPort i, 0x5A96)] → State.reset.core.rd o = BitVec.ofNat 64 v) ∧
  (∀ i o v : Nat, i < 12 → (o, v) ∈ [(Reg.qlCtrl i, 0x1), (Reg.qlTxmap i, 0x4688), (Reg.qlRxmap i, 0x4688), (Reg.qlSched i, 0x4210_3210_4210_3210),
    (Reg.qlCredit i, 0x10_1020_2020), (Reg.qlReplayTimeout i, 0x800)] → State.reset.core.rd o = BitVec.ofNat 64 v) ∧
  (∀ g : Nat, g < 256 → State.reset.core.rd (Reg.grpCtrl g) = 0x64_0000)

/-- Every step, from every tidy state, ends in a tidy state: no event is left without having been looked at, a descriptor's number is never given
twice, and a bucket has one of the 64 entries (R354). -/
def Obligations.StepsKeepStatesTidy : Prop := ∀ s t : State, s.tidy → step s = .next t → t.tidy

/-- Every step keeps HBM, SRAM, DDR and flash in the canonical form in which equal contents are equal data. -/
def Obligations.StepsKeepMemoryCanonical : Prop := ∀ s t : State, s.memCanonical → step s = .next t → t.memCanonical

/-- R496: no step clears a fuse: a key fuse stays blown, so a slot that is not empty never becomes empty again, and a revocation is for
good; an image that passes its check names a slot that is present. -/
def Obligations.StepsOnlySetFuses : Prop :=
  (∀ s t : State, step s = .next t → s.part.fuses.onlySet t.part.fuses) ∧
  (∀ (f : Fuses) (fl : List Host.Cell) (slot : Nat) (i : Image), (checkSlot f fl slot).2.2 = some i →
    i.key < 4 ∧ (∃ b ∈ f.keyHash.getD i.key [], b ≠ 0) ∧ f.revoked.getD i.key true = false)
end

