-- ==== Sys2Proof/Laws/Folds.lean ====
section
/-! SUPPORT. Folds: what every step keeps, the fold keeps. -/

namespace Sys2Proof.Machine

/-- A value that no step of a fold changes is the same at its end. -/
theorem foldl_keeps {σ α β : Type} (g : σ → β) (f : σ → α → σ) (h : ∀ s x, g (f s x) = g s) (l : List α) (s : σ) :
    g (l.foldl f s) = g s := by
  induction l generalizing s with
  | nil => rfl
  | cons x r ih => exact (ih (f s x)).trans (h s x)

/-- As `foldl_keeps`, where a step need only keep the value for the list's own elements. -/
theorem foldl_keeps_mem {σ α β : Type} (g : σ → β) (f : σ → α → σ) (l : List α) (h : ∀ s x, x ∈ l → g (f s x) = g s) (s : σ) :
    g (l.foldl f s) = g s := by
  induction l generalizing s with
  | nil => rfl
  | cons x r ih => exact (ih (fun s y hy => h s y (by simp [hy])) (f s x)).trans (h s x (by simp))

/-- A property that every step of a fold keeps holds at its end. -/
theorem foldl_holds {σ α : Type} (P : σ → Prop) (f : σ → α → σ) (h : ∀ s x, P s → P (f s x)) (l : List α) (s : σ) (hs : P s) :
    P (l.foldl f s) := by
  induction l generalizing s with
  | nil => exact hs
  | cons x r ih => exact ih (f s x) (h s x hs)

end Sys2Proof.Machine
end

