-- ==== Sys2Proof/Laws/Sparse.lean ====
section
/-! SUPPORT. Sparse lists: what a key reads after a put, and that puts and filters keep the canonical form. -/

namespace Sys2Proof.Machine

theorem sGet_sDrop {α : Type} (l : List (Nat × α)) (k j : Nat) (d : α) :
    sGet (sDrop l k) j d = if j = k then d else sGet l j d := by
  induction l with
  | nil => simp [sDrop, sGet]
  | cons p r ih =>
    simp only [sDrop] at ih ⊢
    by_cases hp : p.1 = k
    · subst hp
      simp only [List.filter_cons, bne_self_eq_false, sGet]
      by_cases h : j = p.1
      · simpa [h] using ih
      · simpa [h, Ne.symm h] using ih
    · have hb : (p.1 != k) = true := by simp [hp]
      simp only [List.filter_cons, hb, if_true, sGet]
      by_cases h : p.1 = j
      · subst h; simp [hp]
      · simpa [h] using ih

theorem sGet_sInsert {α : Type} (l : List (Nat × α)) (k j : Nat) (v d : α) (hk : sGet l k d = d) (hl : ∀ p ∈ l, p.1 ≠ k) :
    sGet (sInsert l k v) j d = if j = k then v else sGet l j d := by
  induction l with
  | nil =>
    by_cases h : j = k
    · simp [sInsert, sGet, h]
    · simp [sInsert, sGet, h, Ne.symm h]
  | cons p r ih =>
    have hp : p.1 ≠ k := hl p (by simp)
    have hr : sGet r k d = d := by simpa [sGet, hp] using hk
    have hl' : ∀ q ∈ r, q.1 ≠ k := fun q hq => hl q (by simp [hq])
    simp only [sInsert]
    split
    · by_cases h : j = k
      · subst h; simp [sGet]
      · simp [sGet, h, Ne.symm h]
    · simp only [sGet, ih hr hl']
      by_cases h : p.1 = j
      · subst h; simp [hp]
      · simp [h]

/-- What a key reads after a put, for any list. -/
theorem sGet_sPut {α : Type} [DecidableEq α] (l : List (Nat × α)) (k j : Nat) (v d : α) :
    sGet (sPut l k v d) j d = if j = k then v else sGet l j d := by
  unfold sPut
  split
  · rename_i h; subst h; exact sGet_sDrop l k j v
  · rw [sGet_sInsert]
    · rw [sGet_sDrop]; split <;> simp_all
    · rw [sGet_sDrop]; simp
    · intro p hp; simpa [sDrop] using (List.mem_filter.mp hp).2

/-- What another key reads after a put under its own default. -/
theorem sGet_sPut_ne {α : Type} [DecidableEq α] (l : List (Nat × α)) {k j : Nat} (v d e : α) (h : j ≠ k) :
    sGet (sPut l k v d) j e = sGet l j e := by
  have drop : ∀ m : List (Nat × α), sGet (sDrop m k) j e = sGet m j e := fun m => by rw [sGet_sDrop]; simp [h]
  have ins : ∀ m : List (Nat × α), sGet (sInsert m k v) j e = sGet m j e := fun m => by
    induction m with
    | nil => simp [sInsert, sGet, Ne.symm h]
    | cons p r ih =>
      simp only [sInsert]
      split
      · simp [sGet, Ne.symm h]
      · simp only [sGet, ih]
  unfold sPut
  split
  · exact drop l
  · rw [ins, drop]

/-- What a key reads in a list filtered by key. -/
theorem sGet_filter {α : Type} (q : Nat → Bool) (l : List (Nat × α)) (k : Nat) (d : α) :
    sGet (l.filter fun p => q p.1) k d = if q k then sGet l k d else d := by
  induction l with
  | nil => simp [sGet]
  | cons p r ih =>
    simp only [List.filter_cons]
    by_cases hq : q p.1
    · by_cases h : p.1 = k
      · subst h; simp [sGet, hq]
      · simp [sGet, hq, h, ih]
    · by_cases h : p.1 = k
      · subst h; simp [hq, ih]
      · simp [sGet, hq, h, ih]

/-! ## The canonical form -/

theorem sWf_cons {α : Type} [DecidableEq α] (f : Nat → α) (p : Nat × α) (l : List (Nat × α)) :
    sWf f (p :: l) = (decide (p.2 ≠ f p.1) && (match l.head? with | none => true | some q => decide (p.1 < q.1)) && sWf f l) := by
  cases l with
  | nil => simp [sWf]
  | cons q r => simp [sWf, Bool.and_assoc]

/-- The canonical form in words: no entry at its default, keys strictly rising. -/
theorem sWf_iff {α : Type} [DecidableEq α] (f : Nat → α) (l : List (Nat × α)) :
    sWf f l = true ↔ (∀ p ∈ l, p.2 ≠ f p.1) ∧ l.Pairwise (fun p q => p.1 < q.1) := by
  induction l with
  | nil => simp [sWf]
  | cons p r ih =>
    rw [sWf_cons, Bool.and_eq_true, Bool.and_eq_true, ih, List.pairwise_cons]
    constructor
    · rintro ⟨⟨h1, h2⟩, h3, h4⟩
      refine ⟨by simpa using ⟨by simpa using h1, fun a b hab => h3 (a, b) hab⟩, ?_, h4⟩
      intro q hq
      cases r with
      | nil => simp at hq
      | cons s t =>
        have hs : p.1 < s.1 := by simpa using h2
        rcases List.mem_cons.mp hq with rfl | ht
        · exact hs
        · exact Nat.lt_trans hs ((List.pairwise_cons.mp h4).1 q ht)
    · rintro ⟨h1, h2, h3⟩
      refine ⟨⟨by simpa using h1 p (by simp), ?_⟩, fun q hq => h1 q (by simp [hq]), h3⟩
      cases r with
      | nil => simp
      | cons s t => simpa using h2 s (by simp)

/-- A filter keeps the canonical form. -/
theorem sWf_filter {α : Type} [DecidableEq α] {f : Nat → α} {l : List (Nat × α)} (g : Nat × α → Bool) (h : sWf f l = true) :
    sWf f (l.filter g) = true := by
  rw [sWf_iff] at h ⊢
  exact ⟨fun p hp => h.1 p (List.mem_filter.mp hp).1, h.2.filter g⟩

theorem mem_sInsert {α : Type} (l : List (Nat × α)) (k : Nat) (v : α) (p : Nat × α) :
    p ∈ sInsert l k v ↔ p = (k, v) ∨ p ∈ l := by
  induction l with
  | nil => simp [sInsert]
  | cons q r ih =>
    simp only [sInsert]
    split
    · simp
    · simp only [List.mem_cons, ih, or_left_comm]

/-- A put keeps the canonical form. -/
theorem sWf_sPut {α : Type} [DecidableEq α] {f : Nat → α} {l : List (Nat × α)} (k : Nat) (v : α) (h : sWf f l = true) :
    sWf f (sPut l k v (f k)) = true := by
  have hd : sWf f (sDrop l k) = true := sWf_filter _ h
  unfold sPut
  split
  · exact hd
  · rename_i hv
    have hk : ∀ p ∈ sDrop l k, p.1 ≠ k := fun p hp => by simpa [sDrop] using (List.mem_filter.mp hp).2
    generalize sDrop l k = m at hd hk
    rw [sWf_iff] at hd ⊢
    refine ⟨fun p hp => ?_, ?_⟩
    · rcases (mem_sInsert m k v p).mp hp with rfl | hm
      · exact hv
      · exact hd.1 p hm
    · induction m with
      | nil => simp [sInsert]
      | cons q r ih =>
        have hq : q.1 ≠ k := hk q (by simp)
        have hp := List.pairwise_cons.mp hd.2
        simp only [sInsert]
        split
        · rename_i hlt
          refine List.pairwise_cons.mpr ⟨fun p hp' => ?_, hd.2⟩
          rcases List.mem_cons.mp hp' with rfl | hr
          · exact hlt
          · exact Nat.lt_trans hlt (hp.1 p hr)
        · refine List.pairwise_cons.mpr ⟨fun p hp' => ?_, ?_⟩
          · rcases (mem_sInsert r k v p).mp hp' with rfl | hr
            · simp only; omega
            · exact hp.1 p hr
          · exact ih ⟨fun p h' => hd.1 p (by simp [h']), hp.2⟩ (fun p h' => hk p (by simp [h']))

end Sys2Proof.Machine
end

