-- ==== Sys2Proof/Laws/Registers.lean ====
section
/-! SUPPORT. Registers: what a register and a field of it read after a write, and what a write leaves alone. -/

namespace Sys2Proof.Machine

theorem getF_testBit (w : Word) (hi lo i : Nat) :
    (getF w hi lo).testBit i = (decide (i < hi + 1 - lo) && w.getLsbD (lo + i)) := by
  simp [getF, bitsOf, Nat.testBit_mod_two_pow, BitVec.getLsbD]

theorem setF_getLsbD (w : Word) (hi lo v i : Nat) (h : i < 64) :
    (setF w hi lo v).getLsbD i = if lo ≤ i ∧ i ≤ hi then v.testBit (i - lo) else w.getLsbD i := by
  simp only [setF, BitVec.getLsbD_or, BitVec.getLsbD_and, BitVec.getLsbD_not, h, decide_true, Bool.true_and,
    BitVec.getLsbD_ofNat, Nat.testBit_shiftLeft, Nat.testBit_two_pow_sub_one, Nat.testBit_mod_two_pow]
  by_cases h1 : lo ≤ i
  · by_cases h2 : i ≤ hi
    · have h3 : i - lo < hi + 1 - lo := by omega
      simp [h1, h2, h3]
    · have h3 : ¬ i - lo < hi + 1 - lo := by omega
      simp [h1, h2, h3]
  · simp [h1]

/-- A field reads what was put into it. -/
theorem getF_setF (w : Word) (hi lo v : Nat) (h : hi < 64) :
    getF (setF w hi lo v) hi lo = v % 2 ^ (hi + 1 - lo) := by
  apply Nat.eq_of_testBit_eq
  intro i
  rw [getF_testBit, Nat.testBit_mod_two_pow]
  by_cases hi' : i < hi + 1 - lo
  · rw [setF_getLsbD _ _ _ _ _ (by omega)]
    have : lo ≤ lo + i ∧ lo + i ≤ hi := by omega
    simp [hi', this]
  · simp [hi']

/-- A field keeps its value when bits outside it change. -/
theorem getF_setF_other (w : Word) (hi lo v hi' lo' : Nat) (h : hi' < lo ∨ hi < lo') :
    getF (setF w hi lo v) hi' lo' = getF w hi' lo' := by
  apply Nat.eq_of_testBit_eq
  intro i
  rw [getF_testBit, getF_testBit]
  by_cases hi' : i < hi' + 1 - lo'
  · by_cases h64 : lo' + i < 64
    · rw [setF_getLsbD _ _ _ _ _ h64]
      have : ¬ (lo ≤ lo' + i ∧ lo' + i ≤ hi) := by omega
      simp [this]
    · rw [BitVec.getLsbD_of_ge _ _ (by omega), BitVec.getLsbD_of_ge _ _ (by omega)]
  · simp [hi']

theorem getF_lt (w : Word) (hi lo : Nat) : getF w hi lo < 2 ^ (hi + 1 - lo) := Nat.mod_lt _ (Nat.two_pow_pos _)

theorem getF_and (a b : Word) (hi lo : Nat) : getF (a &&& b) hi lo = getF a hi lo &&& getF b hi lo := by
  apply Nat.eq_of_testBit_eq
  intro i
  simp only [Nat.testBit_and, getF_testBit, BitVec.getLsbD_and]
  cases decide (i < hi + 1 - lo) <;> simp

/-- A field all of whose bits a mask keeps. -/
theorem getF_and_ones (w m : Word) (hi lo : Nat) (h : getF m hi lo = 2 ^ (hi + 1 - lo) - 1) :
    getF (w &&& m) hi lo = getF w hi lo := by
  rw [getF_and, h, Nat.and_two_pow_sub_one_eq_mod, Nat.mod_eq_of_lt (getF_lt w hi lo)]

theorem getF_bit (w : Word) (i : Nat) : (getF w i i == 1) = w.getLsbD i := by
  have h : getF w i i = (w.getLsbD i).toNat := by
    simp [getF, bitsOf, BitVec.getLsbD, Nat.testBit]
    rcases Nat.mod_two_eq_zero_or_one (w.toNat >>> i) with h | h <;> simp [h]
  rw [h]; cases w.getLsbD i <;> rfl

namespace Core

@[simp] theorem rd_wr (c : Core) (o p : Nat) (v : Word) : (c.wr o v).rd p = if p = o then v else c.rd p := by
  unfold rd wr
  by_cases h : p = o
  · subst h; simp [sGet_sPut]
  · simp [h, sGet_sPut_ne]

theorem rd_wr_self (c : Core) (o : Nat) (v : Word) : (c.wr o v).rd o = v := by simp
theorem rd_wr_ne (c : Core) {o p : Nat} (v : Word) (h : p ≠ o) : (c.wr o v).rd p = c.rd p := by simp [h]

@[simp] theorem rd_setFld (c : Core) (o p hi lo v : Nat) :
    (c.setFld o hi lo v).rd p = if p = o then setF (c.rd o) hi lo v else c.rd p := by simp [setFld]
@[simp] theorem rd_setBit (c : Core) (o p i : Nat) (b : Bool) :
    (c.setBit o i b).rd p = if p = o then setF (c.rd o) i i b.toNat else c.rd p := by simp [setBit]
@[simp] theorem rd_bump (c : Core) (o p n : Nat) :
    (c.bump o n).rd p = if p = o then c.rd o + BitVec.ofNat 64 n else c.rd p := by
  show sGet (if n = 0 then c.ctl else (c.wr o (c.rd o + BitVec.ofNat 64 n)).ctl) p (resetWord p) = _
  split
  · rename_i h; subst h; split <;> simp_all [rd]
  · exact rd_wr c o p _

/-- A field of a register after a field of the same register was set. -/
theorem fld_setFld_self (c : Core) (o hi lo v : Nat) (h : hi < 64) :
    (c.setFld o hi lo v).fld o hi lo = v % 2 ^ (hi + 1 - lo) := by simp [fld, getF_setF, h]
theorem fld_setFld_other (c : Core) (o hi lo v hi' lo' : Nat) (h : hi' < lo ∨ hi < lo') :
    (c.setFld o hi lo v).fld o hi' lo' = c.fld o hi' lo' := by simp [fld, getF_setF_other, h]
theorem fld_setFld_ne (c : Core) {o p : Nat} (hi lo v hi' lo' : Nat) (h : p ≠ o) :
    (c.setFld o hi lo v).fld p hi' lo' = c.fld p hi' lo' := by simp [fld, h]
theorem fld_wr_ne (c : Core) {o p : Nat} (v : Word) (hi lo : Nat) (h : p ≠ o) : (c.wr o v).fld p hi lo = c.fld p hi lo := by
  simp [fld, h]
theorem bit_setBit_self (c : Core) (o i : Nat) (b : Bool) (h : i < 64) : (c.setBit o i b).bit o i = b := by
  cases b <;> simp [bit, getF_setF, h]
theorem bit_setBit_other (c : Core) (o i j : Nat) (b : Bool) (h : j ≠ i) : (c.setBit o i b).bit o j = c.bit o j := by
  simp [bit, getF_setF_other _ _ _ _ _ _ (show j < i ∨ i < j by omega)]

/-- What a change of registers leaves: everything but the registers. -/
theorem wr_eq (c : Core) (o : Nat) (v : Word) : c.wr o v = { c with ctl := (c.wr o v).ctl } := rfl

/-- One register change after another has the registers of both and the rest of the core. -/
theorem setFld_eq (c : Core) (o hi lo v : Nat) : c.setFld o hi lo v = { c with ctl := (c.setFld o hi lo v).ctl } := rfl
theorem setBit_eq (c : Core) (o i : Nat) (b : Bool) : c.setBit o i b = { c with ctl := (c.setBit o i b).ctl } := rfl
theorem bump_eq (c : Core) (o n : Nat) : c.bump o n = { c with ctl := (c.bump o n).ctl } := rfl

end Core

end Sys2Proof.Machine
end

