-- ==== Sys2Proof/Laws/State.lean ====
section
/-! SUPPORT. What the named updates of a state leave: one lemma for each field and update. -/

namespace Sys2Proof.Machine

@[simp] theorem onCore_core (s : State) (f : Core → Core) : (s.onCore f).core = f s.core := rfl
@[simp] theorem onCore_pending (s : State) (f : Core → Core) : (s.onCore f).pending = s.pending := rfl
@[simp] theorem onCore_part (s : State) (f : Core → Core) : (s.onCore f).part = s.part := rfl
@[simp] theorem onCore_pat (s : State) (f : Core → Core) : (s.onCore f).pat = s.pat := rfl
@[simp] theorem onCore_palm (s : State) (f : Core → Core) : (s.onCore f).palm = s.palm := rfl
@[simp] theorem onCore_work (s : State) (f : Core → Core) : (s.onCore f).work = s.work := rfl
@[simp] theorem onCore_red (s : State) (f : Core → Core) : (s.onCore f).red = s.red := rfl
@[simp] theorem onCore_net (s : State) (f : Core → Core) : (s.onCore f).net = s.net := rfl
@[simp] theorem onCore_links (s : State) (f : Core → Core) : (s.onCore f).links = s.links := rfl
@[simp] theorem onCore_integ (s : State) (f : Core → Core) : (s.onCore f).integ = s.integ := rfl
@[simp] theorem onCore_pwr (s : State) (f : Core → Core) : (s.onCore f).pwr = s.pwr := rfl

namespace Core

/-! `wr` changes registers alone. -/

@[simp] theorem wr_now (c : Core) (o : Nat) (v : Word) : (c.wr o v).now = c.now := rfl
@[simp] theorem wr_remd (c : Core) (o : Nat) (v : Word) : (c.wr o v).remd = c.remd := rfl
@[simp] theorem wr_frozen (c : Core) (o : Nat) (v : Word) : (c.wr o v).frozen = c.frozen := rfl
@[simp] theorem wr_mem (c : Core) (o : Nat) (v : Word) : (c.wr o v).mem = c.mem := rfl
@[simp] theorem wr_undef (c : Core) (o : Nat) (v : Word) : (c.wr o v).undef = c.undef := rfl
@[simp] theorem wr_ue (c : Core) (o : Nat) (v : Word) : (c.wr o v).ue = c.ue := rfl
@[simp] theorem wr_staged (c : Core) (o : Nat) (v : Word) : (c.wr o v).staged = c.staged := rfl
@[simp] theorem wr_late (c : Core) (o : Nat) (v : Word) : (c.wr o v).late = c.late := rfl
@[simp] theorem wr_clean (c : Core) (o : Nat) (v : Word) : (c.wr o v).clean = c.clean := rfl
@[simp] theorem wr_spoilt (c : Core) (o : Nat) (v : Word) : (c.wr o v).spoilt = c.spoilt := rfl
@[simp] theorem wr_pend (c : Core) (o : Nat) (v : Word) : (c.wr o v).pend = c.pend := rfl
@[simp] theorem wr_pageOut (c : Core) (o : Nat) (v : Word) : (c.wr o v).pageOut = c.pageOut := rfl
@[simp] theorem wr_cow (c : Core) (o : Nat) (v : Word) : (c.wr o v).cow = c.cow := rfl
@[simp] theorem wr_scrub (c : Core) (o : Nat) (v : Word) : (c.wr o v).scrub = c.scrub := rfl
@[simp] theorem wr_scrubAt (c : Core) (o : Nat) (v : Word) : (c.wr o v).scrubAt = c.scrubAt := rfl
@[simp] theorem wr_heldBad (c : Core) (o : Nat) (v : Word) : (c.wr o v).heldBad = c.heldBad := rfl
@[simp] theorem wr_msgOut (c : Core) (o : Nat) (v : Word) : (c.wr o v).msgOut = c.msgOut := rfl
@[simp] theorem wr_reqs (c : Core) (o : Nat) (v : Word) : (c.wr o v).reqs = c.reqs := rfl
@[simp] theorem wr_lateTags (c : Core) (o : Nat) (v : Word) : (c.wr o v).lateTags = c.lateTags := rfl
@[simp] theorem wr_fetched (c : Core) (o : Nat) (v : Word) : (c.wr o v).fetched = c.fetched := rfl
@[simp] theorem wr_reader (c : Core) (o : Nat) (v : Word) : (c.wr o v).reader = c.reader := rfl
@[simp] theorem wr_want (c : Core) (o : Nat) (v : Word) : (c.wr o v).want = c.want := rfl
@[simp] theorem wr_outbox (c : Core) (o : Nat) (v : Word) : (c.wr o v).outbox = c.outbox := rfl
@[simp] theorem wr_freeCtr (c : Core) (o : Nat) (v : Word) : (c.wr o v).freeCtr = c.freeCtr := rfl
@[simp] theorem wr_nfTotal (c : Core) (o : Nat) (v : Word) : (c.wr o v).nfTotal = c.nfTotal := rfl
@[simp] theorem wr_ddrRanks (c : Core) (o : Nat) (v : Word) : (c.wr o v).ddrRanks = c.ddrRanks := rfl
@[simp] theorem wr_due (c : Core) (o : Nat) (v : Word) : (c.wr o v).due = c.due := rfl
@[simp] theorem wr_ceRows (c : Core) (o : Nat) (v : Word) : (c.wr o v).ceRows = c.ceRows := rfl
@[simp] theorem wr_dueRows (c : Core) (o : Nat) (v : Word) : (c.wr o v).dueRows = c.dueRows := rfl
@[simp] theorem wr_events (c : Core) (o : Nat) (v : Word) : (c.wr o v).events = c.events := rfl

/-! `setFld` changes registers alone. -/

@[simp] theorem setFld_now (c : Core) (o hi lo v : Nat) : (c.setFld o hi lo v).now = c.now := rfl
@[simp] theorem setFld_remd (c : Core) (o hi lo v : Nat) : (c.setFld o hi lo v).remd = c.remd := rfl
@[simp] theorem setFld_frozen (c : Core) (o hi lo v : Nat) : (c.setFld o hi lo v).frozen = c.frozen := rfl
@[simp] theorem setFld_mem (c : Core) (o hi lo v : Nat) : (c.setFld o hi lo v).mem = c.mem := rfl
@[simp] theorem setFld_undef (c : Core) (o hi lo v : Nat) : (c.setFld o hi lo v).undef = c.undef := rfl
@[simp] theorem setFld_ue (c : Core) (o hi lo v : Nat) : (c.setFld o hi lo v).ue = c.ue := rfl
@[simp] theorem setFld_staged (c : Core) (o hi lo v : Nat) : (c.setFld o hi lo v).staged = c.staged := rfl
@[simp] theorem setFld_late (c : Core) (o hi lo v : Nat) : (c.setFld o hi lo v).late = c.late := rfl
@[simp] theorem setFld_clean (c : Core) (o hi lo v : Nat) : (c.setFld o hi lo v).clean = c.clean := rfl
@[simp] theorem setFld_spoilt (c : Core) (o hi lo v : Nat) : (c.setFld o hi lo v).spoilt = c.spoilt := rfl
@[simp] theorem setFld_pend (c : Core) (o hi lo v : Nat) : (c.setFld o hi lo v).pend = c.pend := rfl
@[simp] theorem setFld_pageOut (c : Core) (o hi lo v : Nat) : (c.setFld o hi lo v).pageOut = c.pageOut := rfl
@[simp] theorem setFld_cow (c : Core) (o hi lo v : Nat) : (c.setFld o hi lo v).cow = c.cow := rfl
@[simp] theorem setFld_scrub (c : Core) (o hi lo v : Nat) : (c.setFld o hi lo v).scrub = c.scrub := rfl
@[simp] theorem setFld_scrubAt (c : Core) (o hi lo v : Nat) : (c.setFld o hi lo v).scrubAt = c.scrubAt := rfl
@[simp] theorem setFld_heldBad (c : Core) (o hi lo v : Nat) : (c.setFld o hi lo v).heldBad = c.heldBad := rfl
@[simp] theorem setFld_msgOut (c : Core) (o hi lo v : Nat) : (c.setFld o hi lo v).msgOut = c.msgOut := rfl
@[simp] theorem setFld_reqs (c : Core) (o hi lo v : Nat) : (c.setFld o hi lo v).reqs = c.reqs := rfl
@[simp] theorem setFld_lateTags (c : Core) (o hi lo v : Nat) : (c.setFld o hi lo v).lateTags = c.lateTags := rfl
@[simp] theorem setFld_fetched (c : Core) (o hi lo v : Nat) : (c.setFld o hi lo v).fetched = c.fetched := rfl
@[simp] theorem setFld_reader (c : Core) (o hi lo v : Nat) : (c.setFld o hi lo v).reader = c.reader := rfl
@[simp] theorem setFld_want (c : Core) (o hi lo v : Nat) : (c.setFld o hi lo v).want = c.want := rfl
@[simp] theorem setFld_outbox (c : Core) (o hi lo v : Nat) : (c.setFld o hi lo v).outbox = c.outbox := rfl
@[simp] theorem setFld_freeCtr (c : Core) (o hi lo v : Nat) : (c.setFld o hi lo v).freeCtr = c.freeCtr := rfl
@[simp] theorem setFld_nfTotal (c : Core) (o hi lo v : Nat) : (c.setFld o hi lo v).nfTotal = c.nfTotal := rfl
@[simp] theorem setFld_ddrRanks (c : Core) (o hi lo v : Nat) : (c.setFld o hi lo v).ddrRanks = c.ddrRanks := rfl
@[simp] theorem setFld_due (c : Core) (o hi lo v : Nat) : (c.setFld o hi lo v).due = c.due := rfl
@[simp] theorem setFld_ceRows (c : Core) (o hi lo v : Nat) : (c.setFld o hi lo v).ceRows = c.ceRows := rfl
@[simp] theorem setFld_dueRows (c : Core) (o hi lo v : Nat) : (c.setFld o hi lo v).dueRows = c.dueRows := rfl
@[simp] theorem setFld_events (c : Core) (o hi lo v : Nat) : (c.setFld o hi lo v).events = c.events := rfl

/-! `setBit` changes registers alone. -/

@[simp] theorem setBit_now (c : Core) (o i : Nat) (b : Bool) : (c.setBit o i b).now = c.now := rfl
@[simp] theorem setBit_remd (c : Core) (o i : Nat) (b : Bool) : (c.setBit o i b).remd = c.remd := rfl
@[simp] theorem setBit_frozen (c : Core) (o i : Nat) (b : Bool) : (c.setBit o i b).frozen = c.frozen := rfl
@[simp] theorem setBit_mem (c : Core) (o i : Nat) (b : Bool) : (c.setBit o i b).mem = c.mem := rfl
@[simp] theorem setBit_undef (c : Core) (o i : Nat) (b : Bool) : (c.setBit o i b).undef = c.undef := rfl
@[simp] theorem setBit_ue (c : Core) (o i : Nat) (b : Bool) : (c.setBit o i b).ue = c.ue := rfl
@[simp] theorem setBit_staged (c : Core) (o i : Nat) (b : Bool) : (c.setBit o i b).staged = c.staged := rfl
@[simp] theorem setBit_late (c : Core) (o i : Nat) (b : Bool) : (c.setBit o i b).late = c.late := rfl
@[simp] theorem setBit_clean (c : Core) (o i : Nat) (b : Bool) : (c.setBit o i b).clean = c.clean := rfl
@[simp] theorem setBit_spoilt (c : Core) (o i : Nat) (b : Bool) : (c.setBit o i b).spoilt = c.spoilt := rfl
@[simp] theorem setBit_pend (c : Core) (o i : Nat) (b : Bool) : (c.setBit o i b).pend = c.pend := rfl
@[simp] theorem setBit_pageOut (c : Core) (o i : Nat) (b : Bool) : (c.setBit o i b).pageOut = c.pageOut := rfl
@[simp] theorem setBit_cow (c : Core) (o i : Nat) (b : Bool) : (c.setBit o i b).cow = c.cow := rfl
@[simp] theorem setBit_scrub (c : Core) (o i : Nat) (b : Bool) : (c.setBit o i b).scrub = c.scrub := rfl
@[simp] theorem setBit_scrubAt (c : Core) (o i : Nat) (b : Bool) : (c.setBit o i b).scrubAt = c.scrubAt := rfl
@[simp] theorem setBit_heldBad (c : Core) (o i : Nat) (b : Bool) : (c.setBit o i b).heldBad = c.heldBad := rfl
@[simp] theorem setBit_msgOut (c : Core) (o i : Nat) (b : Bool) : (c.setBit o i b).msgOut = c.msgOut := rfl
@[simp] theorem setBit_reqs (c : Core) (o i : Nat) (b : Bool) : (c.setBit o i b).reqs = c.reqs := rfl
@[simp] theorem setBit_lateTags (c : Core) (o i : Nat) (b : Bool) : (c.setBit o i b).lateTags = c.lateTags := rfl
@[simp] theorem setBit_fetched (c : Core) (o i : Nat) (b : Bool) : (c.setBit o i b).fetched = c.fetched := rfl
@[simp] theorem setBit_reader (c : Core) (o i : Nat) (b : Bool) : (c.setBit o i b).reader = c.reader := rfl
@[simp] theorem setBit_want (c : Core) (o i : Nat) (b : Bool) : (c.setBit o i b).want = c.want := rfl
@[simp] theorem setBit_outbox (c : Core) (o i : Nat) (b : Bool) : (c.setBit o i b).outbox = c.outbox := rfl
@[simp] theorem setBit_freeCtr (c : Core) (o i : Nat) (b : Bool) : (c.setBit o i b).freeCtr = c.freeCtr := rfl
@[simp] theorem setBit_nfTotal (c : Core) (o i : Nat) (b : Bool) : (c.setBit o i b).nfTotal = c.nfTotal := rfl
@[simp] theorem setBit_ddrRanks (c : Core) (o i : Nat) (b : Bool) : (c.setBit o i b).ddrRanks = c.ddrRanks := rfl
@[simp] theorem setBit_due (c : Core) (o i : Nat) (b : Bool) : (c.setBit o i b).due = c.due := rfl
@[simp] theorem setBit_ceRows (c : Core) (o i : Nat) (b : Bool) : (c.setBit o i b).ceRows = c.ceRows := rfl
@[simp] theorem setBit_dueRows (c : Core) (o i : Nat) (b : Bool) : (c.setBit o i b).dueRows = c.dueRows := rfl
@[simp] theorem setBit_events (c : Core) (o i : Nat) (b : Bool) : (c.setBit o i b).events = c.events := rfl

/-! `bumpFld16` changes registers alone. -/

@[simp] theorem bumpFld16_now (c : Core) (o lo : Nat) : (c.bumpFld16 o lo).now = c.now := rfl
@[simp] theorem bumpFld16_remd (c : Core) (o lo : Nat) : (c.bumpFld16 o lo).remd = c.remd := rfl
@[simp] theorem bumpFld16_frozen (c : Core) (o lo : Nat) : (c.bumpFld16 o lo).frozen = c.frozen := rfl
@[simp] theorem bumpFld16_mem (c : Core) (o lo : Nat) : (c.bumpFld16 o lo).mem = c.mem := rfl
@[simp] theorem bumpFld16_undef (c : Core) (o lo : Nat) : (c.bumpFld16 o lo).undef = c.undef := rfl
@[simp] theorem bumpFld16_ue (c : Core) (o lo : Nat) : (c.bumpFld16 o lo).ue = c.ue := rfl
@[simp] theorem bumpFld16_staged (c : Core) (o lo : Nat) : (c.bumpFld16 o lo).staged = c.staged := rfl
@[simp] theorem bumpFld16_late (c : Core) (o lo : Nat) : (c.bumpFld16 o lo).late = c.late := rfl
@[simp] theorem bumpFld16_clean (c : Core) (o lo : Nat) : (c.bumpFld16 o lo).clean = c.clean := rfl
@[simp] theorem bumpFld16_spoilt (c : Core) (o lo : Nat) : (c.bumpFld16 o lo).spoilt = c.spoilt := rfl
@[simp] theorem bumpFld16_pend (c : Core) (o lo : Nat) : (c.bumpFld16 o lo).pend = c.pend := rfl
@[simp] theorem bumpFld16_pageOut (c : Core) (o lo : Nat) : (c.bumpFld16 o lo).pageOut = c.pageOut := rfl
@[simp] theorem bumpFld16_cow (c : Core) (o lo : Nat) : (c.bumpFld16 o lo).cow = c.cow := rfl
@[simp] theorem bumpFld16_scrub (c : Core) (o lo : Nat) : (c.bumpFld16 o lo).scrub = c.scrub := rfl
@[simp] theorem bumpFld16_scrubAt (c : Core) (o lo : Nat) : (c.bumpFld16 o lo).scrubAt = c.scrubAt := rfl
@[simp] theorem bumpFld16_heldBad (c : Core) (o lo : Nat) : (c.bumpFld16 o lo).heldBad = c.heldBad := rfl
@[simp] theorem bumpFld16_msgOut (c : Core) (o lo : Nat) : (c.bumpFld16 o lo).msgOut = c.msgOut := rfl
@[simp] theorem bumpFld16_reqs (c : Core) (o lo : Nat) : (c.bumpFld16 o lo).reqs = c.reqs := rfl
@[simp] theorem bumpFld16_lateTags (c : Core) (o lo : Nat) : (c.bumpFld16 o lo).lateTags = c.lateTags := rfl
@[simp] theorem bumpFld16_fetched (c : Core) (o lo : Nat) : (c.bumpFld16 o lo).fetched = c.fetched := rfl
@[simp] theorem bumpFld16_reader (c : Core) (o lo : Nat) : (c.bumpFld16 o lo).reader = c.reader := rfl
@[simp] theorem bumpFld16_want (c : Core) (o lo : Nat) : (c.bumpFld16 o lo).want = c.want := rfl
@[simp] theorem bumpFld16_outbox (c : Core) (o lo : Nat) : (c.bumpFld16 o lo).outbox = c.outbox := rfl
@[simp] theorem bumpFld16_freeCtr (c : Core) (o lo : Nat) : (c.bumpFld16 o lo).freeCtr = c.freeCtr := rfl
@[simp] theorem bumpFld16_nfTotal (c : Core) (o lo : Nat) : (c.bumpFld16 o lo).nfTotal = c.nfTotal := rfl
@[simp] theorem bumpFld16_ddrRanks (c : Core) (o lo : Nat) : (c.bumpFld16 o lo).ddrRanks = c.ddrRanks := rfl
@[simp] theorem bumpFld16_due (c : Core) (o lo : Nat) : (c.bumpFld16 o lo).due = c.due := rfl
@[simp] theorem bumpFld16_ceRows (c : Core) (o lo : Nat) : (c.bumpFld16 o lo).ceRows = c.ceRows := rfl
@[simp] theorem bumpFld16_dueRows (c : Core) (o lo : Nat) : (c.bumpFld16 o lo).dueRows = c.dueRows := rfl
@[simp] theorem bumpFld16_events (c : Core) (o lo : Nat) : (c.bumpFld16 o lo).events = c.events := rfl

/-! `bumpSat` changes registers alone. -/

@[simp] theorem bumpSat_now (c : Core) (o n : Nat) : (c.bumpSat o n).now = c.now := rfl
@[simp] theorem bumpSat_remd (c : Core) (o n : Nat) : (c.bumpSat o n).remd = c.remd := rfl
@[simp] theorem bumpSat_frozen (c : Core) (o n : Nat) : (c.bumpSat o n).frozen = c.frozen := rfl
@[simp] theorem bumpSat_mem (c : Core) (o n : Nat) : (c.bumpSat o n).mem = c.mem := rfl
@[simp] theorem bumpSat_undef (c : Core) (o n : Nat) : (c.bumpSat o n).undef = c.undef := rfl
@[simp] theorem bumpSat_ue (c : Core) (o n : Nat) : (c.bumpSat o n).ue = c.ue := rfl
@[simp] theorem bumpSat_staged (c : Core) (o n : Nat) : (c.bumpSat o n).staged = c.staged := rfl
@[simp] theorem bumpSat_late (c : Core) (o n : Nat) : (c.bumpSat o n).late = c.late := rfl
@[simp] theorem bumpSat_clean (c : Core) (o n : Nat) : (c.bumpSat o n).clean = c.clean := rfl
@[simp] theorem bumpSat_spoilt (c : Core) (o n : Nat) : (c.bumpSat o n).spoilt = c.spoilt := rfl
@[simp] theorem bumpSat_pend (c : Core) (o n : Nat) : (c.bumpSat o n).pend = c.pend := rfl
@[simp] theorem bumpSat_pageOut (c : Core) (o n : Nat) : (c.bumpSat o n).pageOut = c.pageOut := rfl
@[simp] theorem bumpSat_cow (c : Core) (o n : Nat) : (c.bumpSat o n).cow = c.cow := rfl
@[simp] theorem bumpSat_scrub (c : Core) (o n : Nat) : (c.bumpSat o n).scrub = c.scrub := rfl
@[simp] theorem bumpSat_scrubAt (c : Core) (o n : Nat) : (c.bumpSat o n).scrubAt = c.scrubAt := rfl
@[simp] theorem bumpSat_heldBad (c : Core) (o n : Nat) : (c.bumpSat o n).heldBad = c.heldBad := rfl
@[simp] theorem bumpSat_msgOut (c : Core) (o n : Nat) : (c.bumpSat o n).msgOut = c.msgOut := rfl
@[simp] theorem bumpSat_reqs (c : Core) (o n : Nat) : (c.bumpSat o n).reqs = c.reqs := rfl
@[simp] theorem bumpSat_lateTags (c : Core) (o n : Nat) : (c.bumpSat o n).lateTags = c.lateTags := rfl
@[simp] theorem bumpSat_fetched (c : Core) (o n : Nat) : (c.bumpSat o n).fetched = c.fetched := rfl
@[simp] theorem bumpSat_reader (c : Core) (o n : Nat) : (c.bumpSat o n).reader = c.reader := rfl
@[simp] theorem bumpSat_want (c : Core) (o n : Nat) : (c.bumpSat o n).want = c.want := rfl
@[simp] theorem bumpSat_outbox (c : Core) (o n : Nat) : (c.bumpSat o n).outbox = c.outbox := rfl
@[simp] theorem bumpSat_freeCtr (c : Core) (o n : Nat) : (c.bumpSat o n).freeCtr = c.freeCtr := rfl
@[simp] theorem bumpSat_nfTotal (c : Core) (o n : Nat) : (c.bumpSat o n).nfTotal = c.nfTotal := rfl
@[simp] theorem bumpSat_ddrRanks (c : Core) (o n : Nat) : (c.bumpSat o n).ddrRanks = c.ddrRanks := rfl
@[simp] theorem bumpSat_due (c : Core) (o n : Nat) : (c.bumpSat o n).due = c.due := rfl
@[simp] theorem bumpSat_ceRows (c : Core) (o n : Nat) : (c.bumpSat o n).ceRows = c.ceRows := rfl
@[simp] theorem bumpSat_dueRows (c : Core) (o n : Nat) : (c.bumpSat o n).dueRows = c.dueRows := rfl
@[simp] theorem bumpSat_events (c : Core) (o n : Nat) : (c.bumpSat o n).events = c.events := rfl

/-! `bump` changes registers alone. -/

@[simp] theorem bump_now (c : Core) (o n : Nat) : (c.bump o n).now = c.now := rfl
@[simp] theorem bump_remd (c : Core) (o n : Nat) : (c.bump o n).remd = c.remd := rfl
@[simp] theorem bump_frozen (c : Core) (o n : Nat) : (c.bump o n).frozen = c.frozen := rfl
@[simp] theorem bump_mem (c : Core) (o n : Nat) : (c.bump o n).mem = c.mem := rfl
@[simp] theorem bump_undef (c : Core) (o n : Nat) : (c.bump o n).undef = c.undef := rfl
@[simp] theorem bump_ue (c : Core) (o n : Nat) : (c.bump o n).ue = c.ue := rfl
@[simp] theorem bump_staged (c : Core) (o n : Nat) : (c.bump o n).staged = c.staged := rfl
@[simp] theorem bump_late (c : Core) (o n : Nat) : (c.bump o n).late = c.late := rfl
@[simp] theorem bump_clean (c : Core) (o n : Nat) : (c.bump o n).clean = c.clean := rfl
@[simp] theorem bump_spoilt (c : Core) (o n : Nat) : (c.bump o n).spoilt = c.spoilt := rfl
@[simp] theorem bump_pend (c : Core) (o n : Nat) : (c.bump o n).pend = c.pend := rfl
@[simp] theorem bump_pageOut (c : Core) (o n : Nat) : (c.bump o n).pageOut = c.pageOut := rfl
@[simp] theorem bump_cow (c : Core) (o n : Nat) : (c.bump o n).cow = c.cow := rfl
@[simp] theorem bump_scrub (c : Core) (o n : Nat) : (c.bump o n).scrub = c.scrub := rfl
@[simp] theorem bump_scrubAt (c : Core) (o n : Nat) : (c.bump o n).scrubAt = c.scrubAt := rfl
@[simp] theorem bump_heldBad (c : Core) (o n : Nat) : (c.bump o n).heldBad = c.heldBad := rfl
@[simp] theorem bump_msgOut (c : Core) (o n : Nat) : (c.bump o n).msgOut = c.msgOut := rfl
@[simp] theorem bump_reqs (c : Core) (o n : Nat) : (c.bump o n).reqs = c.reqs := rfl
@[simp] theorem bump_lateTags (c : Core) (o n : Nat) : (c.bump o n).lateTags = c.lateTags := rfl
@[simp] theorem bump_fetched (c : Core) (o n : Nat) : (c.bump o n).fetched = c.fetched := rfl
@[simp] theorem bump_reader (c : Core) (o n : Nat) : (c.bump o n).reader = c.reader := rfl
@[simp] theorem bump_want (c : Core) (o n : Nat) : (c.bump o n).want = c.want := rfl
@[simp] theorem bump_outbox (c : Core) (o n : Nat) : (c.bump o n).outbox = c.outbox := rfl
@[simp] theorem bump_freeCtr (c : Core) (o n : Nat) : (c.bump o n).freeCtr = c.freeCtr := rfl
@[simp] theorem bump_nfTotal (c : Core) (o n : Nat) : (c.bump o n).nfTotal = c.nfTotal := rfl
@[simp] theorem bump_ddrRanks (c : Core) (o n : Nat) : (c.bump o n).ddrRanks = c.ddrRanks := rfl
@[simp] theorem bump_due (c : Core) (o n : Nat) : (c.bump o n).due = c.due := rfl
@[simp] theorem bump_ceRows (c : Core) (o n : Nat) : (c.bump o n).ceRows = c.ceRows := rfl
@[simp] theorem bump_dueRows (c : Core) (o n : Nat) : (c.bump o n).dueRows = c.dueRows := rfl
@[simp] theorem bump_events (c : Core) (o n : Nat) : (c.bump o n).events = c.events := rfl

/-! `emit` and `send` add to what leaves the module. -/

@[simp] theorem emit_ctl (c : Core) (o : Out) : (c.emit o).ctl = c.ctl := rfl
@[simp] theorem emit_now (c : Core) (o : Out) : (c.emit o).now = c.now := rfl
@[simp] theorem emit_remd (c : Core) (o : Out) : (c.emit o).remd = c.remd := rfl
@[simp] theorem emit_frozen (c : Core) (o : Out) : (c.emit o).frozen = c.frozen := rfl
@[simp] theorem emit_mem (c : Core) (o : Out) : (c.emit o).mem = c.mem := rfl
@[simp] theorem emit_undef (c : Core) (o : Out) : (c.emit o).undef = c.undef := rfl
@[simp] theorem emit_ue (c : Core) (o : Out) : (c.emit o).ue = c.ue := rfl
@[simp] theorem emit_staged (c : Core) (o : Out) : (c.emit o).staged = c.staged := rfl
@[simp] theorem emit_late (c : Core) (o : Out) : (c.emit o).late = c.late := rfl
@[simp] theorem emit_clean (c : Core) (o : Out) : (c.emit o).clean = c.clean := rfl
@[simp] theorem emit_spoilt (c : Core) (o : Out) : (c.emit o).spoilt = c.spoilt := rfl
@[simp] theorem emit_pend (c : Core) (o : Out) : (c.emit o).pend = c.pend := rfl
@[simp] theorem emit_pageOut (c : Core) (o : Out) : (c.emit o).pageOut = c.pageOut := rfl
@[simp] theorem emit_cow (c : Core) (o : Out) : (c.emit o).cow = c.cow := rfl
@[simp] theorem emit_scrub (c : Core) (o : Out) : (c.emit o).scrub = c.scrub := rfl
@[simp] theorem emit_scrubAt (c : Core) (o : Out) : (c.emit o).scrubAt = c.scrubAt := rfl
@[simp] theorem emit_heldBad (c : Core) (o : Out) : (c.emit o).heldBad = c.heldBad := rfl
@[simp] theorem emit_msgOut (c : Core) (o : Out) : (c.emit o).msgOut = c.msgOut := rfl
@[simp] theorem emit_reqs (c : Core) (o : Out) : (c.emit o).reqs = c.reqs := rfl
@[simp] theorem emit_lateTags (c : Core) (o : Out) : (c.emit o).lateTags = c.lateTags := rfl
@[simp] theorem emit_fetched (c : Core) (o : Out) : (c.emit o).fetched = c.fetched := rfl
@[simp] theorem emit_reader (c : Core) (o : Out) : (c.emit o).reader = c.reader := rfl
@[simp] theorem emit_want (c : Core) (o : Out) : (c.emit o).want = c.want := rfl
@[simp] theorem emit_freeCtr (c : Core) (o : Out) : (c.emit o).freeCtr = c.freeCtr := rfl
@[simp] theorem emit_nfTotal (c : Core) (o : Out) : (c.emit o).nfTotal = c.nfTotal := rfl
@[simp] theorem emit_ddrRanks (c : Core) (o : Out) : (c.emit o).ddrRanks = c.ddrRanks := rfl
@[simp] theorem emit_due (c : Core) (o : Out) : (c.emit o).due = c.due := rfl
@[simp] theorem emit_ceRows (c : Core) (o : Out) : (c.emit o).ceRows = c.ceRows := rfl
@[simp] theorem emit_dueRows (c : Core) (o : Out) : (c.emit o).dueRows = c.dueRows := rfl
@[simp] theorem emit_events (c : Core) (o : Out) : (c.emit o).events = c.events := rfl
@[simp] theorem send_ctl (c : Core) (d k : Nat) (bs : List Byte) : (c.send d k bs).ctl = c.ctl := rfl
@[simp] theorem send_now (c : Core) (d k : Nat) (bs : List Byte) : (c.send d k bs).now = c.now := rfl
@[simp] theorem send_remd (c : Core) (d k : Nat) (bs : List Byte) : (c.send d k bs).remd = c.remd := rfl
@[simp] theorem send_frozen (c : Core) (d k : Nat) (bs : List Byte) : (c.send d k bs).frozen = c.frozen := rfl
@[simp] theorem send_mem (c : Core) (d k : Nat) (bs : List Byte) : (c.send d k bs).mem = c.mem := rfl
@[simp] theorem send_undef (c : Core) (d k : Nat) (bs : List Byte) : (c.send d k bs).undef = c.undef := rfl
@[simp] theorem send_ue (c : Core) (d k : Nat) (bs : List Byte) : (c.send d k bs).ue = c.ue := rfl
@[simp] theorem send_staged (c : Core) (d k : Nat) (bs : List Byte) : (c.send d k bs).staged = c.staged := rfl
@[simp] theorem send_late (c : Core) (d k : Nat) (bs : List Byte) : (c.send d k bs).late = c.late := rfl
@[simp] theorem send_clean (c : Core) (d k : Nat) (bs : List Byte) : (c.send d k bs).clean = c.clean := rfl
@[simp] theorem send_spoilt (c : Core) (d k : Nat) (bs : List Byte) : (c.send d k bs).spoilt = c.spoilt := rfl
@[simp] theorem send_pend (c : Core) (d k : Nat) (bs : List Byte) : (c.send d k bs).pend = c.pend := rfl
@[simp] theorem send_pageOut (c : Core) (d k : Nat) (bs : List Byte) : (c.send d k bs).pageOut = c.pageOut := rfl
@[simp] theorem send_cow (c : Core) (d k : Nat) (bs : List Byte) : (c.send d k bs).cow = c.cow := rfl
@[simp] theorem send_scrub (c : Core) (d k : Nat) (bs : List Byte) : (c.send d k bs).scrub = c.scrub := rfl
@[simp] theorem send_scrubAt (c : Core) (d k : Nat) (bs : List Byte) : (c.send d k bs).scrubAt = c.scrubAt := rfl
@[simp] theorem send_heldBad (c : Core) (d k : Nat) (bs : List Byte) : (c.send d k bs).heldBad = c.heldBad := rfl
@[simp] theorem send_reqs (c : Core) (d k : Nat) (bs : List Byte) : (c.send d k bs).reqs = c.reqs := rfl
@[simp] theorem send_lateTags (c : Core) (d k : Nat) (bs : List Byte) : (c.send d k bs).lateTags = c.lateTags := rfl
@[simp] theorem send_fetched (c : Core) (d k : Nat) (bs : List Byte) : (c.send d k bs).fetched = c.fetched := rfl
@[simp] theorem send_reader (c : Core) (d k : Nat) (bs : List Byte) : (c.send d k bs).reader = c.reader := rfl
@[simp] theorem send_want (c : Core) (d k : Nat) (bs : List Byte) : (c.send d k bs).want = c.want := rfl
@[simp] theorem send_outbox (c : Core) (d k : Nat) (bs : List Byte) : (c.send d k bs).outbox = c.outbox := rfl
@[simp] theorem send_freeCtr (c : Core) (d k : Nat) (bs : List Byte) : (c.send d k bs).freeCtr = c.freeCtr := rfl
@[simp] theorem send_nfTotal (c : Core) (d k : Nat) (bs : List Byte) : (c.send d k bs).nfTotal = c.nfTotal := rfl
@[simp] theorem send_ddrRanks (c : Core) (d k : Nat) (bs : List Byte) : (c.send d k bs).ddrRanks = c.ddrRanks := rfl
@[simp] theorem send_due (c : Core) (d k : Nat) (bs : List Byte) : (c.send d k bs).due = c.due := rfl
@[simp] theorem send_ceRows (c : Core) (d k : Nat) (bs : List Byte) : (c.send d k bs).ceRows = c.ceRows := rfl
@[simp] theorem send_dueRows (c : Core) (d k : Nat) (bs : List Byte) : (c.send d k bs).dueRows = c.dueRows := rfl
@[simp] theorem send_events (c : Core) (d k : Nat) (bs : List Byte) : (c.send d k bs).events = c.events := rfl
@[simp] theorem sendOn_ctl (c : Core) (l k : Nat) (bs : List Byte) : (c.sendOn l k bs).ctl = c.ctl := rfl
@[simp] theorem sendOn_now (c : Core) (l k : Nat) (bs : List Byte) : (c.sendOn l k bs).now = c.now := rfl
@[simp] theorem sendOn_remd (c : Core) (l k : Nat) (bs : List Byte) : (c.sendOn l k bs).remd = c.remd := rfl
@[simp] theorem sendOn_frozen (c : Core) (l k : Nat) (bs : List Byte) : (c.sendOn l k bs).frozen = c.frozen := rfl
@[simp] theorem sendOn_mem (c : Core) (l k : Nat) (bs : List Byte) : (c.sendOn l k bs).mem = c.mem := rfl
@[simp] theorem sendOn_undef (c : Core) (l k : Nat) (bs : List Byte) : (c.sendOn l k bs).undef = c.undef := rfl
@[simp] theorem sendOn_ue (c : Core) (l k : Nat) (bs : List Byte) : (c.sendOn l k bs).ue = c.ue := rfl
@[simp] theorem sendOn_staged (c : Core) (l k : Nat) (bs : List Byte) : (c.sendOn l k bs).staged = c.staged := rfl
@[simp] theorem sendOn_late (c : Core) (l k : Nat) (bs : List Byte) : (c.sendOn l k bs).late = c.late := rfl
@[simp] theorem sendOn_clean (c : Core) (l k : Nat) (bs : List Byte) : (c.sendOn l k bs).clean = c.clean := rfl
@[simp] theorem sendOn_spoilt (c : Core) (l k : Nat) (bs : List Byte) : (c.sendOn l k bs).spoilt = c.spoilt := rfl
@[simp] theorem sendOn_pend (c : Core) (l k : Nat) (bs : List Byte) : (c.sendOn l k bs).pend = c.pend := rfl
@[simp] theorem sendOn_pageOut (c : Core) (l k : Nat) (bs : List Byte) : (c.sendOn l k bs).pageOut = c.pageOut := rfl
@[simp] theorem sendOn_cow (c : Core) (l k : Nat) (bs : List Byte) : (c.sendOn l k bs).cow = c.cow := rfl
@[simp] theorem sendOn_scrub (c : Core) (l k : Nat) (bs : List Byte) : (c.sendOn l k bs).scrub = c.scrub := rfl
@[simp] theorem sendOn_scrubAt (c : Core) (l k : Nat) (bs : List Byte) : (c.sendOn l k bs).scrubAt = c.scrubAt := rfl
@[simp] theorem sendOn_heldBad (c : Core) (l k : Nat) (bs : List Byte) : (c.sendOn l k bs).heldBad = c.heldBad := rfl
@[simp] theorem sendOn_reqs (c : Core) (l k : Nat) (bs : List Byte) : (c.sendOn l k bs).reqs = c.reqs := rfl
@[simp] theorem sendOn_lateTags (c : Core) (l k : Nat) (bs : List Byte) : (c.sendOn l k bs).lateTags = c.lateTags := rfl
@[simp] theorem sendOn_fetched (c : Core) (l k : Nat) (bs : List Byte) : (c.sendOn l k bs).fetched = c.fetched := rfl
@[simp] theorem sendOn_reader (c : Core) (l k : Nat) (bs : List Byte) : (c.sendOn l k bs).reader = c.reader := rfl
@[simp] theorem sendOn_want (c : Core) (l k : Nat) (bs : List Byte) : (c.sendOn l k bs).want = c.want := rfl
@[simp] theorem sendOn_outbox (c : Core) (l k : Nat) (bs : List Byte) : (c.sendOn l k bs).outbox = c.outbox := rfl
@[simp] theorem sendOn_freeCtr (c : Core) (l k : Nat) (bs : List Byte) : (c.sendOn l k bs).freeCtr = c.freeCtr := rfl
@[simp] theorem sendOn_nfTotal (c : Core) (l k : Nat) (bs : List Byte) : (c.sendOn l k bs).nfTotal = c.nfTotal := rfl
@[simp] theorem sendOn_ddrRanks (c : Core) (l k : Nat) (bs : List Byte) : (c.sendOn l k bs).ddrRanks = c.ddrRanks := rfl
@[simp] theorem sendOn_due (c : Core) (l k : Nat) (bs : List Byte) : (c.sendOn l k bs).due = c.due := rfl
@[simp] theorem sendOn_ceRows (c : Core) (l k : Nat) (bs : List Byte) : (c.sendOn l k bs).ceRows = c.ceRows := rfl
@[simp] theorem sendOn_dueRows (c : Core) (l k : Nat) (bs : List Byte) : (c.sendOn l k bs).dueRows = c.dueRows := rfl
@[simp] theorem sendOn_events (c : Core) (l k : Nat) (bs : List Byte) : (c.sendOn l k bs).events = c.events := rfl
@[simp] theorem rd_emit (c : Core) (o : Out) (p : Nat) : (c.emit o).rd p = c.rd p := rfl
@[simp] theorem rd_send (c : Core) (d k p : Nat) (bs : List Byte) : (c.send d k bs).rd p = c.rd p := rfl
@[simp] theorem rd_sendOn (c : Core) (l k p : Nat) (bs : List Byte) : (c.sendOn l k bs).rd p = c.rd p := rfl

/-! A byte of memory reads from the bytes listed and the undefined ranges. -/

theorem rdByte_of_same (c d : Core) (a : Nat) (h1 : d.mem = c.mem) (h2 : d.undef = c.undef) : d.rdByte a = c.rdByte a := by
  unfold rdByte; rw [h1, h2]

@[simp] theorem rdByte_wr (c : Core) (o : Nat) (v : Word) (a : Nat) : (c.wr o v).rdByte a = c.rdByte a := rfl
@[simp] theorem rdByte_setFld (c : Core) (o hi lo v a : Nat) : (c.setFld o hi lo v).rdByte a = c.rdByte a := rfl
@[simp] theorem rdByte_setBit (c : Core) (o i : Nat) (b : Bool) (a : Nat) : (c.setBit o i b).rdByte a = c.rdByte a := rfl
@[simp] theorem rdByte_bump (c : Core) (o n a : Nat) : (c.bump o n).rdByte a = c.rdByte a :=
  rdByte_of_same _ _ _ (by simp) (by simp)
@[simp] theorem rdByte_emit (c : Core) (o : Out) (a : Nat) : (c.emit o).rdByte a = c.rdByte a := rfl

/-! ## Copies for a checkpoint (R422) -/

/-- Everything that the copies which a change of memory brings can change of a core. -/
def copied (c : Core) (ctl : List (Nat × Word)) (clean pend : List Nat) (out : List (Nat × List Byte)) (fc : Nat) : Core :=
  { c with ctl := ctl, clean := clean, pend := pend, pageOut := out, freeCtr := fc }

theorem foldl_countHbmUe_eq (l : List Nat) (c : Core) : ∃ ctl, l.foldl countHbmUe c = { c with ctl := ctl } := by
  induction l generalizing c with
  | nil => exact ⟨c.ctl, rfl⟩
  | cons x r ih =>
    obtain ⟨ctl, e⟩ := ih (c.countHbmUe x)
    exact ⟨ctl, e⟩

theorem onReserved_eq (c : Core) (n : Nat) : ∃ ctl, c.onReserved n = { c with ctl := ctl } := by
  unfold onReserved
  split
  · exact ⟨_, rfl⟩
  · exact ⟨c.ctl, rfl⟩

/-- A page's copy counts, and moves the page from the pending to the staged. -/
theorem copyPage_eq (c : Core) (pg : Nat) : ∃ ctl clean pend out fc, c.copyPage pg = c.copied ctl clean pend out fc := by
  unfold copyPage
  dsimp only
  generalize c.rdBytes (pg * 0x4000) 0x4000 = bs
  rw [bump_eq]
  generalize hd : Core.mk _ _ _ _ _ _ _ _ _ _ _ _ _ _ _ _ _ _ _ _ _ _ _ _ _ _ _ _ _ _ _ = d
  obtain ⟨c1, e1⟩ := foldl_countHbmUe_eq (((List.range 256).map fun i => pg * 256 + i).filter c.isUe) d
  rw [e1]
  obtain ⟨c2, e2⟩ := onReserved_eq ({ d with ctl := c1 } : Core) 0x4000
  rw [e2, ← hd]
  exact ⟨_, _, _, _, _, rfl⟩

theorem touchPage_eq (c : Core) (a : Nat) : ∃ ctl clean pend out fc, c.touchPage a = c.copied ctl clean pend out fc := by
  unfold touchPage
  split
  · dsimp only
    split
    · obtain ⟨ctl, clean, pend, out, fc, e⟩ := c.copyPage_eq (a / 0x4000)
      rw [e]
      exact ⟨_, _, _, _, _, rfl⟩
    · exact ⟨c.ctl, _, c.pend, c.pageOut, c.freeCtr, rfl⟩
  · exact ⟨c.ctl, c.clean, c.pend, c.pageOut, c.freeCtr, rfl⟩

theorem foldl_touchPage_eq (l : List Nat) (c : Core) : ∃ ctl clean pend out fc,
    l.foldl (fun d p => d.touchPage (p * 0x4000)) c = c.copied ctl clean pend out fc := by
  induction l generalizing c with
  | nil => exact ⟨c.ctl, c.clean, c.pend, c.pageOut, c.freeCtr, rfl⟩
  | cons x r ih =>
    obtain ⟨a1, a2, a3, a4, a5, e⟩ := c.touchPage_eq (x * 0x4000)
    obtain ⟨b1, b2, b3, b4, b5, e'⟩ := ih (c.touchPage (x * 0x4000))
    exact ⟨b1, b2, b3, b4, b5, by rw [List.foldl_cons, e', e]; rfl⟩

theorem touchRange_eq (c : Core) (a n : Nat) : ∃ ctl clean pend out fc, c.touchRange a n = c.copied ctl clean pend out fc := by
  unfold touchRange
  dsimp only
  obtain ⟨a1, a2, a3, a4, a5, e⟩ := foldl_touchPage_eq (c.pend.filter fun p => decide (a / 0x4000 ≤ p) && decide (p * 0x4000 < a + n)) c
  rw [e]
  exact ⟨a1, _, a3, a4, a5, rfl⟩

/-- What the copies cannot change, a change of memory leaves as the bytes put into it leave it. -/
theorem touchPage_keeps {β : Type} (g : Core → β) (h : ∀ c ctl clean pend out fc, g (copied c ctl clean pend out fc) = g c) (c : Core) (a : Nat) :
    g (c.touchPage a) = g c := by
  obtain ⟨a1, a2, a3, a4, a5, e⟩ := c.touchPage_eq a
  rw [e, h]

theorem touchRange_keeps {β : Type} (g : Core → β) (h : ∀ c ctl clean pend out fc, g (copied c ctl clean pend out fc) = g c) (c : Core) (a n : Nat) :
    g (c.touchRange a n) = g c := by
  obtain ⟨a1, a2, a3, a4, a5, e⟩ := c.touchRange_eq a n
  rw [e, h]

/-- Undefined bytes leave everything but the undefined ranges and the free values used. -/
theorem makeUndef_eq (c : Core) (a n : Nat) : ∃ u fc, c.makeUndef a n = { c with undef := u, freeCtr := fc } := by
  unfold makeUndef
  split
  · exact ⟨c.undef, c.freeCtr, rfl⟩
  · exact ⟨_, _, rfl⟩

theorem spoil_eq (c : Core) (a n : Nat) : ∃ u fc sp, c.spoil a n = { c with undef := u, freeCtr := fc, spoilt := sp } := by
  unfold spoil
  split
  · exact ⟨c.undef, c.freeCtr, c.spoilt, rfl⟩
  · obtain ⟨u, fc, e⟩ := c.makeUndef_eq a n
    rw [e]
    exact ⟨u, fc, _, rfl⟩

end Core

end Sys2Proof.Machine
end

