-- ==== Sys2Proof/Laws/Settle.lean ====
section
/-! SUPPORT. What the taking of Doff events at the end of a command (R477, R478) leaves: everything but the Doff registers, the Doff
fields of the power state and the messages sent. -/

namespace Sys2Proof.Machine

/-- The registers that a trigger of this module can change. -/
def doffRegs : List Nat := [Reg.doffStatus, Reg.doffTime, Reg.doffId, Reg.doffIgnored]

/-- Everything that a trigger can change of a state: registers, messages sent, and the Doff fields of the power state. -/
def State.withDoff (s : State) (ctl : List (Nat × Word)) (out : List Msg) (fire : Option Nat) (ident : Option (Nat × Nat))
    (seq hops from_ : Nat) (took : Option Nat) : State :=
  { s with core := { s.core with ctl := ctl, msgOut := out },
           pwr := { s.pwr with doffFire := fire, doffIdent := ident, doffSeq := seq, doffHops := hops, doffFrom := from_, doffTook := took } }

/-- Forwarding a Doff only sends messages. -/
theorem Core.doffForward_eq (c : Core) (h q o f k : Nat) : ∃ out, c.doffForward h q o f k = { c with msgOut := out } := by
  unfold doffForward
  split
  · exact ⟨c.msgOut, rfl⟩
  · rename_i hn
    clear hn
    generalize (List.range 12).filter _ = l
    induction l generalizing c with
    | nil => exact ⟨c.msgOut, rfl⟩
    | cons x r ih => exact (ih (c.sendOn x 3 (msgDoff h q o f))).imp fun out e => e

@[simp] theorem Core.doffForward_ctl (c : Core) (h q o f k : Nat) : (c.doffForward h q o f k).ctl = c.ctl := by
  obtain ⟨out, e⟩ := c.doffForward_eq h q o f k
  rw [e]

@[simp] theorem Core.rd_doffForward (c : Core) (h q o f k p : Nat) : (c.doffForward h q o f k).rd p = c.rd p := by
  simp only [Core.rd, Core.doffForward_ctl]

/-- Taking a Doff of this module changes what a trigger can change. -/
theorem doffOwn_eq (s : State) (k t : Nat) : ∃ ctl out fire ident seq hops from_ took,
    s.doffOwn k t = s.withDoff ctl out fire ident seq hops from_ took := by
  unfold State.doffOwn State.doffArm
  obtain ⟨out, e⟩ := Core.doffForward_eq (((((s.core.setFld Reg.doffStatus 1 0 1).setFld Reg.doffStatus 4 2 k).wr Reg.doffTime
    (BitVec.ofNat 64 (t + s.core.fld Reg.doffLead 19 0))).wr Reg.doffId
      (BitVec.ofNat 64 (s.core.moduleNo % 4096 + 2 ^ 16 * ((s.pwr.doffSeq + 1) % 2 ^ 16 % 2 ^ 16) + 2 ^ 32 * (0 % 256)))))
    0 ((s.pwr.doffSeq + 1) % 2 ^ 16) s.core.moduleNo (t + s.core.fld Reg.doffLead 19 0) 12
  simp only [e]
  exact ⟨_, _, _, _, _, _, _, _, rfl⟩

/-- What no trigger can change, a trigger leaves. -/
theorem doffTrigger_keeps {β : Type} (g : State → β) (h : ∀ s ctl out fire ident seq hops from_ took,
    g (State.withDoff s ctl out fire ident seq hops from_ took) = g s) (s : State) (k t : Nat) : g (s.doffTrigger k t) = g s := by
  have own : ∀ s : State, g (s.doffOwn k t) = g s := fun s => by
    obtain ⟨ctl, out, fire, ident, seq, hops, from_, took, e⟩ := doffOwn_eq s k t
    rw [e, h]
  have regs : ∀ (s : State) (ctl : List (Nat × Word)) (out : List Msg), g { s with core := { s.core with ctl := ctl, msgOut := out } } = g s :=
    fun s ctl out => h s ctl out s.pwr.doffFire s.pwr.doffIdent s.pwr.doffSeq s.pwr.doffHops s.pwr.doffFrom s.pwr.doffTook
  have undo : ∀ s : State, g s.doffUnsend = g s := fun s => by
    unfold State.doffUnsend
    split
    · exact regs s s.core.ctl _
    · rfl
  unfold State.doffTrigger
  split
  · exact own s
  · dsimp only
    split
    · split
      · rw [own, undo]; exact regs s _ _
      · exact regs s _ _
    · exact regs s _ _

/-- A trigger changes no register outside the Doff's own. -/
theorem rd_doffTrigger (s : State) (k t o : Nat) (h : o ∉ doffRegs) : (s.doffTrigger k t).core.rd o = s.core.rd o := by
  simp only [doffRegs, List.mem_cons, List.not_mem_nil, or_false, not_or] at h
  have own : ∀ s : State, (s.doffOwn k t).core.rd o = s.core.rd o := fun s => by simp [State.doffOwn, State.doffArm, h]
  have undo : ∀ s : State, s.doffUnsend.core.rd o = s.core.rd o := fun s => by
    unfold State.doffUnsend
    split <;> rfl
  unfold State.doffTrigger
  split
  · exact own s
  · dsimp only
    split
    · split
      · rw [own, undo]; simp [h]
      · simp [h]
    · simp [h]

/-- What no trigger changes, the events of a command leave. -/
theorem settle_keeps {β : Type} (g : State → β) (h : ∀ s ctl out fire ident seq hops from_ took,
    g (State.withDoff s ctl out fire ident seq hops from_ took) = g s)
    (h0 : ∀ s : State, g { s with core := { s.core with events := [] } } = g s) (s : State) : g s.settle = g s := by
  unfold State.settle
  exact (foldl_keeps g _ (fun s e => by split <;> simp [doffTrigger_keeps g h]) _ _).trans (h0 s)

@[simp] theorem settle_pending (s : State) : s.settle.pending = s.pending := settle_keeps State.pending (fun _ _ _ _ _ _ _ _ _ => rfl) (fun _ => rfl) s
@[simp] theorem settle_part (s : State) : s.settle.part = s.part := settle_keeps State.part (fun _ _ _ _ _ _ _ _ _ => rfl) (fun _ => rfl) s
@[simp] theorem settle_pat (s : State) : s.settle.pat = s.pat := settle_keeps State.pat (fun _ _ _ _ _ _ _ _ _ => rfl) (fun _ => rfl) s
@[simp] theorem settle_palm (s : State) : s.settle.palm = s.palm := settle_keeps State.palm (fun _ _ _ _ _ _ _ _ _ => rfl) (fun _ => rfl) s
@[simp] theorem settle_work (s : State) : s.settle.work = s.work := settle_keeps State.work (fun _ _ _ _ _ _ _ _ _ => rfl) (fun _ => rfl) s
@[simp] theorem settle_red (s : State) : s.settle.red = s.red := settle_keeps State.red (fun _ _ _ _ _ _ _ _ _ => rfl) (fun _ => rfl) s
@[simp] theorem settle_net (s : State) : s.settle.net = s.net := settle_keeps State.net (fun _ _ _ _ _ _ _ _ _ => rfl) (fun _ => rfl) s
@[simp] theorem settle_links (s : State) : s.settle.links = s.links := settle_keeps State.links (fun _ _ _ _ _ _ _ _ _ => rfl) (fun _ => rfl) s
@[simp] theorem settle_integ (s : State) : s.settle.integ = s.integ := settle_keeps State.integ (fun _ _ _ _ _ _ _ _ _ => rfl) (fun _ => rfl) s
@[simp] theorem settle_now (s : State) : s.settle.core.now = s.core.now :=
  settle_keeps (fun t => t.core.now) (fun _ _ _ _ _ _ _ _ _ => rfl) (fun _ => rfl) s
@[simp] theorem settle_remd (s : State) : s.settle.core.remd = s.core.remd :=
  settle_keeps (fun t => t.core.remd) (fun _ _ _ _ _ _ _ _ _ => rfl) (fun _ => rfl) s
@[simp] theorem settle_frozen (s : State) : s.settle.core.frozen = s.core.frozen :=
  settle_keeps (fun t => t.core.frozen) (fun _ _ _ _ _ _ _ _ _ => rfl) (fun _ => rfl) s
@[simp] theorem settle_mem (s : State) : s.settle.core.mem = s.core.mem :=
  settle_keeps (fun t => t.core.mem) (fun _ _ _ _ _ _ _ _ _ => rfl) (fun _ => rfl) s
@[simp] theorem settle_undef (s : State) : s.settle.core.undef = s.core.undef :=
  settle_keeps (fun t => t.core.undef) (fun _ _ _ _ _ _ _ _ _ => rfl) (fun _ => rfl) s
@[simp] theorem settle_ue (s : State) : s.settle.core.ue = s.core.ue :=
  settle_keeps (fun t => t.core.ue) (fun _ _ _ _ _ _ _ _ _ => rfl) (fun _ => rfl) s
@[simp] theorem settle_staged (s : State) : s.settle.core.staged = s.core.staged :=
  settle_keeps (fun t => t.core.staged) (fun _ _ _ _ _ _ _ _ _ => rfl) (fun _ => rfl) s
@[simp] theorem settle_late (s : State) : s.settle.core.late = s.core.late :=
  settle_keeps (fun t => t.core.late) (fun _ _ _ _ _ _ _ _ _ => rfl) (fun _ => rfl) s
@[simp] theorem settle_spoilt (s : State) : s.settle.core.spoilt = s.core.spoilt :=
  settle_keeps (fun t => t.core.spoilt) (fun _ _ _ _ _ _ _ _ _ => rfl) (fun _ => rfl) s
@[simp] theorem settle_clean (s : State) : s.settle.core.clean = s.core.clean :=
  settle_keeps (fun t => t.core.clean) (fun _ _ _ _ _ _ _ _ _ => rfl) (fun _ => rfl) s
@[simp] theorem settle_pend (s : State) : s.settle.core.pend = s.core.pend :=
  settle_keeps (fun t => t.core.pend) (fun _ _ _ _ _ _ _ _ _ => rfl) (fun _ => rfl) s
@[simp] theorem settle_pageOut (s : State) : s.settle.core.pageOut = s.core.pageOut :=
  settle_keeps (fun t => t.core.pageOut) (fun _ _ _ _ _ _ _ _ _ => rfl) (fun _ => rfl) s
@[simp] theorem settle_cow (s : State) : s.settle.core.cow = s.core.cow :=
  settle_keeps (fun t => t.core.cow) (fun _ _ _ _ _ _ _ _ _ => rfl) (fun _ => rfl) s
@[simp] theorem settle_scrub (s : State) : s.settle.core.scrub = s.core.scrub :=
  settle_keeps (fun t => t.core.scrub) (fun _ _ _ _ _ _ _ _ _ => rfl) (fun _ => rfl) s
@[simp] theorem settle_scrubAt (s : State) : s.settle.core.scrubAt = s.core.scrubAt :=
  settle_keeps (fun t => t.core.scrubAt) (fun _ _ _ _ _ _ _ _ _ => rfl) (fun _ => rfl) s
@[simp] theorem settle_heldBad (s : State) : s.settle.core.heldBad = s.core.heldBad :=
  settle_keeps (fun t => t.core.heldBad) (fun _ _ _ _ _ _ _ _ _ => rfl) (fun _ => rfl) s
@[simp] theorem settle_reqs (s : State) : s.settle.core.reqs = s.core.reqs :=
  settle_keeps (fun t => t.core.reqs) (fun _ _ _ _ _ _ _ _ _ => rfl) (fun _ => rfl) s
@[simp] theorem settle_lateTags (s : State) : s.settle.core.lateTags = s.core.lateTags :=
  settle_keeps (fun t => t.core.lateTags) (fun _ _ _ _ _ _ _ _ _ => rfl) (fun _ => rfl) s
@[simp] theorem settle_fetched (s : State) : s.settle.core.fetched = s.core.fetched :=
  settle_keeps (fun t => t.core.fetched) (fun _ _ _ _ _ _ _ _ _ => rfl) (fun _ => rfl) s
@[simp] theorem settle_reader (s : State) : s.settle.core.reader = s.core.reader :=
  settle_keeps (fun t => t.core.reader) (fun _ _ _ _ _ _ _ _ _ => rfl) (fun _ => rfl) s
@[simp] theorem settle_want (s : State) : s.settle.core.want = s.core.want :=
  settle_keeps (fun t => t.core.want) (fun _ _ _ _ _ _ _ _ _ => rfl) (fun _ => rfl) s
@[simp] theorem settle_outbox (s : State) : s.settle.core.outbox = s.core.outbox :=
  settle_keeps (fun t => t.core.outbox) (fun _ _ _ _ _ _ _ _ _ => rfl) (fun _ => rfl) s
@[simp] theorem settle_freeCtr (s : State) : s.settle.core.freeCtr = s.core.freeCtr :=
  settle_keeps (fun t => t.core.freeCtr) (fun _ _ _ _ _ _ _ _ _ => rfl) (fun _ => rfl) s
@[simp] theorem settle_nfTotal (s : State) : s.settle.core.nfTotal = s.core.nfTotal :=
  settle_keeps (fun t => t.core.nfTotal) (fun _ _ _ _ _ _ _ _ _ => rfl) (fun _ => rfl) s
@[simp] theorem settle_ddrRanks (s : State) : s.settle.core.ddrRanks = s.core.ddrRanks :=
  settle_keeps (fun t => t.core.ddrRanks) (fun _ _ _ _ _ _ _ _ _ => rfl) (fun _ => rfl) s
@[simp] theorem settle_due (s : State) : s.settle.core.due = s.core.due :=
  settle_keeps (fun t => t.core.due) (fun _ _ _ _ _ _ _ _ _ => rfl) (fun _ => rfl) s
@[simp] theorem settle_ceRows (s : State) : s.settle.core.ceRows = s.core.ceRows :=
  settle_keeps (fun t => t.core.ceRows) (fun _ _ _ _ _ _ _ _ _ => rfl) (fun _ => rfl) s
@[simp] theorem settle_dueRows (s : State) : s.settle.core.dueRows = s.core.dueRows :=
  settle_keeps (fun t => t.core.dueRows) (fun _ _ _ _ _ _ _ _ _ => rfl) (fun _ => rfl) s
@[simp] theorem settle_powered (s : State) : s.settle.pwr.powered = s.pwr.powered :=
  settle_keeps (fun t => t.pwr.powered) (fun _ _ _ _ _ _ _ _ _ => rfl) (fun _ => rfl) s
@[simp] theorem settle_starting (s : State) : s.settle.pwr.starting = s.pwr.starting :=
  settle_keeps (fun t => t.pwr.starting) (fun _ _ _ _ _ _ _ _ _ => rfl) (fun _ => rfl) s
@[simp] theorem settle_fromS4 (s : State) : s.settle.pwr.fromS4 = s.pwr.fromS4 :=
  settle_keeps (fun t => t.pwr.fromS4) (fun _ _ _ _ _ _ _ _ _ => rfl) (fun _ => rfl) s
@[simp] theorem settle_memKept (s : State) : s.settle.pwr.memKept = s.pwr.memKept :=
  settle_keeps (fun t => t.pwr.memKept) (fun _ _ _ _ _ _ _ _ _ => rfl) (fun _ => rfl) s
@[simp] theorem settle_phyCopy (s : State) : s.settle.pwr.phyCopy = s.pwr.phyCopy :=
  settle_keeps (fun t => t.pwr.phyCopy) (fun _ _ _ _ _ _ _ _ _ => rfl) (fun _ => rfl) s
@[simp] theorem settle_tripped (s : State) : s.settle.pwr.tripped = s.pwr.tripped :=
  settle_keeps (fun t => t.pwr.tripped) (fun _ _ _ _ _ _ _ _ _ => rfl) (fun _ => rfl) s
@[simp] theorem settle_change (s : State) : s.settle.pwr.change = s.pwr.change :=
  settle_keeps (fun t => t.pwr.change) (fun _ _ _ _ _ _ _ _ _ => rfl) (fun _ => rfl) s
@[simp] theorem settle_relevel (s : State) : s.settle.pwr.relevel = s.pwr.relevel :=
  settle_keeps (fun t => t.pwr.relevel) (fun _ _ _ _ _ _ _ _ _ => rfl) (fun _ => rfl) s
@[simp] theorem settle_pair (s : State) : s.settle.pwr.pair = s.pwr.pair :=
  settle_keeps (fun t => t.pwr.pair) (fun _ _ _ _ _ _ _ _ _ => rfl) (fun _ => rfl) s
@[simp] theorem settle_pairTo (s : State) : s.settle.pwr.pairTo = s.pwr.pairTo :=
  settle_keeps (fun t => t.pwr.pairTo) (fun _ _ _ _ _ _ _ _ _ => rfl) (fun _ => rfl) s
@[simp] theorem settle_pllPending (s : State) : s.settle.pwr.pllPending = s.pwr.pllPending :=
  settle_keeps (fun t => t.pwr.pllPending) (fun _ _ _ _ _ _ _ _ _ => rfl) (fun _ => rfl) s
@[simp] theorem settle_s4At (s : State) : s.settle.pwr.s4At = s.pwr.s4At :=
  settle_keeps (fun t => t.pwr.s4At) (fun _ _ _ _ _ _ _ _ _ => rfl) (fun _ => rfl) s
@[simp] theorem settle_coolPeriods (s : State) : s.settle.pwr.coolPeriods = s.pwr.coolPeriods :=
  settle_keeps (fun t => t.pwr.coolPeriods) (fun _ _ _ _ _ _ _ _ _ => rfl) (fun _ => rfl) s
@[simp] theorem settle_stretched (s : State) : s.settle.pwr.stretched = s.pwr.stretched :=
  settle_keeps (fun t => t.pwr.stretched) (fun _ _ _ _ _ _ _ _ _ => rfl) (fun _ => rfl) s
@[simp] theorem settle_trims (s : State) : s.settle.pwr.trims = s.pwr.trims :=
  settle_keeps (fun t => t.pwr.trims) (fun _ _ _ _ _ _ _ _ _ => rfl) (fun _ => rfl) s
@[simp] theorem settle_sleepPending (s : State) : s.settle.pwr.sleepPending = s.pwr.sleepPending :=
  settle_keeps (fun t => t.pwr.sleepPending) (fun _ _ _ _ _ _ _ _ _ => rfl) (fun _ => rfl) s
@[simp] theorem settle_doffOutUntil (s : State) : s.settle.pwr.doffOutUntil = s.pwr.doffOutUntil :=
  settle_keeps (fun t => t.pwr.doffOutUntil) (fun _ _ _ _ _ _ _ _ _ => rfl) (fun _ => rfl) s
@[simp] theorem settle_doffThawed (s : State) : s.settle.pwr.doffThawed = s.pwr.doffThawed :=
  settle_keeps (fun t => t.pwr.doffThawed) (fun _ _ _ _ _ _ _ _ _ => rfl) (fun _ => rfl) s
@[simp] theorem settle_lateBlocks (s : State) : s.settle.pwr.lateBlocks = s.pwr.lateBlocks :=
  settle_keeps (fun t => t.pwr.lateBlocks) (fun _ _ _ _ _ _ _ _ _ => rfl) (fun _ => rfl) s
@[simp] theorem settle_keyOp (s : State) : s.settle.pwr.keyOp = s.pwr.keyOp :=
  settle_keeps (fun t => t.pwr.keyOp) (fun _ _ _ _ _ _ _ _ _ => rfl) (fun _ => rfl) s
@[simp] theorem settle_keyQueued (s : State) : s.settle.pwr.keyQueued = s.pwr.keyQueued :=
  settle_keeps (fun t => t.pwr.keyQueued) (fun _ _ _ _ _ _ _ _ _ => rfl) (fun _ => rfl) s
@[simp] theorem settle_epochQueued (s : State) : s.settle.pwr.epochQueued = s.pwr.epochQueued :=
  settle_keeps (fun t => t.pwr.epochQueued) (fun _ _ _ _ _ _ _ _ _ => rfl) (fun _ => rfl) s
@[simp] theorem settle_heldPins (s : State) : s.settle.pwr.heldPins = s.pwr.heldPins :=
  settle_keeps (fun t => t.pwr.heldPins) (fun _ _ _ _ _ _ _ _ _ => rfl) (fun _ => rfl) s
@[simp] theorem settle_target (s : State) : s.settle.pwr.target = s.pwr.target :=
  settle_keeps (fun t => t.pwr.target) (fun _ _ _ _ _ _ _ _ _ => rfl) (fun _ => rfl) s
@[simp] theorem settle_govAt (s : State) : s.settle.pwr.govAt = s.pwr.govAt :=
  settle_keeps (fun t => t.pwr.govAt) (fun _ _ _ _ _ _ _ _ _ => rfl) (fun _ => rfl) s
@[simp] theorem settle_pollAt (s : State) : s.settle.pwr.pollAt = s.pwr.pollAt :=
  settle_keeps (fun t => t.pwr.pollAt) (fun _ _ _ _ _ _ _ _ _ => rfl) (fun _ => rfl) s

/-- The events of a command change no register outside the Doff's own. -/
theorem rd_settle (s : State) (o : Nat) (h : o ∉ doffRegs) : s.settle.core.rd o = s.core.rd o := by
  unfold State.settle
  exact (foldl_keeps (fun t : State => t.core.rd o) _ (fun s e => by split <;> simp [rd_doffTrigger s _ _ o h]) _ _).trans rfl

@[simp] theorem rdByte_settle (s : State) (a : Nat) : s.settle.core.rdByte a = s.core.rdByte a :=
  Core.rdByte_of_same _ _ _ (settle_mem s) (settle_undef s)

end Sys2Proof.Machine
end

