-- ==== Sys2Proof/Laws/Errors.lean ====
section
/-! SUPPORT. What a store to local memory and an error entry leave: every register outside a short list, and the clock. -/

namespace Sys2Proof.Machine

/-- The registers that a store to local memory can change: counters of the copies of R422 and of the uncorrectable errors that they read. -/
def storeRegs : List Nat := [Reg.obsHbmRd, Reg.obsHbmRsv, Reg.hbCowWait, Reg.hbmUe] ++ (List.range 384).map Reg.hbmChStatus

/-- The registers that an entry written to a ring can change, beside its tail. -/
def ringRegs : List Nat := [Reg.obsHbmWr, Reg.obsDdrWr]

/-- The registers that an error entry can change (R107, R398), beside those of its ring. -/
def errRegs : List Nat := ringRegs ++ [Reg.qTail 16383, Reg.qStatus 16383, Reg.errqLost]

/-- A register outside the channels' status registers that is none of the four counters. -/
theorem not_storeRegs (o : Nat) (h : o ∉ [Reg.obsHbmRd, Reg.obsHbmRsv, Reg.hbCowWait, Reg.hbmUe])
    (h' : o < Reg.hbmChStatus 0 ∨ Reg.hbmChStatus 384 ≤ o) : o ∉ storeRegs := by
  intro hm
  rcases List.mem_append.1 hm with hm | hm
  · exact h hm
  · obtain ⟨ch, hc, rfl⟩ := List.mem_map.1 hm
    have := List.mem_range.1 hc
    simp only [Reg.hbmChStatus] at h'
    omega

namespace Core

@[simp] theorem poke_ctl (c : Core) (a : Nat) (bs : List Byte) : (c.poke a bs).ctl = c.ctl := rfl
@[simp] theorem poke_now (c : Core) (a : Nat) (bs : List Byte) : (c.poke a bs).now = c.now := rfl
@[simp] theorem rd_poke (c : Core) (a o : Nat) (bs : List Byte) : (c.poke a bs).rd o = c.rd o := rfl

/-- Equal registers read equal. -/
theorem rd_of_ctl {c d : Core} (h : c.ctl = d.ctl) (o : Nat) : c.rd o = d.rd o := by unfold rd; rw [h]

theorem rd_onReserved (c : Core) (n o : Nat) (h : o ≠ Reg.obsHbmRsv) : (c.onReserved n).rd o = c.rd o := by
  unfold onReserved; split <;> simp [h]

theorem hbmChannel_lt (c : Core) (a : Nat) : c.hbmChannel a < 384 := by
  unfold hbmChannel
  dsimp only
  have h : ∀ n, 0 < n → n ≤ 384 → ∀ x, 32 * (x % n % 12) + x % n / 12 < 384 := fun n h0 h1 x => by
    have := Nat.mod_lt x h0
    omega
  split
  · exact h 360 (by omega) (by omega) _
  · exact h 384 (by omega) (by omega) _

theorem rd_countHbmUe (c : Core) (l o : Nat) (h : o ∉ storeRegs) : (c.countHbmUe l).rd o = c.rd o := by
  have h1 : o ≠ Reg.hbmUe := fun e => h (by rw [e]; simp [storeRegs])
  have h2 : o ≠ Reg.hbmChStatus (c.hbmChannel (l * 64)) := fun e => h (by
    rw [e]; exact List.mem_append_right _ (List.mem_map.2 ⟨_, List.mem_range.2 (c.hbmChannel_lt _), rfl⟩))
  simp [countHbmUe, bumpFld16, h1, h2]

theorem rd_copyPage (c : Core) (pg o : Nat) (h : o ∉ storeRegs) : (c.copyPage pg).rd o = c.rd o := by
  have h1 : o ≠ Reg.obsHbmRd := fun e => h (by rw [e]; simp [storeRegs])
  have h2 : o ≠ Reg.obsHbmRsv := fun e => h (by rw [e]; simp [storeRegs])
  unfold copyPage
  dsimp only
  rw [rd_onReserved _ _ _ h2, foldl_keeps (fun d : Core => d.rd o) _ fun d l => rd_countHbmUe d l o h, rd_bump, if_neg h1]
  rfl

theorem rd_touchPage (c : Core) (a o : Nat) (h : o ∉ storeRegs) : (c.touchPage a).rd o = c.rd o := by
  have h3 : o ≠ Reg.hbCowWait := fun e => h (by rw [e]; simp [storeRegs])
  unfold touchPage
  split
  · show (if c.pagePending a then _ else c : Core).rd o = _
    split
    · rw [rd_bump, if_neg h3]
      exact rd_copyPage c _ o h
    · rfl
  · rfl

theorem touchPage_now (c : Core) (a : Nat) : (c.touchPage a).now = c.now := touchPage_keeps Core.now (fun _ _ _ _ _ _ => rfl) c a

@[simp] theorem rd_makeUndef (c : Core) (a n o : Nat) : (c.makeUndef a n).rd o = c.rd o := by unfold makeUndef; split <;> rfl
@[simp] theorem makeUndef_now (c : Core) (a n : Nat) : (c.makeUndef a n).now = c.now := by unfold makeUndef; split <;> rfl
@[simp] theorem rd_spoil (c : Core) (a n o : Nat) : (c.spoil a n).rd o = c.rd o := by
  unfold spoil
  split
  · rfl
  · exact rd_makeUndef c a n o
@[simp] theorem spoil_now (c : Core) (a n : Nat) : (c.spoil a n).now = c.now := by
  unfold spoil
  split
  · rfl
  · exact makeUndef_now c a n

theorem rd_change (c : Core) (a : Nat) (bs : List Byte) (o : Nat) (h : o ∉ storeRegs) : (c.change a bs).rd o = c.rd o := by
  unfold change
  rw [rd_spoil, rd_poke]
  exact rd_touchPage c a o h

theorem change_now (c : Core) (a : Nat) (bs : List Byte) : (c.change a bs).now = c.now := by
  unfold change
  rw [spoil_now, poke_now]
  exact touchPage_now c a

theorem rd_storeLine (c : Core) (a : Nat) (bs : List Byte) (w : Waiter) (o : Nat) (h : o ∉ storeRegs) :
    (c.storeLine a bs w).1.rd o = c.rd o := by
  unfold storeLine
  split
  · rfl
  · split
    · rfl
    · dsimp only; split <;> exact rd_change c a bs o h

theorem storeLine_now (c : Core) (a : Nat) (bs : List Byte) (w : Waiter) : (c.storeLine a bs w).1.now = c.now := by
  unfold storeLine
  split
  · rfl
  · split
    · rfl
    · dsimp only; split <;> exact change_now c a bs

/-- A store keeps every register but the counters of the copies. -/
theorem rd_store (c : Core) (a : Nat) (bs : List Byte) (w : Waiter) (o : Nat) (h : o ∉ storeRegs) :
    (c.store a bs w).1.rd o = c.rd o :=
  foldl_keeps (fun r : Core × List Nat => r.1.rd o) _ (fun r p => rd_storeLine r.1 p.1 p.2 w o h) _ _

theorem store_now (c : Core) (a : Nat) (bs : List Byte) (w : Waiter) : (c.store a bs w).1.now = c.now :=
  foldl_keeps (fun r : Core × List Nat => r.1.now) _ (fun r p => storeLine_now r.1 p.1 p.2 w) _ _

theorem rd_countServed_wr (c : Core) (a n o : Nat) (h : o ∉ ringRegs) : (c.countServed .wr a n).rd o = c.rd o := by
  simp only [ringRegs, List.mem_cons, List.not_mem_nil, or_false, not_or] at h
  unfold countServed
  split <;> simp_all

theorem countServed_now (c : Core) (k : AccessKind) (a n : Nat) : (c.countServed k a n).now = c.now := by
  unfold countServed
  split <;> simp

/-- An entry written to a ring keeps every register but its tail and the counters of a store. -/
theorem rd_qPush (c : Core) (q : Nat) (e : List Byte) (o : Nat) (h : o ∉ storeRegs) (h' : o ∉ ringRegs) (h'' : o ≠ Reg.qTail q) :
    (c.qPush q e).rd o = c.rd o := by
  unfold qPush
  dsimp only
  rw [rd_setFld, if_neg h'', rd_countServed_wr _ _ _ _ h']
  exact rd_store _ _ _ _ _ h

theorem qPush_now (c : Core) (q : Nat) (e : List Byte) : (c.qPush q e).now = c.now := by
  unfold qPush
  dsimp only
  rw [setFld_now, countServed_now]
  exact store_now _ _ _ _

/-- An error entry keeps every register but the error queue's and the counters of a store. -/
theorem rd_errPush (c : Core) (e : List Byte) (o : Nat) (h : o ∉ storeRegs) (h' : o ∉ errRegs) : (c.errPush e).rd o = c.rd o := by
  have hr : o ∉ ringRegs := fun hm => h' (List.mem_append_left _ hm)
  have h' : o ∉ [Reg.qTail 16383, Reg.qStatus 16383, Reg.errqLost] := fun hm => h' (List.mem_append_right _ hm)
  simp only [List.mem_cons, List.not_mem_nil, or_false, not_or] at h'
  unfold errPush
  generalize hq : (16383 : Nat) = q at *
  dsimp only
  split
  · exact rd_qPush _ _ _ _ h hr h'.1
  · split
    · show ((c.setBit (Reg.qStatus q) 0 true).bumpSat Reg.errqLost 1).rd o = _
      simp [bumpSat, h']
    · show (c.bumpSat Reg.errqLost 1).rd o = _
      simp [bumpSat, h']

theorem errPush_now (c : Core) (e : List Byte) : (c.errPush e).now = c.now := by
  unfold errPush
  generalize (16383 : Nat) = q
  dsimp only
  split
  · exact qPush_now _ _ _
  · split <;> rfl

end Core

end Sys2Proof.Machine
end

