-- ==== Sys2Proof/Laws/Boot.lean ====
section
/-! SUPPORT. Resets and stages: what a stage's beginning, a reset and a failed stage leave. -/

namespace Sys2Proof.Machine

/-! ## A stage begins -/

theorem startStageAt_ne (k : Nat) : Reg.startStatus ≠ Reg.startStageAt k := by
  simp only [Reg.startStatus, Reg.startStageAt]; omega

/-- A stage's beginning changes two registers. -/
theorem rd_beginStage (s : State) (k o : Nat) (h1 : o ≠ Reg.startStatus) (h2 : o ≠ Reg.startStageAt k) :
    (s.beginStage k).core.rd o = s.core.rd o := by simp [State.beginStage, h1, h2]

/-- START_STATUS as a stage's beginning leaves it. -/
theorem rd_beginStage_status (s : State) (k : Nat) :
    (s.beginStage k).core.rd Reg.startStatus = setF (setF (setF (s.core.rd Reg.startStatus) 2 0 k) 3 3 0) 4 4 0 := by
  simp [State.beginStage, startStageAt_ne]

/-- STAGE reads the stage begun. -/
@[simp] theorem stage_beginStage (s : State) (k : Nat) : (s.beginStage k).core.fld Reg.startStatus 2 0 = k % 8 := by
  simp [Core.fld, rd_beginStage_status, getF_setF, getF_setF_other]

/-- The fields of START_STATUS above the flags stay. -/
theorem fld_beginStage (s : State) (k hi lo : Nat) (h : 4 < lo) :
    (s.beginStage k).core.fld Reg.startStatus hi lo = s.core.fld Reg.startStatus hi lo := by
  simp only [Core.fld, rd_beginStage_status]
  rw [getF_setF_other _ _ _ _ _ _ (by omega), getF_setF_other _ _ _ _ _ _ (by omega), getF_setF_other _ _ _ _ _ _ (by omega)]

@[simp] theorem running_beginStage (s : State) (k : Nat) : (s.beginStage k).core.bit Reg.startStatus 3 = false := by
  simp [Core.bit, rd_beginStage_status, getF_setF, getF_setF_other]
@[simp] theorem bare_beginStage (s : State) (k : Nat) : (s.beginStage k).core.bit Reg.startStatus 4 = false := by
  simp [Core.bit, rd_beginStage_status, getF_setF]
@[simp] theorem beginStage_pending (s : State) (k : Nat) : (s.beginStage k).pending = s.pending := rfl
@[simp] theorem beginStage_part (s : State) (k : Nat) : (s.beginStage k).part = s.part := rfl
@[simp] theorem beginStage_pat (s : State) (k : Nat) : (s.beginStage k).pat = s.pat := rfl
@[simp] theorem beginStage_palm (s : State) (k : Nat) : (s.beginStage k).palm = s.palm := rfl
@[simp] theorem beginStage_work (s : State) (k : Nat) : (s.beginStage k).work = s.work := rfl
@[simp] theorem beginStage_links (s : State) (k : Nat) : (s.beginStage k).links = s.links := rfl
@[simp] theorem beginStage_now (s : State) (k : Nat) : (s.beginStage k).core.now = s.core.now := rfl
@[simp] theorem beginStage_mem (s : State) (k : Nat) : (s.beginStage k).core.mem = s.core.mem := rfl
@[simp] theorem beginStage_undef (s : State) (k : Nat) : (s.beginStage k).core.undef = s.core.undef := rfl
@[simp] theorem beginStage_starting (s : State) (k : Nat) : (s.beginStage k).pwr.starting = true := rfl
@[simp] theorem beginStage_powered (s : State) (k : Nat) : (s.beginStage k).pwr.powered = s.pwr.powered := rfl
@[simp] theorem beginStage_tripped (s : State) (k : Nat) : (s.beginStage k).pwr.tripped = s.pwr.tripped := rfl
@[simp] theorem beginStage_memKept (s : State) (k : Nat) : (s.beginStage k).pwr.memKept = s.pwr.memKept := rfl
@[simp] theorem rdByte_beginStage (s : State) (k a : Nat) : (s.beginStage k).core.rdByte a = s.core.rdByte a := rfl

/-! ## A checkpoint or restore abandoned -/

@[simp] theorem hbAbort_pending (s : State) : s.hbAbort.pending = s.pending := by unfold State.hbAbort; split <;> rfl
@[simp] theorem hbAbort_part (s : State) : s.hbAbort.part = s.part := by unfold State.hbAbort; split <;> rfl
@[simp] theorem hbAbort_pwr (s : State) : s.hbAbort.pwr = s.pwr := by unfold State.hbAbort; split <;> rfl
@[simp] theorem hbAbort_now (s : State) : s.hbAbort.core.now = s.core.now := by
  unfold State.hbAbort
  split
  · rfl
  · exact Core.errPush_now _ _

/-- The registers that the end of a checkpoint can change, beside those of its error entry. -/
def hbRegs : List Nat := [Reg.hbStatus, Reg.hbCtrl]

theorem rd_hbAbort (s : State) (o : Nat) (h : o ∉ storeRegs) (h' : o ∉ errRegs) (hb : o ∉ hbRegs) :
    s.hbAbort.core.rd o = s.core.rd o := by
  simp only [hbRegs, List.mem_cons, List.not_mem_nil, or_false, not_or] at hb
  unfold State.hbAbort
  split
  · rfl
  · refine (Core.rd_errPush _ _ _ h h').trans ?_
    simp only [State.hbDrop, Core.hbEnd, Core.rd_setBit, Core.rd_setFld, if_neg hb.1, if_neg hb.2]
    rfl

/-- A reset that finds no checkpoint and no restore changes nothing before the rest is lost. -/
theorem hbAbort_idle (s : State) (h : s.core.fld Reg.hbStatus 2 0 = 0) : s.hbAbort = s := if_pos h

/-! ## A reset loses the rest -/

@[simp] theorem lose_pending (s : State) (b : Bool) : (s.lose b).pending = s.pending := by unfold State.lose; cases b <;> simp
@[simp] theorem lose_part (s : State) (b : Bool) : (s.lose b).part = s.part := by unfold State.lose; cases b <;> simp
@[simp] theorem lose_palm (s : State) (b : Bool) : (s.lose b).palm = [] := rfl
@[simp] theorem lose_work (s : State) (b : Bool) : (s.lose b).work = Work.initial := rfl
@[simp] theorem lose_now (s : State) (b : Bool) : (s.lose b).core.now = if b then 0 else s.core.now := by
  unfold State.lose Core.reset; cases b <;> simp
@[simp] theorem lose_powered (s : State) (b : Bool) : (s.lose b).pwr.powered = true := rfl
@[simp] theorem lose_starting (s : State) (b : Bool) : (s.lose b).pwr.starting = false := rfl

theorem lose_mem (s : State) (b : Bool) (h : b = true ∨ s.core.fld Reg.hbStatus 2 0 = 0) :
    (s.lose b).core.mem = s.core.zeroSram.mem := by
  unfold State.lose
  rcases h with rfl | h
  · rfl
  · cases b <;> simp [hbAbort_idle s h, Core.reset]
theorem lose_undef (s : State) (b : Bool) (h : b = true ∨ s.core.fld Reg.hbStatus 2 0 = 0) :
    (s.lose b).core.undef = s.core.zeroSram.undef := by
  unfold State.lose
  rcases h with rfl | h
  · rfl
  · cases b <;> simp [hbAbort_idle s h, Core.reset]

/-- RST_CAUSE survives a reset. -/
@[simp] theorem rd_lose_cause (s : State) (b : Bool) : (s.lose b).core.rd Reg.rstCause = s.core.rd Reg.rstCause := by
  have h : Reg.rstCause ≠ Reg.startStatus := by decide
  have hb : Reg.rstCause ≠ Reg.hbStatus := by decide
  have ha : s.hbAbort.core.rd Reg.rstCause = s.core.rd Reg.rstCause := rd_hbAbort s _ (not_storeRegs _ (by decide) (by decide)) (by decide) (by decide)
  unfold State.lose
  dsimp only
  rw [Core.rd_wr, if_neg hb]
  simp only [Core.reset, Core.rd, aonCtl, sGet_sPut_ne _ _ _ _ h]
  rw [sGet_filter fun k => k == Reg.rstCause || (!b && decide (Reg.residS 0 ≤ k) && decide (k ≤ Reg.residPl 7))]
  cases b
  · simpa [Core.rd] using ha
  · simp

/-- Of START_STATUS a reset keeps the failure count, stage and code. -/
theorem rd_lose_status (s : State) (b : Bool) :
    (s.lose b).core.rd Reg.startStatus = s.core.rd Reg.startStatus &&& 0x00FF_FF60 := by
  have hb : Reg.startStatus ≠ Reg.hbStatus := by decide
  have ha : s.hbAbort.core.rd Reg.startStatus = s.core.rd Reg.startStatus := rd_hbAbort s _ (not_storeRegs _ (by decide) (by decide)) (by decide) (by decide)
  unfold State.lose
  dsimp only
  rw [Core.rd_wr, if_neg hb]
  cases b
  · rw [← ha]; simp only [Core.reset, Core.rd, aonCtl, sGet_sPut, if_true]; rfl
  · simp only [Core.reset, Core.rd, aonCtl, sGet_sPut, if_true]

@[simp] theorem failCount_lose (s : State) (b : Bool) :
    (s.lose b).core.fld Reg.startStatus 6 5 = s.core.fld Reg.startStatus 6 5 := by
  simp only [Core.fld, rd_lose_status]; exact getF_and_ones _ _ _ _ (by decide)
@[simp] theorem failStage_lose (s : State) (b : Bool) :
    (s.lose b).core.fld Reg.startStatus 15 8 = s.core.fld Reg.startStatus 15 8 := by
  simp only [Core.fld, rd_lose_status]; exact getF_and_ones _ _ _ _ (by decide)
@[simp] theorem failCode_lose (s : State) (b : Bool) :
    (s.lose b).core.fld Reg.startStatus 23 16 = s.core.fld Reg.startStatus 23 16 := by
  simp only [Core.fld, rd_lose_status]; exact getF_and_ones _ _ _ _ (by decide)

/-! ## A failed stage -/

/-- What a failure notes in START_STATUS. -/
theorem fld_noteFail (c : Core) (stage code : Nat) :
    (c.noteFail stage code).fld Reg.startStatus 6 5 = min (c.fld Reg.startStatus 6 5 + 1) 3 ∧
    (c.noteFail stage code).fld Reg.startStatus 15 8 = stage % 256 ∧
    (c.noteFail stage code).fld Reg.startStatus 23 16 = code % 256 ∧
    (c.noteFail stage code).fld Reg.startStatus 2 0 = c.fld Reg.startStatus 2 0 := by
  have h : min (getF (c.rd Reg.startStatus) 6 5 + 1) 3 % 4 = min (getF (c.rd Reg.startStatus) 6 5 + 1) 3 :=
    Nat.mod_eq_of_lt (by omega)
  simp [Core.noteFail, Core.fld, getF_setF, getF_setF_other, h]

theorem rd_noteFail (c : Core) (stage code o : Nat) (h : o ≠ Reg.startStatus) : (c.noteFail stage code).rd o = c.rd o := by
  simp [Core.noteFail, h]

/-- A failure before the third restarts the module from B1 (R463). -/
theorem stageFail_restart (s : State) (code : Nat) (h : s.core.fld Reg.startStatus 6 5 < 2) :
    ∃ u : State, s.stageFail code = (({ u.lose false with core := (u.lose false).core.cause 5 } : State)).beginStage 1 ∧
      u = { s with core := s.core.noteFail (s.core.fld Reg.startStatus 2 0) code } := by
  refine ⟨_, ?_, rfl⟩
  have := (fld_noteFail s.core (s.core.fld Reg.startStatus 2 0) code).1
  simp only [State.stageFail, this]
  rw [if_pos (by omega)]

/-- The third failure enters Bare mode (R463). -/
theorem stageFail_bare (s : State) (code : Nat) (h : 2 ≤ s.core.fld Reg.startStatus 6 5) :
    s.stageFail code = ({ s with core := s.core.noteFail (s.core.fld Reg.startStatus 2 0) code } : State).enterBare := by
  have := (fld_noteFail s.core (s.core.fld Reg.startStatus 2 0) code).1
  simp only [State.stageFail, this]
  rw [if_neg (by omega)]

end Sys2Proof.Machine
end

