-- ==== Sys2Proof/Laws/Fetch.lean ====
section
/-! SUPPORT. What a stage of an engine's work asks of other modules (R76): reads ask; writes, counts and error entries never do, so a
drain that reads no operand asks for nothing. -/

namespace Sys2Proof.Machine

namespace Core

@[simp] theorem onReserved_want (c : Core) (n : Nat) : (c.onReserved n).want = c.want := by unfold onReserved; split <;> simp

@[simp] theorem touchPage_want (c : Core) (a : Nat) : (c.touchPage a).want = c.want :=
  touchPage_keeps Core.want (fun _ _ _ _ _ _ => rfl) c a

@[simp] theorem makeUndef_want (c : Core) (a n : Nat) : (c.makeUndef a n).want = c.want := by
  obtain ⟨u, fc, e⟩ := c.makeUndef_eq a n; rw [e]

@[simp] theorem scramble_want (c : Core) (a n : Nat) : (c.scramble a n).want = c.want := by
  unfold scramble
  split
  · rfl
  · rw [makeUndef_want]; exact touchRange_keeps Core.want (fun _ _ _ _ _ _ => rfl) c a n

@[simp] theorem change_want (c : Core) (a : Nat) (bs : List Byte) : (c.change a bs).want = c.want := by
  unfold change
  obtain ⟨u, fc, sp, e⟩ := ((c.touchPage a).poke a bs).spoil_eq a bs.length
  rw [e]
  exact touchPage_want c a

@[simp] theorem storeLine_want (c : Core) (a : Nat) (bs : List Byte) (w : Waiter) : (c.storeLine a bs w).1.want = c.want := by
  unfold storeLine
  repeat' split
  all_goals simp

@[simp] theorem store_want (c : Core) (a : Nat) (bs : List Byte) (w : Waiter) : (c.store a bs w).1.want = c.want := by
  unfold store
  exact foldl_keeps (fun p : Core × List Nat => p.1.want) _ (fun _ _ => by simp) _ _

@[simp] theorem countServed_want (c : Core) (k : AccessKind) (a n : Nat) : (c.countServed k a n).want = c.want := by
  unfold countServed; split <;> simp

@[simp] theorem countAccess_want (c : Core) (t p : Nat) (k : AccessKind) (ga n : Nat) : (c.countAccess t p k ga n).want = c.want := by
  unfold countAccess
  repeat' split
  all_goals simp

@[simp] theorem rowDue_want (c : Core) (d k : Nat) : (c.rowDue d k).want = c.want := by
  unfold rowDue addDue
  repeat' split
  all_goals simp

@[simp] theorem countMemErr_want (c : Core) (a : Nat) (ue : Bool) : (c.countMemErr a ue).want = c.want := by
  unfold countMemErr
  repeat' split
  all_goals simp [apply_ite Core.want]

@[simp] theorem request_want (c : Core) (dest cls : Nat) (w : Waiter) (mk : Nat → List Byte) :
    (c.request dest cls w mk).want = c.want := by unfold request; split <;> rfl

@[simp] theorem remoteWrite_want (c : Core) (ga : Nat) (bs : List Byte) (w : Waiter) : (c.remoteWrite ga bs w).want = c.want := by
  unfold remoteWrite; exact foldl_keeps Core.want _ (fun _ _ => by simp) _ _

@[simp] theorem writeG_want (c : Core) (t p ga : Nat) (bs : List Byte) (w : Waiter) : (c.writeG t p ga bs w).core.want = c.want := by
  simp [writeG, apply_ite WriteEnd.core, apply_ite Core.want]

@[simp] theorem qPush_want (c : Core) (q : Nat) (e : List Byte) : (c.qPush q e).want = c.want := by simp [qPush, write, countServed_want]

@[simp] theorem errPush_want (c : Core) (e : List Byte) : (c.errPush e).want = c.want := by
  simp [errPush, bumpSat, apply_ite Core.want]

@[simp] theorem numEvent_want (c : Core) (e : ErrInfo) (v : Nat) (x : Lane) (a b f u g : Nat) :
    (c.numEvent e v x a b f u g).want = c.want := by simp [numEvent, err]

@[simp] theorem countLadder_want (c : Core) (r : Narrowed) : (c.countLadder r).want = c.want := by
  unfold countLadder
  repeat' split
  all_goals simp

@[simp] theorem finishBlock_want (c : Core) (t p ctrl kind code addr : Nat) (e : ErrInfo) (r : Narrowed) (xs : List Lane) (w : Waiter) :
    (c.finishBlock t p ctrl kind code addr e r xs w).core.want = c.want := by
  unfold finishBlock
  repeat' split
  all_goals simp [apply_ite BlockEnd.core, apply_ite Core.want]

@[simp] theorem checkUnit_want (c : Core) (ctrl th kind tid step u addr : Nat) (e : ErrInfo) (xs : List (Lane × Lane)) :
    (c.checkUnit ctrl th kind tid step u addr e xs).want = c.want := by
  unfold checkUnit
  repeat' split
  all_goals simp [apply_ite Core.want]

end Core

namespace State

@[simp] theorem strike_want (s : State) (id c a r : Nat) : (s.strike id c a r).core.want = s.core.want := rfl

@[simp] theorem meetUe_want (s : State) (id r : Nat) (bad : List Nat) : (s.meetUe id r bad).core.want = s.core.want := by
  unfold meetUe
  split
  · rfl
  · exact foldl_keeps Core.want _ (fun _ _ => by simp) _ _

@[simp] theorem putOne_want (s : State) (id t p r : Nat) (w : Nat × List Byte) : (s.putOne id t p r w).core.want = s.core.want := by
  unfold putOne
  simp [updDesc, apply_ite State.core, apply_ite Core.want]

@[simp] theorem writeOne_want (s : State) (id t p r : Nat) (w : Nat × List Byte) : (s.writeOne id t p r w).core.want = s.core.want := by
  unfold writeOne; split <;> simp

@[simp] theorem writeFor_want (s : State) (id t p r : Nat) (ws : List (Nat × List Byte)) :
    (s.writeFor id t p r ws).core.want = s.core.want := by
  unfold writeFor; exact foldl_keeps (fun s : State => s.core.want) _ (fun _ _ => by simp) _ _

@[simp] theorem writeEls_want (s : State) (id t p r : Nat) (els : List OutEl) : (s.writeEls id t p r els).core.want = s.core.want := by
  simp [writeEls]

@[simp] theorem narrowRun_want (s : State) (d : Desc) (t : Tensor) (tile kind r : Nat) (cells : List (List Nat × Lane)) :
    (s.narrowRun d t tile kind r cells).1.core.want = s.core.want := by
  unfold narrowRun
  exact foldl_keeps (fun p : State × List OutEl × List (List Nat × Lane × Lane) => p.1.core.want) _ (fun _ _ => by simp [updDesc]) _ _

/-- The end of a share asks for nothing. -/
@[simp] theorem shareEnd_want (s : State) (d : Desc) (h : Share) : (s.shareEnd d h).core.want = s.core.want := by
  have mix : ∀ (s : State) (us : List Nat), (s.areaMix us).core.want = s.core.want := fun s us => by
    unfold areaMix
    refine (foldl_keeps (fun s : State => s.core.want) _ (fun _ _ => ?_) _ _).trans (foldl_keeps Core.want _ (fun _ _ => by simp) _ _)
    split <;> rfl
  have rel : ∀ s : State, (s.releaseArea d).core.want = s.core.want := fun s => by
    unfold releaseArea showReserved
    exact (foldl_keeps Core.want _ (fun _ _ => by simp) _ _).trans (mix s _)
  have done : ∀ s : State, (s.sharesDone d).core.want = s.core.want := fun s => by
    unfold sharesDone
    dsimp only
    split
    · exact rel s
    · split
      · split <;> exact rel s
      · exact rel s
  unfold shareEnd
  split
  · dsimp only; rw [done]; split <;> simp [onCore, dropShare]
  · rfl

/-- A drain that reads neither a pre-activation, nor positions, nor an existing output asks for nothing. -/
theorem drainEnd_want (s : State) (d : Desc) (h : Share) (a : AccTile) (h1 : d.readsOld = false)
    (h2 : (s.tensor d h.out).mask = false) (h3 : (d.opcode == 2 && d.argF 3 0 != 0) = false) :
    (s.drainEnd d h a).core.want = s.core.want := by
  unfold drainEnd drainTile drainReads
  rw [shareEnd_want]
  simp only [putShare, h1, h2, h3, Bool.false_eq_true, ↓reduceIte, onCore, Core.fresh]
  repeat' split
  all_goals simp

/-- Such a drain takes effect at once unless requests of its descriptor are out. -/
theorem drain_mayRun (s : State) (d : Desc) (h : Share) (a : AccTile) (hw : s.works d = true)
    (hf : s.core.fetching (.desc d.id) = false) (h1 : d.readsOld = false) (h2 : (s.tensor d h.out).mask = false)
    (h3 : (d.opcode == 2 && d.argF 3 0 != 0) = false) : s.mayRun d (fun s => s.drainEnd d h a) :=
  ⟨hw, hf, drainEnd_want _ d h a h1 h2 h3⟩

/-- Before MODULE_NO is set a read asks for nothing: it strikes ADDR_RANGE (R77). -/
theorem readOne_unset (s : State) (id t p r : Nat) (x : Nat × Nat) (h : s.core.isSet = false) :
    (s.readOne id t p r x).core = s.core.bump (Reg.tcntRemoteRd t) x.2 ∧ (s.readOne id t p r x).core.isSet = false := by
  have e1 : s.core.countAccess t p .rd x.1 x.2 = s.core.bump (Reg.tcntRemoteRd t) x.2 := by
    unfold Core.countAccess
    rw [if_neg (by simp [Core.isLocal, h])]
  have e2 : (s.core.bump (Reg.tcntRemoteRd t) x.2).isSet = false := by
    have hm : Reg.moduleNo ≠ Reg.tcntRemoteRd t := fun hm =>
      absurd (show (8 : Nat) = 0x8000000 + t * 0x10000 + (0x6000 + 0x40) from hm) (by omega)
    unfold Core.isSet Core.bit at *
    rw [Core.rd_bump, if_neg hm]
    exact h
  have e3 : (s.readOne id t p r x).core = s.core.bump (Reg.tcntRemoteRd t) x.2 := by
    unfold readOne
    rw [e1, if_neg (by simp [Core.isLocal, e2]), if_pos (by simp [e2])]
    rfl
  exact ⟨e3, e3 ▸ e2⟩

theorem readFor_unset_want (s : State) (id t p r : Nat) (rs : List (Nat × Nat)) (h : s.core.isSet = false) :
    (s.readFor id t p r rs).core.want = s.core.want :=
  (foldl_holds (fun u : State => u.core.isSet = false ∧ u.core.want = s.core.want) _
    (fun u x hu => ⟨(readOne_unset u id t p r x hu.1).2, by rw [(readOne_unset u id t p r x hu.1).1]; exact hu.2⟩) rs s ⟨h, rfl⟩).2

@[simp] theorem throughBufs_core (s : State) (t per : Nat) (els : List (Option Held)) : (s.throughBufs t per els).core = s.core := by
  exact foldl_keeps State.core (fun s k => s.putBufs (((s.bufsOf t).fill ((els.drop (per * k)).take per)).empty).2) (fun _ _ => rfl) _ _

/-- Where no shared fill is planned, an operand is read part by part. -/
theorem readOperand_plain (s : State) (d : Desc) (tile i : Nat) (is : List (List Nat)) (h : (s.work.fills.filter fun f => f.desc == d.id) = []) :
    s.readOperand d tile i is = s.readFor d.id tile 0 i ((s.tensor d i).reads is) := by
  simp only [readOperand, sendFills, h]
  have e : is.filter (fun _ => true) = is := List.filter_eq_self.2 fun _ _ => rfl
  simp [e]

/-- A part of a permute asks for its source alone. -/
theorem permutePart_want (s : State) (d : Desc) (j : CuffJob) (is : List (List Nat)) (h1 : d.opcode = 0x21) (h2 : d.copyAlias = false)
    (h3 : (s.work.fills.filter fun f => f.desc == d.id) = []) :
    (s.copyPart d j is).core.want = (s.readFor d.id j.tile 0 0 ((s.tensor d 0).reads (d.sources is))).core.want := by
  unfold copyPart countCopy
  simp [h1, h2, Core.fresh, readOperand_plain s d j.tile 0 _ h3]

/-- A step of a transpose in place, before its last, asks for the tile pair that it exchanges. -/
theorem turnStep_want (s : State) (d : Desc) (j : CuffJob) (p : Nat × Nat) (h1 : d.opcode = 0x21) (h2 : d.inPlace = true)
    (h3 : j.done + 1 < s.jobSteps d j) (h4 : (d.tilePairs (s.dest d) j)[j.done]? = some p) (h5 : d.copyAlias = false)
    (h6 : (s.work.fills.filter fun f => f.desc == d.id) = []) :
    (s.runJob d j).core.want = ((s.setPhase d.id .running).readFor d.id j.tile 0 0
      ((s.tensor d 0).reads (d.sources ((s.dest d).pairAll j p)))).core.want := by
  unfold runJob
  simp only [h1, h3, ↓reduceIte]
  unfold copyJob
  simp only [h2, ↓reduceIte]
  rw [show (d.tilePairs ((s.setPhase d.id .running).dest d) j)[j.done]? = some p from h4]
  exact permutePart_want (s.setPhase d.id .running) d j _ h1 h5 h6

end State
end Sys2Proof.Machine
end

