-- ==== Sys2Proof/Laws/Flash.lean ====
section
/-! SUPPORT. What a range of flash reads after bytes were programmed (R35). -/

namespace Sys2Proof.Machine

/-- A flash byte after bytes were programmed from an offset. -/
theorem sGet_flashPut (fl : List Host.Cell) (a : Nat) (bs : List Byte) (k : Nat) :
    sGet (flashPut fl a bs) k 0xFF = if a ≤ k ∧ k < a + bs.length then bs.getD (k - a) 0xFF else sGet fl k 0xFF := by
  induction bs generalizing fl a with
  | nil =>
    have h : ¬ (a ≤ k ∧ k < a + ([] : List Byte).length) := by simp only [List.length_nil]; omega
    rw [if_neg h]; rfl
  | cons x r ih =>
    rw [flashPut, ih, sGet_sPut, List.length_cons]
    by_cases h1 : k = a
    · subst h1
      have h2 : ¬ (k + 1 ≤ k ∧ k < k + 1 + r.length) := by omega
      have h3 : k ≤ k ∧ k < k + (r.length + 1) := by omega
      rw [if_neg h2, if_pos rfl, if_pos h3, Nat.sub_self]; rfl
    · by_cases h2 : a + 1 ≤ k ∧ k < a + 1 + r.length
      · have h3 : a ≤ k ∧ k < a + (r.length + 1) := by omega
        have h4 : k - a = (k - (a + 1)) + 1 := by omega
        rw [if_pos h2, if_pos h3, h4]; rfl
      · have h3 : ¬ (a ≤ k ∧ k < a + (r.length + 1)) := by omega
        rw [if_neg h2, if_neg h1, if_neg h3]

/-- A range reads what was programmed at it. -/
theorem flashBytes_put (fl : List Host.Cell) (a n : Nat) (bs : List Byte) (h : bs.length = n) :
    flashBytes (flashPut fl a bs) a n = bs := by
  apply List.ext_getElem
  · simp [flashBytes, h]
  · intro i h1 h2
    have h3 : a ≤ a + i ∧ a + i < a + bs.length := by omega
    simp only [flashBytes, List.getElem_map, List.getElem_range, sGet_flashPut]
    rw [if_pos h3, Nat.add_sub_cancel_left, List.getD_eq_getElem?_getD, List.getElem?_eq_getElem h2]; rfl

/-- A range apart from what was programmed reads as before. -/
theorem flashBytes_apart (fl : List Host.Cell) (a b n : Nat) (bs : List Byte) (h : b + n ≤ a ∨ a + bs.length ≤ b) :
    flashBytes (flashPut fl a bs) b n = flashBytes fl b n := by
  unfold flashBytes
  apply List.map_congr_left
  intro i hi
  have hi' := List.mem_range.mp hi
  have h3 : ¬ (a ≤ b + i ∧ b + i < a + bs.length) := by omega
  rw [sGet_flashPut, if_neg h3]

/-- The first bytes of a range. -/
theorem flashBytes_take (fl : List Host.Cell) (a m n : Nat) (h : m ≤ n) : flashBytes fl a m = (flashBytes fl a n).take m := by
  unfold flashBytes
  rw [← List.map_take, List.take_range, Nat.min_eq_left h]

end Sys2Proof.Machine
end

