-- ==== Sys2Proof/Laws/Memory.lean ====
section
/-! SUPPORT. Memory: what a byte reads after bytes are stored or a range made undefined, and that every memory operation of
Machine/Ops.lean keeps the canonical form. -/

namespace Sys2Proof.Machine

/-! ## Undefined ranges -/

/-- What an undefined range gives a byte: its counter and whether the range is cold. -/
def undefKey (l : List Undef) (a : Nat) : Option (Nat × Bool) := (undefAt l a).map fun u => (u.ctr, u.cold)

theorem undefKey_cons (u : Undef) (l : List Undef) (a : Nat) :
    undefKey (u :: l) a = if u.covers a then some (u.ctr, u.cold) else undefKey l a := by
  simp only [undefKey, undefAt, List.find?_cons]
  cases h : u.covers a <;> simp

/-- A range covers the addresses between its bounds that its stripe has. -/
theorem covers_iff (u : Undef) (a : Nat) :
    u.covers a = true ↔ u.lo ≤ a ∧ a < u.hi ∧ (u.stripe.all fun t => t.has a) = true := by
  simp [Undef.covers, and_assoc]

theorem undefKey_append (l m : List Undef) (a : Nat) :
    undefKey (l ++ m) a = (undefKey l a).or (undefKey m a) := by
  induction l with
  | nil => simp [undefKey, undefAt]
  | cons u r ih => rw [List.cons_append, undefKey_cons, undefKey_cons, ih]; split <;> simp

/-- A cut range gives nothing; elsewhere a cut changes nothing. -/
theorem undefKey_cut (l : List Undef) (lo hi a : Nat) :
    undefKey (undefCut l lo hi) a = if lo ≤ a ∧ a < hi then none else undefKey l a := by
  induction l with
  | nil => simp [undefCut, undefKey, undefAt]
  | cons u r ih =>
    have hc : undefCut (u :: r) lo hi =
        (if u.hi ≤ lo ∨ hi ≤ u.lo then [u]
          else (if u.lo < lo then [{ u with hi := lo }] else []) ++ (if hi < u.hi then [{ u with lo := hi }] else [])) ++
        undefCut r lo hi := rfl
    have hn : undefKey [] a = none := rfl
    rw [hc, undefKey_append, ih, undefKey_cons]
    by_cases h1 : u.hi ≤ lo ∨ hi ≤ u.lo
    · rw [if_pos h1, undefKey_cons, hn]
      by_cases h2 : u.covers a = true
      · have : ¬ (lo ≤ a ∧ a < hi) := by have := (covers_iff u a).1 h2; omega
        simp [h2, this]
      · simp [h2]
    · rw [if_neg h1]
      cases hp : u.stripe.all fun t => t.has a <;> by_cases h3 : u.lo < lo <;> by_cases h4 : hi < u.hi <;>
        simp only [h3, h4, hp, if_true, if_false, undefKey_append, undefKey_cons, hn, covers_iff, and_true, and_false,
          Bool.false_eq_true] <;>
        (repeat' split) <;> first | omega | simp

theorem rdByte_eq (c : Core) (a : Nat) :
    c.rdByte a = match undefKey c.undef a with
      | some p => Config.freeByte p.1 a
      | none => sGet c.mem a 0 := by
  unfold Core.rdByte undefKey
  cases undefAt c.undef a <;> rfl

/-! ## Bytes stored -/

theorem sGet_putBytes (m : List Host.Cell) (a : Nat) (bs : List Byte) (b : Nat) :
    sGet (putBytes m a bs) b 0 = if a ≤ b ∧ b < a + bs.length then bs.getD (b - a) 0 else sGet m b 0 := by
  induction bs generalizing m a with
  | nil =>
    have h : ¬ (a ≤ b ∧ b < a + ([] : List Byte).length) := by simp only [List.length_nil]; omega
    rw [if_neg h]; rfl
  | cons x r ih =>
    rw [putBytes, ih, sGet_sPut, List.length_cons]
    by_cases h1 : b = a
    · subst h1
      have h2 : ¬ (b + 1 ≤ b ∧ b < b + 1 + r.length) := by omega
      have h3 : b ≤ b ∧ b < b + (r.length + 1) := by omega
      rw [if_neg h2, if_pos rfl, if_pos h3, Nat.sub_self]; rfl
    · by_cases h2 : a + 1 ≤ b ∧ b < a + 1 + r.length
      · have h3 : a ≤ b ∧ b < a + (r.length + 1) := by omega
        have h4 : b - a = (b - (a + 1)) + 1 := by omega
        rw [if_pos h2, if_pos h3, h4]; rfl
      · have h3 : ¬ (a ≤ b ∧ b < a + (r.length + 1)) := by omega
        rw [if_neg h2, if_neg h1, if_neg h3]

/-- A byte after bytes were put into memory. -/
theorem rdByte_poke (c : Core) (a : Nat) (bs : List Byte) (b : Nat) :
    (c.poke a bs).rdByte b = if a ≤ b ∧ b < a + bs.length then bs.getD (b - a) 0 else c.rdByte b := by
  rw [rdByte_eq, rdByte_eq]
  simp only [Core.poke, undefKey_cut, sGet_putBytes]
  by_cases h : a ≤ b ∧ b < a + bs.length <;> simp [h]

/-- A byte after a reset's zeroing of SRAM. -/
theorem rdByte_zeroSram (c : Core) (a : Nat) :
    c.zeroSram.rdByte a = if 0x400_0000_0000 ≤ a ∧ a < 0x7F0_0000_0000 then 0 else c.rdByte a := by
  rw [rdByte_eq, rdByte_eq]
  simp only [Core.zeroSram, undefKey_cut]
  rw [sGet_filter fun k => decide (k < 0x400_0000_0000) || decide (0x7F0_0000_0000 ≤ k)]
  by_cases h : 0x400_0000_0000 ≤ a ∧ a < 0x7F0_0000_0000
  · have : (decide (a < 0x400_0000_0000) || decide (0x7F0_0000_0000 ≤ a)) = false := by simp; omega
    simp only [h, this, and_self, if_true, Bool.false_eq_true, if_false]
  · have : (decide (a < 0x400_0000_0000) || decide (0x7F0_0000_0000 ≤ a)) = true := by simp; omega
    simp only [h, this, if_true, if_false]

/-! ## The canonical form -/

theorem wf_putBytes (m : List Host.Cell) (a : Nat) (bs : List Byte) (h : Memory.wf m = true) : Memory.wf (putBytes m a bs) = true := by
  induction bs generalizing m a with
  | nil => exact h
  | cons x r ih => exact ih _ _ (sWf_sPut a x h)

theorem wf_poke (c : Core) (a : Nat) (bs : List Byte) (h : Memory.wf c.mem = true) : Memory.wf (c.poke a bs).mem = true :=
  wf_putBytes _ _ _ h

theorem wf_zeroSram (c : Core) (h : Memory.wf c.mem = true) : Memory.wf c.zeroSram.mem = true := sWf_filter _ h

@[simp] theorem Core.touchPage_mem (c : Core) (a : Nat) : (c.touchPage a).mem = c.mem := Core.touchPage_keeps Core.mem (fun _ _ _ _ _ _ => rfl) c a
@[simp] theorem Core.touchRange_mem (c : Core) (a n : Nat) : (c.touchRange a n).mem = c.mem :=
  Core.touchRange_keeps Core.mem (fun _ _ _ _ _ _ => rfl) c a n
@[simp] theorem Core.makeUndef_mem (c : Core) (a n : Nat) : (c.makeUndef a n).mem = c.mem := by unfold Core.makeUndef; split <;> rfl
@[simp] theorem Core.scramble_mem (c : Core) (a n : Nat) : (c.scramble a n).mem = c.mem := by unfold Core.scramble; split <;> simp

theorem wf_loseMemory (c : Core) (h : Memory.wf c.mem = true) : Memory.wf c.loseMemory.mem = true := sWf_filter _ h

end Sys2Proof.Machine
end

