-- ==== Sys2Proof/WellFormed.lean ====
section
/-! DEFINITION. Which commands are well formed: every operand in the range that the spec gives it. The effect of a command is total; these
ranges say which commands the module's surroundings can send. -/

namespace Sys2Proof

/-- A tile of the module and a context of it (R73): at most 88 active tiles with 64 contexts each. -/
def ctxOk (t n : Nat) : Bool := decide (t < 88) && decide (n < 64)

/-- Every byte count of an Ethernet frame that a port can receive is at least a header (R364). -/
def ethOk (p : Nat) (bytes : List Byte) : Bool := decide (p < 2) && decide (14 ≤ bytes.length)

/-- A Quiras frame on one of the 12 links: 48 header bits, a 16-bit CRC and 256 payload bytes (R374, R375). -/
def frameOk (l : Nat) (f : QFrame) : Bool :=
  decide (l < 12) && decide (f.hdr < 2 ^ 48) && decide (f.crc < 2 ^ 16) && decide (f.payload.length = 256)

/-- An address of the 44-bit local space at a 64-byte line (R78, R316). -/
def lineOk (addr : Nat) : Bool := decide (addr < 2 ^ 44) && decide (addr % 64 = 0)

/-- The populations of at most two DIMMs in each of 16 DDR channels, and channels that exist (R314). -/
def Training.wf (t : Training) : Bool :=
  decide (t.dimms.length = 16) && t.dimms.all (fun ds => decide (ds.length ≤ 2)) &&
  (t.hbmFail.all fun f => decide (1 ≤ f.1) && decide (f.1 ≤ 2) && decide (f.2 < 384)) && (t.ddrFail.all fun d => decide (d < 16))

/-- A rail number of R447. -/
def PmbusAnswer.wf : PmbusAnswer → Bool
  | .good => true
  | .failed rail cmd => decide (rail < 6) && decide (cmd < 256)

/-- A store to the control space (R12, R79): 4 or 8 bytes, naturally aligned, inside the 256 MiB of the space. -/
def storeOk (off size : Nat) : Bool :=
  (size == 4 || size == 8) && decide (off % size = 0) && decide (off < 0x1000_0000)

/-- Whether every operand of a command is in range. -/
def Instr.wf : Instr → Bool
  | .registerWrite off size _ => storeOk off size
  | .vddAonRise | .rstWarm | .stageB0 | .stageB1 _ _ | .stageB2 | .stageB5 | .stageTimeout | .epochCheckDone | .epochCancel
  | .marginSummary | .journalCompaction | .placeEpochReq | .placeEpochCancel | .placeEpochWrite _ | .numFbBaseWrite _
  | .numFbNextWrite _ | .bandAdvance | .bandStepWrite _ | .moduleNoWrite _ | .cowWriteRelease | .addLateApply | .ddrXlateInWrite _ => true
  | .porN _ | .warmRstN _ => true
  | .stageB3 _ p | .levelChange p | .pllRelockDone p => p.wf
  | .stageB4 tr => tr.wf
  | .stageB6 ups p => ups.all (fun l => decide (l < 12)) && p.wf
  | .epochReq slot => decide (slot < 2)
  | .ctxStart t n | .ctxStop t n | .contextWake t n => ctxOk t n
  | .descriptorSubmit t n off data => decide (t < 88) && decide (n < 64) && decide (0 < data.length) && decide (off + data.length ≤ 64)
  | .descriptorAdmit _ | .descriptorComplete _ | .descriptorCancel _ | .heldDescriptorStop _ => true
  | .genDomainWrite d _ => decide (d < 16)
  | .mmFwd _ | .mmDgrad _ | .mmWgrad _ | .mmStats _ | .copy _ | .permute _ | .skewCopy _ | .packInput _ | .unpackInput _ | .runChain _
  | .touchReset _ | .expertDispatch _ | .expertCombineReturn _ | .expertCombineSum _ | .redLocal _ | .redSend _ | .redSendFillWait _
  | .bucketArm _ | .redZero _ | .areaReserve _ => true
  | .multicastFill _ _ => true
  | .mittShare t | .mittPassSwap t | .mittDrain t | .combineAdd t | .cuffJob t | .gloveStart t | .sortStage t | .segmentMerge t
  | .runAheadRead t => decide (t < 88)
  | .groupScheduleWrite g r _ => decide (g < 256) && [0, 1, 2, 3, 4, 9].contains r
  | .groupRestoreWrite g r _ => decide (g < 256) && [5, 6].contains r
  | .palmEnd t n _ | .alu t n _ | .alui t n _ | .lis t n _ | .ld t n _ | .st t n _ | .br t n _ | .jal t n _ | .jr t n _ | .waitne t n _
  | .fence t n _ | .band t n _ | .dgap t n _ | .tmnext t n _ | .spr t n _ | .vld t n _ | .vst t n _ | .vop t n _ | .vfma t n _ | .vfn t n _
  | .vsel t n _ | .vred t n _ | .vmov t n _ | .vacc t n _ | .vstep t n _ | .sfp t n _ | .vint t n _ | .vperm t n _ | .palmEvent t n _
  | .vgth t n _ | .vsct t n _ | .trap t n _ => ctxOk t n
  | .memRead addr _ => lineOk addr
  | .memWrite addr _ data _ => lineOk addr && decide (data.length = 64)
  | .add addr rank _ data => lineOk addr && decide (rank < 2 ^ 16) && decide (data.length = 64)
  | .bitset addr data => lineOk addr && decide (data.length = 64)
  | .zero addr _ => lineOk addr
  | .scrubRead ch _ => decide (ch < 400)
  | .adderSelfCheck ch _ => decide (ch < 384)
  | .winOpen n | .winOpenEffect n | .winClose n | .winCloseDone n | .winAbort n => decide (n < 16)
  | .fillCntWrite f _ => decide (f < 64)
  | .contributionHeader | .lineGroup | .replyAccepted | .replyRefused | .replyComplete | .abandonReply => true
  | .bucketDeadline b | .bucketDrainLimit b | .bucketFinalise b => decide (b < 64)
  | .ethFrameRx p _ bytes => ethOk p bytes
  | .ptpNext p | .roceSend p | .roceWrite p | .roceReadRequest p | .cmdEntries p | .cmdAck p | .cmdMessages p | .epCtrlWrite p _
  | .epLinkUpChange p _ => decide (p < 2)
  | .rtoExpire c => decide (c < 4096)
  | .quirasDataFrame l f | .controlFrame l f | .handoverMarker l f | .echoFrame l f => frameOk l f
  | .controlFrameTimer l | .echoExchange l | .qlReplayTimeout l | .linkRecovery l | .recoveryTimeout l | .linkTrainRetry l
  | .alignmentMarker l | .qlRetrain l | .qlEcho l | .handoverComplete l | .handoverTimeout l | .frameSlot l | .linkTrainingDone l _ =>
    decide (l < 12)
  | .qlHandoverGo l pos => decide (l < 12) && decide (pos < 4)
  | .readReq | .readResp | .msgWrite | .writeAck | .accum | .accumAck | .queuePush | .queueAck => true
  | .queuePushRetry _ => true
  | .remoteTimeoutExpire _ => true
  | .pcCtrlWrite c _ => decide (c < 4096)
  | .qCfgWrite q _ | .qDoorbellWrite q _ | .qHeadWrite q _ => decide (q < 16384)
  | .qDirectEntry q data => decide (q < 16384) && decide (data.length = 64)
  | .outboundEntrySend q => decide (q < 16384)
  | .regRead | .regWrite | .flashRead | .flashErase _ | .flashWrite _ | .calCommit | .calCapture | .attest | .attestSignDone | .mgmtReset
  | .resetCommandFire | .mgmtClaim | .mgmtRelease | .claimTimeout => true
  | .detCheck | .detCheckEvaluate | .detHold | .detRelease | .detArmReset => true
  | .hbTake | .pageCopy | .hbAbort | .hbRestore | .page | .pageAck | .commit | .commitAck | .journal | .restoreReq | .restorePage
  | .restoreDone => true
  | .calRoundHbm ch _ _ => decide (ch < 384)
  | .calRoundQuiras l _ _ => decide (l < 12)
  | .darnReqWrite o => decide (o < 1024)
  | .tileReplace | .tileReplaceDefer => true
  | .plTargetWrite _ | .railSettled | .padReleaseWrite _ => true
  | .governorTick temps => decide (temps.length = 30)
  | .pmbusTelemetryPoll rails => decide (rails.length = 6)
  | .thermalTrip sensor _ => decide (sensor < 30)
  | .droopDetect r | .idleCalTrim r _ => decide (r < 16)
  | .droopStretchEnd r aclks => decide (r < 16) && decide (64 ≤ aclks)
  | .sleepS1 | .sleepS2 | .sleepS3 | .sleepS4 | .sleepWake | .wakePin => true
  | .blockResetPalm i | .blockResetMitt i | .blockResetCuff i | .blockResetGlove i | .blockResetSizer i | .blockResetCounters i =>
    decide (i < 88)
  | .blockResetEthPort i => decide (i < 2)
  | .blockResetQuirasLink i => decide (i < 12)
  | .doffFire | .doffPinTrigger _ | .doffMsg | .doffFreeze _ | .doffOutRelease | .doffThaw | .tensorDumpCopy | .dumpNextWrite _ => true
  | .keyProgram slot confirm | .keyRevoke slot confirm => decide (slot < 4) && decide (confirm < 2 ^ 16)
  | .keyCmdDone blown => decide (blown.length = 64)
  | .i2cRead x => decide (x.addr < 128) && decide (x.idx < 256)
  | .mittCntClear t | .cuffCntClear t | .gloveCntClear t | .expCntClear t | .sizerCntClear t | .palmCntClear t | .tcntCntClear t =>
    decide (t < 88)
  | .numCntClear | .bandCntClear | .addCntClear | .hbmCntClear | .ddrCntClear | .redCntClear | .qrCntClear | .detCntClear | .jnlCntClear
  | .hbCntClear | .droopCntClear | .pwrCntClear | .obsCntClear => true
  | .epCntClear p => decide (p < 2)
  | .qlCntClear l => decide (l < 12)
  | .vddAonFall => true
  | .marginMeasure o _ _ => decide (o < 550)

end Sys2Proof
end

