-- ==== Sys2Proof/Tests/Slice0.lean ====
section
/-! SUPPORT. Tests: worked examples of the spec, well-formedness, a signed image, and for every statement with hypotheses
one theorem that shows, clause by clause, a state and operands that meet them together. -/

namespace Sys2Proof.Tests

open Sys2Proof Sys2Proof.Machine

set_option maxRecDepth 20000
set_option linter.unusedVariables false
set_option Elab.async false

/-- The state after reset with registers set, memory known, 88 tiles active, MODULE_NO set to 0 and the module Running. -/
def st (ps : List (Nat × Word)) : State :=
  { State.reset with core := ([(Reg.moduleInfo, 0x5800), (Reg.moduleNo, 0x8000_0000), (Reg.startStatus, 0x8)] ++ ps).foldl (fun (c : Core) (p : Nat × Word) => c.wr p.1 p.2) { Core.initial with undef := [] } }


/-- `st` with the start stage `k` running. -/
def stage (k : Nat) : State := { st [(Reg.startStatus, BitVec.ofNat 64 k)] with pwr := { Pwr.initial with starting := true } }

/-- `st` with the power state changed. -/
def stP (f : Pwr → Pwr) : State := { st [] with pwr := f { Pwr.initial with starting := false } }

/-! ## A signed image (R37 to R42, R491 to R494)

The key is an RSA-4096 key made for this test, and the signature was made with it outside the model (SHA-512 and RSASSA-PSS
as R491 names them). -/

/-- The modulus of the test key. -/
def testModulus : Nat := 0xC3B0DBDFBDCB5B1AD6C8AFB1C5F135F4F5B4DD10A7D6183203088AAAF450A6AAE68738964F990427593698EBF06D70E6E641BBD208BE1757AFCB70B0C73C6913B345B2DC9F11B09FEBB787A875872F5D7ED5E87ABB500E82C485081E07216C801B502AC5B0994B3856764DB470012275B2DB1285160DB52B201FDC2830AD9B8DD9FCA3EE2DD049D94C0E50162338D2DB210CC163A0AFC31C87F4AA8872596C202E4C4727B0994CBC3302F24DB14A0896F4A0F0E3ECB446EE89020F7B7FF6A719700EFA72DEF63E0243592D1E3509636121A66CBE30943B4FC79F3D685761631AA209C6FD5F5A17A8883A06A34A1D383605AF0205C798B79079A8BB3EF6BB5F36D04753C14B07C6BAB425EFA1D35B6F084AFB2FCB68661A1690D5871F87DA4044AD35FCC18CD5C042178098BCC7E2C681C5EB191E7B84024D28E644988676FDD459F06356B03F8940C1F863F3B0256256E94D944481154438389225A3F7FE9E6F908959D3BF9703E0594D74FA24A7B6113D8A3EFC77195AAD7CCED48AC4A9DF004C856F31FEA688FB7233B2AE8A69BBEDDF425ED43B93A7C5BA2682C450C6C8074F9E4A45FC092BCD537AA6748EE52A2258F126D2DB8F1A9332A326F6C4BC4EE15B6D23C4B84E9540697A306CD20E7C7F681EB86D4348D859281C5C215B11C6AF4A889EC2B470BB67A0B14DC2DD3CC9601B1910090C78AA4CFC78637C9A9CDF93

/-- The key-store entry of the test key: its modulus and the exponent 65,537 (R493). -/
@[irreducible] def testKey : List Byte := beBytes 512 testModulus ++ beBytes 4 65537

/-- A directory entry of R38. -/
def testDir (ty off len : Nat) : List Byte := leBytes 2 (ty + 0x100) ++ leBytes 2 0 ++ leBytes 4 off ++ leBytes 4 len ++ leBytes 4 0

/-- A slot header with the six required sections and SEQUENCE 2, for grade A. -/
@[irreducible] def testHeader : List Byte :=
  leBytes 4 0x5A50_4154 ++ leBytes 2 1 ++ leBytes 2 6 ++ leBytes 4 2048 ++ leBytes 4 2 ++ leBytes 2 1 ++ List.replicate 46 0 ++
  testDir 1 0x200 128 ++ testDir 2 0x300 16 ++ testDir 3 0x400 80 ++ testDir 4 0x500 128 ++ testDir 5 0x600 32 ++ testDir 6 0x700 32 ++
  List.replicate 352 0

/-- The sections: an automatic tile map, no explicit network, one chain of a gather and a combine, no regions, eight rising levels, and recipes. -/
def testSections : List (List Byte) :=
  [leBytes 128 (88 * 2 ^ 8), leBytes 16 0,
   leBytes 16 1 ++ leBytes 4 0x200 ++ leBytes 28 0x6E69_616D ++ leBytes 4 0x11 ++ leBytes 4 0x14 ++ List.replicate 24 0,
   leBytes 128 0xFFFF_0000_FFFF_0000_0000,
   (List.range 8).flatMap fun l => leBytes 4 (16 + l + (600 + l) * 2 ^ 8), leBytes 32 (0x301 * 2 ^ 128)]

/-- The signed part of the image. -/
@[irreducible] def testImage : List Byte := testHeader ++ testSections.flatMap fun s => s ++ List.replicate (256 - s.length) 0

/-- Its signature. -/
@[irreducible] def testSignature : List Byte := beBytes 512 0x5388bc0348c43f826b883678b97f9c357723492c9ef8b9c45d2c0279b6912442c6a140d989b7dccdee705586a2fa5de80e2eca35ba503619f87a981b999d2b7d9d66d1dc7812e2ab90c7fa314e181ffec349c03b1a5b5650bcf36fec2e5cfdeb3bac08c5c62b02ff64ed4dc45a02723733586e2b98a87a2b904ba52d51e5354480f93fb309a78fbe37596b645cd611c473cfb1f1484c439f251185bb4c512953e4d9ca4ef649f93d921d3414d66c0c8dc874d923c09568141c018340e8b4e19050f6898287cfd63df00d2b3888f47242ab3358aae718288943c2e73afc6fd7cc0a94190548c80e6e39c433e04a8237cdb12c32c06b8e479e3af19721dee7f5f3e307e2bb1dff754192833256ebd73d2d347d06ec30d08ff21c8b90310d2d42b7cf11486f139382a71562c5e7ca06e0f020facea89b5d3e2efb3a89b18227bfa6948be7e416bc6ce38cdc7f77604b292ce7f0f51dad4f60e79e3582d6ddcffeb1157fdc0a78b51a6d5923caa1ff14a58676b99075f841992f3cc8338f69d23f4a49a0d4208341667be33b82cee919ac31b2359fe9168aa04ac7ccd4d09f834ed8e85fb9d03486bde384d9169c788b000fb33eda7289e9e453bf12be8b90c002e3799ac0d4027e89ec883b5d823a7c035028b63b87475db5130fb3ed851902979ae594acec599ab180bf0f1ff9810c93ff021ac1a4606197ddf2ecf77abc01da3c

/-- Its SHA-512, the Pattern hash (R40). -/
def testHash : List Byte := beBytes 64 0xecdbdd2f300b7b8dfef5f58542624624e6fa219977c44a532bd91c2940385f03373eeaf65822c4b9de6229e52c9daa442763560ca3ec52bdda1a2614c32d2626

/-- A fuse bank whose key slot 0 holds the hash of the test key. -/
@[irreducible] def testFuses : Fuses :=
  { Fuses.initial with keyHash := beBytes 64 0x6702ef09562b86f7160410d401d2c8ddbaed88e1fd1a66eccc6786c7a01eeedd3ce20ea90375cbca36fc479f343378f4adfc76f81d6a7b928978b7ace81ff88e :: List.replicate 3 (List.replicate 64 0) }

/-- A flash with the key and, in slot A, the image. -/
@[irreducible] def testFlash : List Host.Cell := flashPut (flashPut (flashPut [] 0x10F_0000 testKey) 2048 testSignature) 0 testImage

/-- The image as the check of its slot answers it. -/
def testRun : Machine.Image := { slot := 0, seq := 2, key := 0, hash := testHash, sections := [1, 2, 3, 4, 5, 6].zip testSections }

theorem test_sha512_of_image : sha512 testImage = testHash := by decide +kernel

theorem test_sha512_of_key : sha512 testKey = testFuses.keyHash.getD 0 [] := by decide +kernel

/-- R491: the signature made outside the model verifies. -/
theorem test_signature_verifies : pssVerify testModulus testHash testSignature = true := by decide +kernel

theorem test_image_length : testImage.length = 2048 := by decide +kernel

theorem test_key_length : testKey.length = 516 := by decide +kernel

theorem test_signature_length : testSignature.length = 512 := by decide +kernel

theorem test_image_bytes : flashBytes testFlash 0 2048 = testImage := by
  unfold testFlash
  exact flashBytes_put _ _ _ _ test_image_length

theorem test_signature_bytes : flashBytes testFlash 2048 512 = testSignature := by
  unfold testFlash
  rw [flashBytes_apart _ _ _ _ _ (Or.inr (Nat.le_of_eq (by rw [test_image_length]))), flashBytes_put _ _ _ _ test_signature_length]

theorem test_key_bytes : flashBytes testFlash 0x10F_0000 516 = testKey := by
  unfold testFlash
  rw [flashBytes_apart _ _ _ _ _ (Or.inr (by rw [test_image_length]; decide)),
    flashBytes_apart _ _ _ _ _ (Or.inr (by rw [test_signature_length]; decide)), flashBytes_put _ _ _ _ test_key_length]

theorem test_signatureOk : signatureOk testFuses testFlash 0 testHash testSignature = true := by
  have h1 : (cut testKey 512 4) = beBytes 4 65537 := by decide +kernel
  have h2 : beNat (testKey.take 512) = testModulus := by decide +kernel
  have h3 : keyEntry testFlash 0 = testKey := test_key_bytes
  simp only [signatureOk, h3, h1, h2, test_sha512_of_key, test_signature_verifies]
  decide +kernel

/-- R42: the image passes every check of its slot. -/
theorem test_image_passes : checkSlot testFuses testFlash 0 = (0, 0, some testRun) := by
  have h0 : slotBase 0 = 0 := rfl
  have h1 : flashBytes testFlash 0 512 = testHeader := by
    rw [flashBytes_take _ _ _ _ (show 512 ≤ 2048 by decide), test_image_bytes]; decide +kernel
  have h2 : leField testHeader 8 4 = 2048 := by decide +kernel
  have h3 : leField testHeader 0x11 1 = 0 := by decide +kernel
  simp only [checkSlot, h0, h1, h2, h3, Nat.zero_add, test_image_bytes, test_signature_bytes, test_sha512_of_image, test_signatureOk]
  decide +kernel

/-- R42: the erased slot B is BLANK. -/
theorem test_blank_slot : checkSlot testFuses testFlash 1 = (1, 0, none) := by
  have h : flashBytes testFlash 0x80_0000 512 = flashBytes [] 0x80_0000 512 := by
    unfold testFlash
    rw [flashBytes_apart _ _ _ _ _ (Or.inr (by rw [test_image_length]; decide)),
      flashBytes_apart _ _ _ _ _ (Or.inr (by rw [test_signature_length]; decide)),
      flashBytes_apart _ _ _ _ _ (Or.inl (by decide))]
  have h0 : slotBase 1 = 0x80_0000 := rfl
  simp only [checkSlot, h0, h]
  decide +kernel


/-- The module's part with that key and flash. -/
def testPart : Part := { State.reset.part with fuses := testFuses, flash := testFlash }

theorem test_image_valid : (checkSlot testPart.fuses testPart.flash 0).2.2 = some testRun := by
  rw [show testPart.fuses = testFuses from rfl, show testPart.flash = testFlash from rfl, test_image_passes]

/-- R41: B2 chooses the one valid image. -/
theorem test_image_chosen : chooseImage (checkSlot testPart.fuses testPart.flash 0).2.2 (checkSlot testPart.fuses testPart.flash 1).2.2 = some testRun := by
  rw [test_image_valid, show testPart.fuses = testFuses from rfl, show testPart.flash = testFlash from rfl, test_blank_slot]; rfl

/-- Bytes at local addresses. -/
def put (s : State) (a : Nat) (bs : List Byte) : State := { s with core := s.core.poke a bs }

/-- An image with no sections. -/
def img (slot : Nat) : Image := { slot := slot, seq := 1, key := 0, hash := [], sections := [] }

/-- `st` with a running image. -/
def run0 (ps : List (Nat × Word)) (f : Pat → Pat) : State := { st ps with pat := f { State.reset.pat with run := some (img 0) } }

/-- A context of tile 0 that has just started at `pc`. -/
def ctx (pc : Nat) : Ctx := Ctx.started 0 0 pc 0

/-- A Running module whose context 0 of tile 0 runs (state 1) as `x`. -/
def withCtx (x : Ctx) (ps : List (Nat × Word)) : State := { st ((Reg.ctxStatus 0 0, 1) :: ps) with palm := [x] }

/-- The 64 bytes of a descriptor (R82) with its opcode, engine, record count, flags, ARG, record base, extents and completion address. -/
def raw (op eng nrec flags gen arg base : Nat) (ext : List Nat) (compl : Nat) : List Byte :=
  leBytes 1 op ++ leBytes 1 (eng + 16 * nrec) ++ leBytes 2 flags ++ leBytes 2 gen ++ leBytes 2 arg ++ leBytes 8 base ++
  leBytes 4 (ext.getD 0 0) ++ leBytes 4 (ext.getD 1 0) ++ leBytes 4 (ext.getD 2 0) ++ leBytes 2 (ext.getD 3 0) ++ leBytes 2 (ext.getD 4 0) ++
  leBytes 2 64 ++ leBytes 2 64 ++ leBytes 2 64 ++ leBytes 2 0 ++ leBytes 8 compl ++ List.replicate 16 0

/-- Descriptor 0 of tile 0, from port 0. -/
def desc (b : List Byte) (ph : Phase) (ext : List Nat) : Desc :=
  { id := 0, tile := 0, src := .port 0, raw := b, phase := ph, adm := 0, step := 0, recs := [], ext := ext, latch := ⟨[], 0, 0, 0, 0, 0, 0, 0⟩,
    conds := [], detail := 0, ueSeen := [], acks := 0, mixed := false, by_ := none, wrote := false, tried := false, left := false, reps := [] }

/-- Descriptor 0 of an opcode with small extents. -/
def op (o eng arg : Nat) (ph : Phase) : Desc := desc (raw o eng 2 0 0 arg 0x1000 [1, 1, 1, 1, 1] 0) ph [1, 1, 1, 1, 1]

/-- A module that holds descriptors and the work `f` gives it. -/
def wk (ds : List Desc) (f : Work → Work) : State := { st [] with work := f { Work.initial with nextId := 8, descs := ds } }

/-- The one share of descriptor 0, on tile 0. -/
def share (started : Bool) (pass : Nat) (acc : List AccTile) : Share :=
  { desc := 0, no := 0, out := 0, tile := 0, piece := 0, batch := 0, rb0 := 0, rb1 := 1, cb0 := 0, cb1 := 1, orderR := false, spill := 0, slot0 := 0, started := started,
    pass := pass, acc := acc }

/-- A finished accumulator tile with the next piece to add. -/
def acc (rb next : Nat) : AccTile := { rb := rb, cb := 0, next := next, full := true, sums := [], before := [] }

/-- A job of descriptor 0 on tile 0. -/
def job : CuffJob := { desc := 0, tile := 0, batch := 0, rb0 := 0, rb1 := 1, cb0 := 0, cb1 := 1, started := false, done := 0 }

/-- A Glove descriptor with a chain of stage kinds. -/
def chain (ks : List Nat) (ph : Phase) : Desc := { op 0x40 2 0 ph with latch := ⟨ks, 0, 0, 0, 0, 0, 0, 0⟩ }

/-- A tensor record (R86): base, FORMAT, dimensions, strides of 1. -/
def record (base fmt ndim tid : Nat) : List Byte :=
  leBytes 7 base ++ leBytes 1 fmt ++ leBytes 1 ndim ++ leBytes 3 tid ++ (List.range 5).flatMap fun i => leBytes 4 (if i < ndim then 1 else 0)

/-- A RED_ZERO descriptor whose landing is one record at 0x1000. -/
def zeroD : Desc := desc (raw 0x63 3 1 0 0 0 0x1000 [1, 1, 1, 1, 1] 0) .waiting [1, 1, 1, 1, 1]

/-- A module that holds it, with its record in memory. -/
def zeroS : State := put (wk [zeroD] id) 0x1000 (record 0x2000 0 1 5)

/-- What admission reads of it. -/
def zeroStep : Desc := { zeroD with step := zeroS.core.step, latch := zeroS.latchFor zeroD }

/-- A descriptor whose own bytes give its extents. -/
def sized (o arg : Nat) (ph : Phase) (ext : List Nat) : Desc := desc (raw o 0 3 0 0 arg 0x1000 ext 0) ph ext

/-- A chain of the running image: gather and write. -/
def chains : Pat → Pat := fun p => { p with run := some { img 0 with
  sections := [(3, leBytes 16 1 ++ [0, 2] ++ List.replicate 2 0 ++ leBytes 28 0x61 ++ leBytes 4 0x11 ++ leBytes 4 0x14 ++ List.replicate 24 0)] } }

/-- A RUN_CHAIN descriptor with its three records in memory. -/
def aheadD : Desc := desc (raw 0x40 2 3 0 0 0 0x1000 [4, 4, 8, 1, 1] 0) .waiting [4, 4, 8, 1, 1]

/-- A module whose Glove may read ahead for it. -/
def aheadS : State :=
  put ({ (wk [aheadD] id) with pat := chains State.reset.pat, core := (wk [aheadD] id).core.wr (Reg.gloveCtrl 0) 2 } : State) 0x1000 (record 0x2000 7 1 5 ++ record 0x3000 0 2 6 ++ record 0x4000 0 2 7)

/-- A reduction descriptor with its records. -/
def redD (o arg : Nat) (ph : Phase) : Desc := { op o 3 arg ph with recs := record 0x2000 0 1 5 ++ record 0x3000 0 1 6 }

/-- An instruction's bits [26:0] in format B: d, a, b, c, f. -/
def enc (d a b c f : Nat) : BitVec 27 := BitVec.ofNat 27 (d * 2 ^ 22 + a * 2 ^ 17 + b * 2 ^ 12 + c * 2 ^ 7 + f)

/-- In format C: d, a, f4, imm13. -/
def encI (d a f4 imm : Nat) : BitVec 27 := BitVec.ofNat 27 (d * 2 ^ 22 + a * 2 ^ 17 + f4 * 2 ^ 13 + imm)

/-- In format D: d, imm22. -/
def encL (d imm : Nat) : BitVec 27 := BitVec.ofNat 27 (d * 2 ^ 22 + imm)

/-- A context at 0x100 with scalar registers. -/
def cx (l : List (Nat × Word)) : Ctx := l.foldl (fun (x : Ctx) (p : Nat × Word) => x.setX p.1 p.2) (ctx 0x100)

/-- A context with two vectors, v1 and v2, and scalars. -/
def cv (a b : Lane) (l : List (Nat × Word)) : Ctx := ((cx l).setV 1 (List.replicate 16 a)).setV 2 (List.replicate 16 b)

/-- A Running module whose context 0 of tile 0 is at an instruction. -/
def ins (opc : Nat) (w : BitVec 27) (x : Ctx) (ps : List (Nat × Word)) : State :=
  put (withCtx x ps) 0x100 (leBytes 4 (opc * 2 ^ 27 + w.toNat))

/-- 64 bytes of 16 lanes of 1.0. -/
def ones : List Byte := (List.range 16).flatMap fun _ => leBytes 4 0x3F80_0000

/-- Memory whose line at 0x4000 holds lanes of 1.0. -/
def line1 (ps : List (Nat × Word)) : State := put (st ps) 0x4000 ones

/-- Window 3 over the first 64 KiB of HBM in state `w`, staged in 4 MiB at 0x100_0000. -/
def win (w : Word) (ps : List (Nat × Word)) : State :=
  line1 ([(Reg.winSize 3, 0x1_0000), (Reg.winStageBase 3, 0x100_0000), (Reg.winStageSize 3, 0x40_0000),
    (Reg.winStatus 3, w)] ++ ps)

/-- An entry staged in window 3. -/
def staged (k r : Nat) : Staged := { win := 3, line := k, rank := r, mask := 0xFFFF, lanes := List.replicate 16 0x3F80_0000 }

/-- A module with entries staged. -/
def withStaged (s : State) (l : List Staged) : State := { s with core := { s.core with staged := l } }

/-- A message from module 5 that came over link 0. -/
def msg (cls : Nat) (b : List Byte) : Msg := { src := 5, dest := 0, cls := cls, link := 0, tick := 0, bytes := b }

/-- A module that has received one message, with the reduction state `r`. -/
def rx (ps : List (Nat × Word)) (m : Msg) (r : Red → Red) : State :=
  { st ps with net := { Net.initial with rxMsgs := [m] }, red := r State.reset.red }

/-- A contribution header (R359) of rank 7 for the landing address 0x4000: its lines and samples. -/
def header (lines count : Nat) : List Byte :=
  [1, 0, 0, 0, 7, 0, 0, 0] ++ leBytes 8 0x4000 ++ leBytes 4 lines ++ leBytes 4 count ++ List.replicate 8 0

/-- A line group or a reply (R359) of rank 7 for the landing address 0x4000. -/
def red (k b line : Nat) (data : List Byte) : List Byte :=
  leBytes 1 k ++ leBytes 1 b ++ [0, 0, 7, 0] ++ leBytes 3 line ++ leBytes 7 0x4000 ++ data

/-- Bucket 3, armed by descriptor 0 for 4 lines. -/
def bkt (deadline drain : Nat) (cs : List Contrib) : Bucket :=
  { idx := 3, desc := 0, tile := 0, gen := 0, lines := 4, expect := 2, deadline := deadline, sumMode := false, first := 0, sealTick := 0,
    byDeadline := false, refused := 0, ueLines := [], refusedAdd := false, abandoned := false, stepAtArm := 0, age := 0, drain := drain,
    contribs := cs }

/-- The accepted contribution of module 5. -/
def contrib : Contrib := { src := 5, rank := 7, gen := 0, accepted := true, header := true, count := 1, lines := 4, got := 0, complete := false }

/-- A RED_SEND under way. -/
def send (empty : Bool) : Send :=
  { desc := 0, landing := 0x4000, rank := 7, gen := 0, accepted := false, empty := empty, since := 0, limit := 9 }

/-- A module with descriptor 0 finished, bucket 3 in a state, and the timebase at a tick. -/
def bucketS (t : Nat) (b : Bucket) (ps : List (Nat × Word)) : State :=
  let s := wk [op 0x62 3 0 .running] id
  { s with core := { (ps.foldl (fun (c : Core) (p : Nat × Word) => c.wr p.1 p.2) s.core) with now := BitVec.ofNat 64 t },
           red := { s.red with buckets := [b] } }

/-- The partner's address. -/
def peer : NetAddr := { mac := 0x22, ip := 0x0A00_0002, v6 := false, udp := 9, me := 0x0A00_0001, port := 0x5A96 }

/-- A port with its link up, MAC 0x11 and IPv4 10.0.0.1. -/
def port (ps : List (Nat × Word)) : State := st ([(Reg.epStatus 0, 1), (Reg.epMac 0, 0x11), (Reg.epIpv4 0, 0x0A00_0001)] ++ ps)

/-- An ARP request for it. -/
def arp : List Byte :=
  ethBytes 0x11 0x22 0x0806 (beBytes 6 0x0001_0800_0604 ++ beBytes 2 1 ++ beBytes 6 0x22 ++ beBytes 4 0x0A00_0002 ++ beBytes 6 0 ++
    beBytes 4 0x0A00_0001)

/-- A command datagram of KIND 2 in a frame. -/
def cmdFrame : List Byte :=
  ethBytes 0x11 0x22 0x0800 (ipBytes false 0x0A00_0002 0x0A00_0001 0
    (udpBytes false 0x0A00_0002 0x0A00_0001 9 0x5A96 (datagram 2 1 1 0 0 0 0 [])))

/-- A PTP event message in a frame. -/
def ptpFrame : List Byte := ethBytes 0x11 0x22 0x88F7 ([1, 2] ++ List.replicate 28 0 ++ [9, 8] ++ List.replicate 12 0)

/-- A module that has handed a datagram on, with a live partner context 1 whose PC_CTRL is `k`. -/
def up (roce : Bool) (k : Word) (d : List Byte) (ps : List (Nat × Word)) : State :=
  { port ([(Reg.pcCtrl 1, k), (Reg.pcStatus 1, 1), (Reg.pcSeq 1, 0x1_0000_0001)] ++ ps) with
    net := { Net.initial with rxUp := [⟨0, roce, false, peer, d⟩] } }

/-- The same with the datagram taken. -/
def taken (s : State) : State := { s with net := { s.net with rxUp := [] } }

/-- A RoCEv2 request of PSN 1 for queue pair `qp`. -/
def roce (op qp : Nat) (reth body : List Byte) : List Byte :=
  beBytes 1 op ++ [0, 0xFF, 0xFF, 0] ++ beBytes 3 qp ++ [0x80] ++ beBytes 3 1 ++ reth ++ body ++ [0, 0, 0, 0]

/-- A RETH for 8 bytes at 0x3005. -/
def reth : List Byte := beBytes 8 0x3005 ++ beBytes 4 0x77 ++ beBytes 4 8

/-- Queue 5, a mailbox of context 1 with its ring at 0x8000. -/
def mail : List (Nat × Word) := [(Reg.qCfg 5, 0x109), (Reg.qRing 5, 0x8000)]

/-- A live context 1 of KIND `k` with unacknowledged datagrams. -/
def waiting (k : Word) (t : Nat) : State :=
  { port [(Reg.pcCtrl 1, k), (Reg.pcStatus 1, 1)] with
    net := { Net.initial with pcs := [{ PcRun.fresh 1 with unacked := [(1, datagram 1 1 1 0 5 1 0 ones)], timeouts := t }] } }

/-- Queue 6, an outbound queue of context 1 with an entry waiting. -/
def outS (k : Word) : State :=
  put (st [(Reg.qCfg 6, 0x10B), (Reg.qRing 6, 0x8000), (Reg.qTail 6, 1), (Reg.pcCtrl 1, k), (Reg.pcStatus 1, 1), (Reg.modRoute 5, 1),
    (Reg.qlStatus 0, 2), (Reg.epStatus 0, 1)]) 0x8000 ones

/-- A module with requests outstanding that has received a message. -/
def asked (s : State) (rs : List Req) (m : Msg) : State :=
  { s with core := { s.core with reqs := rs }, net := { s.net with rxMsgs := [m] } }

/-- A request of tag 9 to module 5. -/
def req (w : Waiter) (full : Bool) (b : List Byte) : Req := { tag := 9, dest := 5, cls := 1, since := 0, limit := 0, waiter := w, full := full, msg := b }

/-- The bits of LD x3, 0(x1) of 8 bytes with its opcode. -/
def ldWord : Nat := 4 * 2 ^ 27 + (encI 3 1 3 0).toNat

/-- A good frame. -/
def qf (hdr : Nat) (p : List Byte) : QFrame :=
  { hdr := hdr, crc := crc16 (leBytes 6 hdr ++ bytesAt p 0 256), payload := bytesAt p 0 256, rsOk := true, corrected := 0 }

/-- Link 2 with registers and its own state. -/
def lk (v : Word) (f : Link → Link) (ps : List (Nat × Word)) : State :=
  { st ((Reg.qlStatus 2, v) :: ps) with links := (List.replicate 12 Link.initial).set 2 (f Link.initial) }

/-- A frame kept for replay. -/
def tx (n : Nat) : TxFrame := { seq := n, cls := 0, src := 0, dest := 5, payload := [] }

/-- A message for module 5 that waits to be sent by link 2. -/
def out1 : Msg := { src := 0, dest := 5, cls := 1, link := 12, tick := 0, bytes := msgAck 0x13 0 9 }

/-- A management entry from the partner: OP, ARG0, ARG1 and data. -/
def entry (o a0 a1 : Nat) (d : List Byte) : MgmtEntry :=
  { from_ := peer, seq := 1, bytes := leBytes 4 o ++ leBytes 4 a0 ++ leBytes 8 a1 ++ bytesAt d 0 48 }

/-- A module whose management queue the partner has claimed and that has taken an entry in. -/
def mg (e : MgmtEntry) (ps : List (Nat × Word)) : State :=
  { port ps with net := { Net.initial with mgmtIn := [e], claim := some { who := peer, next := 2, since := 0, replies := [] } } }

/-- The same with no claim. -/
def mgFree (e : MgmtEntry) : State := { mg e [] with net := { Net.initial with mgmtIn := [e] } }

/-- A layout that names module 5 as Hatbox partner both ways, reached by link 2, a partner region at the start of the DDR tier and a DUMP region. -/
def layout : Pat → Pat := fun p => { p with run := some { img 0 with
  sections := [(4, bytesAt ([0, 0, 1, 0] ++ leBytes 2 5 ++ leBytes 2 4 ++ leBytes 8 5 ++ List.replicate 64 0 ++ leBytes 8 0x800_0000_0000 ++
    leBytes 8 0x20_0000_0000 ++ leBytes 8 0x830_0000_0000 ++ leBytes 8 0x1_0000) 0 128)] } }

/-- A module with that layout, the reservation in force and DDR installed, whose Hatbox has STATE `k`. -/
def hb (k : Word) (ps : List (Nat × Word)) : State :=
  { st ([(Reg.hbmStatus, 2), (Reg.hbStatus, k), (Reg.ddrCapacity, 0x80_0000_0000), (Reg.hbRegBase 0, 0), (Reg.hbRegSize 0, 0x8000)] ++ ps) with
    pat := layout State.reset.pat }

/-- The same with a message of the Hatbox. -/
def hbRx (k : Word) (b : List Byte) (f : Integ → Integ) : State :=
  { hb k [] with net := { Net.initial with rxMsgs := [msg 4 b] }, integ := f Integ.initial }

/-- A page of 16 KiB. -/
def page : List Byte := [7] ++ List.replicate 16383 0

/-- A module with a Hatbox header of `t` regions in its partner region that has received a RESTORE_REQ. -/
def restoreS (t : List Byte) : State := put (hbRx 0 (hbMsg 0x25 0 0 0 (List.replicate 256 0)) id) 0x800_0000_0000 (hbHeader 1 5 7 9 0 t)

/-- The Running module that nothing holds in S0. -/
def lvl (ps : List (Nat × Word)) (f : Pwr → Pwr) : State := { st ps with pwr := f { Pwr.initial with starting := false } }

/-- 30 temperatures, in 1/16 degree. -/
def temps (v : Nat) : List (BitVec 16) := List.replicate 30 (BitVec.ofNat 16 v)

/-- A tile map with 88 active tiles and 8 spares, and an object due. -/
def darn (due : List (Nat × Nat)) (wait : Bool) : State :=
  { st [(Reg.darnCtrl, 0x2_2003)] with
    core := { (st [(Reg.darnCtrl, 0x2_2003)]).core with due := due },
    pat := { State.reset.pat with map := List.range 88 ++ List.replicate 8 0xFE },
    integ := { Integ.initial with boundaryWait := wait } }

/-- A dump job of descriptor 0. -/
def dumpJ : DumpJob := { req := 0, role := 0, dest := 0, desc := 0, record := 0, begun := false, left := [] }

/-- A RED_ZERO descriptor that has finished, with its record. -/
def zeroF : Desc := { zeroD with phase := .finished, recs := record 0x2000 0 1 5 }

/-- A module whose DUMP region takes a dump of it. -/
def dumpS : State :=
  { (wk [zeroF] fun w => { w with dumps := [dumpJ] }) with
    pat := layout State.reset.pat,
    core := (wk [zeroF] id).core.wr Reg.ddrCapacity 0x80_0000_0000 }

/-- Fuses with a key in slot 0 and one in slot 1, serial 1. -/
def keyed : Fuses := { Fuses.initial with keyHash := [1 :: List.replicate 63 0, List.replicate 64 2, List.replicate 64 0, List.replicate 64 0] }

/-- A module with those fuses and a key operation. -/
def keyS (k : Option (Nat × Nat)) (ps : List (Nat × Word)) : State :=
  { lvl ps (fun p => { p with keyOp := k }) with part := { State.reset.part with fuses := keyed } }

/-- A transpose in place of 128 rows of 128 FP32 elements at 0x2000: its job has three tile pairs. -/
def turnD : Desc :=
  let r := leBytes 7 0x2000 ++ [0, 2, 5, 0, 0] ++ leBytes 4 1 ++ leBytes 4 128 ++ List.replicate 12 (0 : Byte)
  { desc (raw 0x21 1 2 0 0 0x4681 0x1000 [128, 128, 1, 1, 1] 0) .ready [128, 128, 1, 1, 1] with recs := r ++ r }
/-- A module, before its MODULE_NO is set, whose Cuff has that job. -/
def turnS : State := { st [] with
  core := (st []).core.wr Reg.moduleNo 0, work := (wk [turnD] fun w => { w with jobs := [{ job with rb1 := 2, cb1 := 2 }] }).work }

/-- The run of descriptor 0 on tile 0 past its first stages. -/
def grun (n : Nat) : GloveRun :=
  { tile := 0, desc := 0, steal := false, stage := n, entries := [], offs := [], tail := { heads := [], marks := [], loads := [] } }

/-- A module whose Glove runs a descriptor. -/
def gl (d : Desc) (g : GloveRun) : State := wk [d] fun w => { w with glove := [g] }

/-- A checkpoint that awaits page 1, with its outgoing staging full. -/
def fullS (s : State) : State := { s with core := { s.core with pend := [1], pageOut := List.replicate stagingPages (0, []) } }

/-- A change to that page must wait for its copy. -/
theorem fullS_waits (s : State) (a : Nat) (h : a / 0x4000 = 1) : (fullS s).core.mustWait a = true := by
  have h1 : a < 0x120_0000_0000 := by omega
  simp [fullS, Core.mustWait, Core.pagePending, h, h1]

/-- What the dump of it reads. -/
def dumpR : State := dumpS.readBy (.desc 0)

/-- A checkpoint that awaits page 0, with its outgoing staging full. -/
def full0 (s : State) : State := { s with core := { s.core with pend := [0], pageOut := List.replicate stagingPages (0, []) } }

/-- A write of that page waits for its copy. -/
theorem full0_holds (s : State) (x : Nat) (k : RocePkt)
    (h : (((linesOf (if k.op == 6 || k.op == 10 then k.va else (((full0 s).pcRun x).writeAt.getD (0, 0)).1) k.body.length).map
      fun l => l / 256).eraseDups.filter fun p => [0].contains p) = [0]) : (full0 s).writeHeld x k = true := by
  unfold State.writeHeld
  simp only [show (full0 s).core.pend = [0] from rfl, h]
  simp [full0]

/-! ## Worked examples of the spec, and published check values -/

/-- The published check value of the CRC-32 of IEEE 802.3 over the nine digits. -/
theorem test_crc32_check : crc32 [0x31, 0x32, 0x33, 0x34, 0x35, 0x36, 0x37, 0x38, 0x39] = 0xCBF4_3926 := by decide +kernel

/-- The published check value of the CRC-16 with polynomial 0x1021 and initial value 0xFFFF (R375). -/
theorem test_crc16_check : crc16 [0x31, 0x32, 0x33, 0x34, 0x35, 0x36, 0x37, 0x38, 0x39] = 0x29B1 := by decide +kernel

/-- The first word of SHA-512 of the three letters abc (FIPS 180-4). -/
theorem test_sha512_abc : (sha512 [0x61, 0x62, 0x63]).take 4 = [0xDD, 0xAF, 0x35, 0xA1] := by decide +kernel

/-- The worked case after R70: tiles 5 and 60 are not good; 37 becomes 35, 24 becomes 22, and the spares are 95, 71, 47, 23, 94, 70. -/
theorem test_auto_map : ((autoMap [5, 60] 88).map fun m => (m.getD 37 0, m.getD 24 0, m.getD 6 0, m.getD 5 0, mapSpares m)) =
    some (35, 22, 5, 0xFF, [23, 47, 70, 71, 94, 95]) := by decide +kernel

/-- The same worked case: spare 47 takes logical 35 from tile 37, which is retired. -/
theorem test_replace_tile : (((autoMap [5, 60] 88).bind fun m => replaceTile m 37 47).map fun m => (m.getD 47 0, m.getD 37 0)) =
    some (35, 0xFD) := by decide +kernel

/-- The worked case after R319: channel 210 at offset 0xCF2_0400. -/
theorem test_hbm_channel : (st [(Reg.hbmStatus, 0x6)]).core.hbmChannel 0x12_3456_7800 = 210 ∧
    (st [(Reg.hbmStatus, 0x6)]).core.channelAddr 210 (0xCF2_0400 / 64) = some 0x12_3456_7800 := by decide +kernel

/-- The worked case of R334: 10,352 entries on a channel that holds 2,912 staging granules of 512 bytes. -/
theorem test_stage_entries : 8 * (2912 * 8 / 18) = 10352 ∧ granulesBelow 360 0 1048576 = 2912 := by decide +kernel

/-- The worked case of The Numerics of Training: the overflow at X = 120, then patterns, Lining and scale of four elements. -/
theorem test_lining_ladder : (let p := lineLadder 3 4 0 [(.nearest, 0x4074_0000), (.nearest, 0xBC60_0000), (.nearest, 0x3DCD_0000), (.nearest, 0x3DCD_8000)]
    (p.out.pats, p.lining, p.out.x0, p.out.scale, p.out.retry1)) = (some [0x77, 0xB6, 0x4C, 0x4C], [4, 0, 13, 14], 120, 121, true) := by decide +kernel

/-- The same worked case under stochastic rounding: a draw below half rounds element 3 up to 14, one above leaves it at 13. -/
theorem test_lining_draws : lineTo 3 4 (.draw 0x3A1C_0F27) 121 0x3DCD_8000 = some (0x4C, 14) ∧
    lineTo 3 4 (.draw 0xC4E0_91B2) 121 0x3DCD_8000 = some (0x4C, 13) := by decide +kernel

/-- The dense-trunk example: 0.4997738 is stored as BF16 0x3EFF with Lining 226. -/
theorem test_bf16_lining : lineTo 2 8 .nearest 127 0x3EFFE25A = some (0x3EFF, 226) := by decide +kernel

/-- The dense-trunk example: with P0 50,000 and MULT 2, m = 60,000 is 10,000 in period 1 of 100,000. -/
theorem test_restart_period : restart 2 64 60000 50000 0 = (10000, 100000, 1) := by decide +kernel

/-- The reduction example: 7.875 over 31,680 samples is BF16 0x3982. -/
theorem test_mean_divisor : toBf16 (fDiv 0x40FC_0000 (ofNatL 31680)) = 0x3982 := by decide +kernel

/-- The embedding-row example: the word 0x6312_A000 is DGAP x12, x9, x10 and 0xC0C8_5324 is VSTEP v3, v4, v5, v6, x9. -/
theorem test_palm_words : enc 12 9 10 0 0 = BitVec.ofNat 27 0x6312_A000 ∧ fD (BitVec.ofNat 27 0xC0C8_5324) = 3 ∧
    fA (BitVec.ofNat 27 0xC0C8_5324) = 4 ∧ fB (BitVec.ofNat 27 0xC0C8_5324) = 5 := by decide +kernel

/-- The packing example: four zero blocks are one byte 0x03, a block with 20 non-zero words takes 49 bytes from 0x40, and the worst case is 693,568. -/
theorem test_pack_codes : packBlocks 2 8 (List.replicate 4 (List.replicate 64 0)) = [3] ∧
    (let b := blockCode 2 (List.replicate 20 0x8001 ++ List.replicate 44 0); (b.head?, b.length)) = (some 0x40, 49) ∧
    packWorst 344064 2 = 693568 := by decide +kernel

/-- The Sizer example: two pieces of 64 passes, and four shares in piece then column order on tiles 0 to 3. -/
theorem test_sizer_plan : (let d := { sized 1 0 .waiting [512, 128, 8192, 1, 1] with ext := [512, 128, 8192, 1, 1], recs := record 0x1000 0x22 2 1 ++ record 0x2000 0x12 2 2 ++ record 0x3000 2 2 3 }
    (d.pieces, d.pieceOf 1, ((st []).planShares d [0, 1, 2, 3]).map fun h => (h.tile, h.piece, h.cb0, h.cb1, h.rb1))) =
    (2, (64, 128), [(0, 0, 0, 1, 8), (1, 0, 1, 2, 8), (2, 1, 0, 1, 8), (3, 1, 1, 2, 8)]) := by decide +kernel

/-- The Doff example: modules 6 and 7 turn the sender's time into 999,998,477 and 999,999,290. -/
theorem test_doff_times : (st [(Reg.qlEchoOffset 1, 24372)]).core.localTick 1 1000000000 = 999998477 ∧
    (st [(Reg.qlEchoOffset 2, BitVec.ofNat 64 (2 ^ 32 - 13004))]).core.localTick 2 999998477 = 999999290 := by decide +kernel

/-- The dump example: 917,504 bytes advance the region by 917,632. -/
theorem test_dump_advance : roundUp (128 + 917504) 64 = 917632 := by decide +kernel

/-- The thread example: tile 17's SRAM window starts at 0x400_0880_0000. -/
theorem test_sram_window : (st []).core.place 0x400_0880_0000 = .sram 17 ∧ (st []).core.place 0x400_087F_FFFF = .sram 16 := by decide +kernel

/-! ## Well-formedness -/

/-- Each check refuses an operand out of its range. -/
theorem test_wf_refuses_stores : Instr.wf (.registerWrite 0x322 4 0) = false ∧ Instr.wf (.registerWrite 0x324 8 0) = false ∧
    Instr.wf (.registerWrite 0x320 2 0) = false ∧ Instr.wf (.registerWrite 0x1000_0000 8 0) = false := by decide

theorem test_wf_refuses_contexts : Instr.wf (.ctxStart 88 0) = false ∧ Instr.wf (.ctxStop 0 64) = false ∧ Instr.wf (.alu 88 0 0) = false ∧
    Instr.wf (.trap 0 64 0) = false ∧ Instr.wf (.descriptorSubmit 0 0 60 [1, 2, 3, 4, 5]) = false ∧
    Instr.wf (.descriptorSubmit 0 0 0 []) = false ∧ Instr.wf (.cuffJob 88) = false := by decide

theorem test_wf_refuses_numbers : Instr.wf (.epochReq 2) = false ∧ Instr.wf (.genDomainWrite 16 0) = false ∧
    Instr.wf (.groupScheduleWrite 256 0 0) = false ∧ Instr.wf (.groupScheduleWrite 0 5 0) = false ∧ Instr.wf (.groupRestoreWrite 0 1 0) = false ∧
    Instr.wf (.winOpen 16) = false ∧ Instr.wf (.fillCntWrite 64 0) = false ∧ Instr.wf (.bucketFinalise 64) = false ∧
    Instr.wf (.scrubRead 400 .none) = false ∧ Instr.wf (.adderSelfCheck 384 true) = false ∧ Instr.wf (.rtoExpire 4096) = false ∧
    Instr.wf (.qHeadWrite 16384 0) = false ∧ Instr.wf (.darnReqWrite 1024) = false ∧ Instr.wf (.marginMeasure 550 0 0) = false := by decide

theorem test_wf_refuses_lines : Instr.wf (.memRead 0x1020 .none) = false ∧ Instr.wf (.memRead 0x1000_0000_0000 .none) = false ∧
    Instr.wf (.memWrite 0x1000 0 [1] .none) = false ∧ Instr.wf (.add 0x1000 0x1_0000 0 (List.replicate 64 0)) = false ∧
    Instr.wf (.bitset 0x1000 [1]) = false ∧ Instr.wf (.zero 0x1001 0) = false := by decide

theorem test_wf_refuses_wires : Instr.wf (.ethFrameRx 2 true (List.replicate 14 0)) = false ∧ Instr.wf (.ethFrameRx 0 true [1]) = false ∧
    Instr.wf (.quirasDataFrame 12 ⟨0, 0, List.replicate 256 0, true, 0⟩) = false ∧ Instr.wf (.controlFrame 0 ⟨0, 0, [], true, 0⟩) = false ∧
    Instr.wf (.qlHandoverGo 0 4) = false ∧ Instr.wf (.frameSlot 12) = false ∧ Instr.wf (.qDirectEntry 0 [1]) = false := by decide

theorem test_wf_refuses_surroundings : Instr.wf (.stageB3 true (.failed 6 0)) = false ∧ Instr.wf (.stageB4 ⟨[], none, none, []⟩) = false ∧
    Instr.wf (.stageB6 [12] .good) = false ∧ Instr.wf (.governorTick []) = false ∧ Instr.wf (.pmbusTelemetryPoll []) = false ∧
    Instr.wf (.thermalTrip 30 0) = false ∧ Instr.wf (.droopDetect 16) = false ∧ Instr.wf (.droopStretchEnd 0 63) = false ∧
    Instr.wf (.calRoundHbm 384 0 ⟨true, true⟩) = false ∧ Instr.wf (.calRoundQuiras 12 1 false) = false ∧ Instr.wf (.blockResetPalm 88) = false ∧
    Instr.wf (.blockResetEthPort 2) = false ∧ Instr.wf (.blockResetQuirasLink 12) = false ∧ Instr.wf (.keyProgram 4 0) = false ∧
    Instr.wf (.keyRevoke 0 0x1_0000) = false ∧ Instr.wf (.keyCmdDone [1]) = false ∧ Instr.wf (.i2cRead ⟨0x5A, 256, 0⟩) = false ∧ Instr.wf (.i2cRead ⟨128, 0, 0⟩) = false := by decide

/-- In range, the same commands are accepted. -/
theorem test_wf_accepts : Instr.wf (.registerWrite 0x324 4 0) = true ∧ Instr.wf (.ctxStart 87 63) = true ∧ Instr.wf (.memRead 0x1040 .none) = true ∧
    Instr.wf (.descriptorSubmit 0 0 60 [1, 2, 3, 4]) = true ∧ Instr.wf (.qlHandoverGo 11 3) = true ∧ Instr.wf (.keyProgram 3 0xC1E5) = true ∧
    Instr.wf (.stageB4 ⟨List.replicate 16 [], none, none, []⟩) = true := by decide

/-! ## The queue -/

/-- An idle block's step is one tick of the timebase. -/
theorem test_idle_tick : (match step State.reset with | .next t => t.core.now | _ => 0) = 1 := by decide +kernel

/-- Commands leave the queue in the order they came. -/
theorem test_queue_order : (match step { st [] with pending := [.plTargetWrite 2, .plTargetWrite 3] } with
    | .next t => (t.pending, t.core.rd Reg.plCtrl) | _ => ([], 0)) = ([.plTargetWrite 3], 2) := by decide +kernel

/-! ## Witnesses

One theorem for each statement: a state and operands that meet all hypotheses of a clause, for every clause that has any. -/

theorem witness_StepTakesFrontCommand :
    (∃ (s : State) (c : Instr) (cs : List Instr), s.pending = c :: cs) :=
  ⟨{ st [] with pending := [.detHold] }, .detHold, [], by decide +kernel⟩

theorem witness_ResetsBeginAtTheirStage :
    (∃ s : State, s.pwr.powered = false) ∧
    (∃ (s : State) (ns : Nat), s.pwr.powered = true ∧ s.pwr.starting = false ∧ 3000 ≤ ns) ∧
    (∃ (s : State) (ns : Nat), s.pwr.powered = true ∧ s.pwr.tripped = false ∧ s.pwr.starting = false ∧ 3000 ≤ ns) ∧
    (∃ (s : State) (ns : Nat) (c : Instr), ns < 2000 ∧ (c = .porN ns ∨ c = .warmRstN ns)) ∧
    (∃ (s : State) (ns : Nat) (c : Instr), ns < 2000 ∧ (c = .porN ns ∨ c = .warmRstN ns)) ∧
    (∃ s : State, s.pwr.starting = false ∧ s.ticking = true) :=
  ⟨⟨stP fun p => { p with powered := false }, by decide +kernel⟩,
   ⟨stP id, 3000, by decide +kernel⟩,
   ⟨stP id, 3000, by decide +kernel⟩,
   ⟨stP id, 1999, .porN 1999, by decide +kernel⟩,
   ⟨stP id, 1999, .warmRstN 1999, by decide +kernel⟩,
   ⟨stP id, by decide +kernel⟩⟩

theorem witness_WarmResetKeepsDramAndZeroesSram :
    (∃ (s : State) (c : Instr), s.warmsBy c ∧ s.core.fld Reg.hbStatus 2 0 = 0) ∧
    (∃ (s : State) (c : Instr), s.warmsBy c ∧ s.core.fld Reg.hbStatus 2 0 = 0) ∧
    (∃ (s : State) (c : Instr), s.warmsBy c ∧ s.core.fld Reg.hbStatus 2 0 = 0) ∧
    (∃ (s : State) (c : Instr), s.warmsBy c ∧ s.core.fld Reg.hbStatus 2 0 ≠ 0) ∧
    (∃ (s : State) (c : Instr), s.warmsBy c ∧ s.core.fld Reg.hbStatus 2 0 ≠ 0) ∧
    (∃ (s : State) (c : Instr), s.warmsBy c ∧ s.core.fld Reg.hbStatus 2 0 ≠ 0) :=
  ⟨⟨{ stP id with core := { (stP id).core with mem := [(5, 7), (0x400_0000_0000, 9)] } }, .rstWarm, ⟨by decide +kernel, by decide +kernel, .inl ⟨rfl, by decide +kernel⟩⟩, by decide +kernel⟩,
   ⟨{ stP id with core := { (stP id).core with mem := [(5, 7), (0x400_0000_0000, 9)] } }, .warmRstN 3000, ⟨by decide +kernel, by decide +kernel, .inr (.inl ⟨3000, rfl, by decide, by decide +kernel⟩)⟩, by decide +kernel⟩,
   ⟨{ stP id with core := { (stP id).core with mem := [(5, 7), (0x400_0000_0000, 9)] }, net := { Net.initial with resetAt := some 0 } }, .resetCommandFire, ⟨by decide +kernel, by decide +kernel, .inr (.inr ⟨rfl, by decide +kernel, 0, rfl, by decide +kernel⟩)⟩, by decide +kernel⟩,
   ⟨{ ({ stP id with core := { (stP id).core with mem := [(5, 7), (0x400_0000_0000, 9)] } }) with core := (({ stP id with core := { (stP id).core with mem := [(5, 7), (0x400_0000_0000, 9)] } })).core.wr Reg.hbStatus 2 }, .rstWarm, ⟨by decide +kernel, by decide +kernel, .inl ⟨rfl, by decide +kernel⟩⟩, by decide +kernel⟩,
   ⟨{ ({ stP id with core := { (stP id).core with mem := [(5, 7), (0x400_0000_0000, 9)] } }) with core := (({ stP id with core := { (stP id).core with mem := [(5, 7), (0x400_0000_0000, 9)] } })).core.wr Reg.hbStatus 2 }, .warmRstN 3000, ⟨by decide +kernel, by decide +kernel, .inr (.inl ⟨3000, rfl, by decide, by decide +kernel⟩)⟩, by decide +kernel⟩,
   ⟨{ ({ stP id with core := { (stP id).core with mem := [(5, 7), (0x400_0000_0000, 9)] }, net := { Net.initial with resetAt := some 0 } }) with core := (({ stP id with core := { (stP id).core with mem := [(5, 7), (0x400_0000_0000, 9)] }, net := { Net.initial with resetAt := some 0 } })).core.wr Reg.hbStatus 2 }, .resetCommandFire, ⟨by decide +kernel, by decide +kernel, .inr (.inr ⟨rfl, by decide +kernel, 0, rfl, by decide +kernel⟩)⟩, by decide +kernel⟩⟩

theorem witness_StagesLeadToRunningOrRestart :
    (∃ s : State, s.inStage 0 = true) ∧
    (∃ (s : State) (v : Bool), s.inStage 1 = true ∧ (s.pwr.fromS4 = false ∨ v = true)) ∧
    (∃ (s : State) (i : Image), chooseImage (checkSlot s.part.fuses s.part.flash 0).2.2 (checkSlot s.part.fuses s.part.flash 1).2.2 = some i ∧ s.inStage 2 = true) ∧
    (∃ s : State, s.inStage 3 = true) ∧
    (∃ (s : State) (tr : Training), s.inStage 4 = true ∧ tr.hbmFail = none ∧ ddrFault s.pat.layout tr = none) ∧
    (∃ (s : State) (m : List Nat), s.inStage 5 = true ∧ applyReplacements s.pat.map (recordsOf s.part.flash 2) = some m) ∧
    (∃ (s : State) (ups : List Nat), s.inStage 6 = true) ∧
    (∃ (s : State) (c : Instr) (k code : Nat), s.stageFailure c = some (k, code) ∧ s.inStage k = true ∧ s.core.fld Reg.startStatus 6 5 < 2) ∧
    (∃ (s : State) (c : Instr) (k code : Nat), s.stageFailure c = some (k, code) ∧ s.inStage k = true ∧ s.core.fld Reg.startStatus 6 5 < 2) ∧
    (∃ (s : State) (c : Instr) (k code : Nat), s.stageFailure c = some (k, code) ∧ s.inStage k = true ∧ s.core.fld Reg.startStatus 6 5 < 2) ∧
    (∃ (s : State) (c : Instr) (k code : Nat), s.stageFailure c = some (k, code) ∧ s.inStage k = true ∧ s.core.fld Reg.startStatus 6 5 < 2) ∧
    (∃ (s : State) (c : Instr) (k code : Nat), s.stageFailure c = some (k, code) ∧ s.inStage k = true ∧ s.core.fld Reg.startStatus 6 5 < 2) ∧
    (∃ (s : State) (c : Instr) (k code : Nat), s.stageFailure c = some (k, code) ∧ s.inStage k = true ∧ s.core.fld Reg.startStatus 6 5 < 2) ∧
    (∃ (s : State) (c : Instr) (k code : Nat), s.stageFailure c = some (k, code) ∧ s.inStage k = true ∧ s.core.fld Reg.startStatus 6 5 < 2) ∧
    (∃ (s : State) (c : Instr) (k code : Nat), s.stageFailure c = some (k, code) ∧ s.inStage k = true ∧ s.core.fld Reg.startStatus 6 5 < 2) ∧
    (∃ (s : State) (c : Instr) (k code : Nat), s.stageFailure c = some (k, code) ∧ s.inStage k = true ∧ 2 ≤ s.core.fld Reg.startStatus 6 5) ∧
    (∃ (s : State) (c : Instr) (k code : Nat), s.stageFailure c = some (k, code) ∧ s.inStage k = true ∧ 2 ≤ s.core.fld Reg.startStatus 6 5) :=
  ⟨⟨stage 0, by decide +kernel⟩,
   ⟨stage 1, false, by decide +kernel⟩,
   ⟨{ stage 2 with part := testPart }, testRun, test_image_chosen, by decide +kernel⟩,
   ⟨stage 3, by decide +kernel⟩,
   ⟨stage 4, { hbmFail := none, ddrFail := none, dimms := List.replicate 16 [{ kind := 0, gib := 16, ranks := 1 }], lost := [] }, by decide +kernel⟩,
   ⟨stage 5, [], by decide +kernel⟩,
   ⟨stage 6, [0], by decide +kernel⟩,
   ⟨stage 1, .stageB1 false true, 1, 1, by decide +kernel⟩,
   ⟨{ stage 1 with pwr := { (stage 1).pwr with fromS4 := true } }, .stageB1 true false, 1, 0x21, by decide +kernel⟩,
   ⟨stage 2, .stageB2, 2, 0x10, by decide +kernel⟩,
   ⟨stage 3, .stageB3 false .good, 3, 0x20, by decide +kernel⟩,
   ⟨stage 3, .stageB3 true (.failed 1 1), 3, 0x21, by decide +kernel⟩,
   ⟨stage 4, .stageB4 { hbmFail := some (2, 3), ddrFail := none, dimms := List.replicate 16 [{ kind := 0, gib := 16, ranks := 1 }], lost := [] }, 4, 0x32, by decide +kernel⟩,
   ⟨stage 4, .stageB4 { hbmFail := none, ddrFail := some 3, dimms := List.replicate 16 [{ kind := 0, gib := 16, ranks := 1 }], lost := [] }, 4, 0x3D, by decide +kernel⟩,
   ⟨stage 3, .stageTimeout, 3, 0xF1, by decide +kernel⟩,
   ⟨stage 0x43, .stageTimeout, 3, 0xF1, by decide +kernel⟩,
   ⟨stage 0x46, .stageTimeout, 6, 0xF1, by decide +kernel⟩⟩

theorem witness_EpochsAndTheWearJournal :
    (∃ (s : State) (slot : Nat) (r : Image), s.core.bit Reg.epochCtrl 0 = false ∧ s.pat.run = some r ∧ r.slot ≠ slot % 2 ∧ s.pwr.keyOp = none ∧ s.ticking = true) ∧
    (∃ (s : State) (slot : Nat) (r : Image), s.core.bit Reg.epochCtrl 0 = false ∧ s.pat.run = some r ∧ r.slot = slot % 2 ∧ s.ticking = true) ∧
    (∃ (s : State) (slot : Nat) (r i : Image), (checkSlot s.part.fuses s.part.flash slot).2.2 = some i ∧ s.pat.run = some r ∧ r.seq < i.seq ∧ s.pat.checking = some slot ∧ s.pwr.epochQueued = false ∧ s.pwr.keyQueued = none ∧ fixedDiffers r i = none ∧ s.ticking = true) ∧
    (∃ (s : State) (slot : Nat), s.pat.checking = some slot ∧ s.pwr.epochQueued = false ∧ s.pwr.keyQueued = none ∧ (checkSlot s.part.fuses s.part.flash slot).2.2 = none ∧ s.ticking = true) ∧
    (∃ s : State, s.core.bit Reg.epochCtrl 0 = true ∧ s.pwr.keyQueued = none ∧ s.ticking = true) ∧
    (∃ s : State, due s.integ.marginAt (2 ^ 42) s.core.now.toNat = true ∧ s.ticking = true) ∧
    (∃ s : State, halfRecords - 1024 ≤ s.core.fld Reg.journalStatus 18 1 ∧ s.ticking = true) :=
  ⟨⟨run0 [] id, 1, img 0, by decide +kernel⟩,
   ⟨run0 [] id, 0, img 0, by decide +kernel⟩,
   ⟨{ run0 [] (fun p => { p with checking := some 0, run := some { testRun with seq := 1 } }) with part := testPart }, 0, { testRun with seq := 1 }, testRun, test_image_valid, rfl, by decide, by decide +kernel⟩,
   ⟨run0 [] fun p => { p with checking := some 1 }, 1, by decide +kernel⟩,
   ⟨run0 [(Reg.epochCtrl, 1)] id, by decide +kernel⟩,
   ⟨{ run0 [] id with core := { (run0 [] id).core with ceRows := [(3, 4)] } }, by decide +kernel⟩,
   ⟨run0 [(Reg.journalStatus, 262142)] id, by decide +kernel⟩⟩

theorem witness_ContextsStartStopAndWake :
    (∃ (s : State) (t n : Nat), t < s.core.active ∧ n < 64 ∧ (s.core.ctxState t n = 0 ∨ s.core.ctxState t n = 3) ∧ s.ticking = true) ∧
    (∃ (s : State) (t n : Nat), (s.core.ctxState t n = 1 ∨ s.core.ctxState t n = 2) ∧ s.ticking = true) ∧
    (∃ (s : State) (t n : Nat), (∀ x, s.ctx? t n = some x → x.blocked = false) ∧ t < s.core.active ∧ n < 64 ∧ s.core.ctxState t n = 1 ∧ s.ticking = true) ∧
    (∃ (s : State) (t n : Nat), t < s.core.active ∧ n < 64 ∧ s.core.ctxState t n = 2 ∧ s.ticking = true) ∧
    (∃ (s : State) (t n : Nat) (x : Ctx), s.ctx? t n = some x ∧ s.core.ctxState t n = 2 ∧ BitVec.ofNat 64 (leNat (s.palmRead t n x.waitAddr 8).2) ≠ x.waitVal ∧ s.ticking = true) :=
  ⟨⟨st [(Reg.ctxPc 0 0, 0x104), (Reg.ctxArg 0 0, 7)], 0, 0, by decide +kernel⟩,
   ⟨withCtx (ctx 4) [], 0, 0, by decide +kernel⟩,
   ⟨withCtx (ctx 4) [], 0, 0, by intro x h; cases h; rfl, by decide +kernel⟩,
   ⟨withCtx (ctx 4) [(Reg.ctxStatus 0 0, 2)], 0, 0, by decide +kernel⟩,
   ⟨withCtx ({ ctx 0x100 with waitAddr := 0x2000, waitVal := 1 }) [(Reg.ctxStatus 0 0, 2)], 0, 0, { ctx 0x100 with waitAddr := 0x2000, waitVal := 1 }, by decide +kernel⟩⟩

theorem witness_SubmissionTakesSlotWaitsOrFails :
    (∃ (s : State) (t n : Nat) (data : List Byte), t < s.core.active ∧ n < 64 ∧ data.length = 64 ∧ s.slotFree t (leField data 1 1 % 16) = true ∧ s.ticking = true) ∧
    (∃ (s : State) (t n : Nat) (data : List Byte), t < s.core.active ∧ n < 64 ∧ data.length = 64 ∧ s.slotFree t (leField data 1 1 % 16) = false ∧ s.ticking = true) ∧
    (∃ (s : State) (t n off : Nat) (data : List Byte), t < s.core.active ∧ n < 64 ∧ (off ≠ 0 ∨ data.length ≠ 64) ∧ s.ticking = true) :=
  ⟨⟨st [], 0, 63, List.replicate 64 0, by decide +kernel⟩,
   ⟨wk (List.replicate 16 (op 0 0 0 .waiting)) id, 0, 0, List.replicate 64 0, by decide +kernel⟩,
   ⟨st [], 0, 0, 0, List.replicate 8 0, by decide +kernel⟩⟩

theorem witness_AdmissionHandsOn :
    (∃ (s s0 : State) (id : Nat) (d d1 d2 d3 : Desc), s0 = (s.readBy (.desc id)).latched id ∧ d1 = { d with adm := s.work.nextAdm, step := s.core.step, latch := s.latchFor d } ∧ id < s.work.nextId ∧ s.desc? id = some d ∧ d.phase = .waiting ∧ s.storesSeen d = true ∧ d.engine ≤ 3 ∧ 2 ≤ d.engine ∧ s.core.sleepState = 0 ∧ s.core.genState d.gen = 0 ∧ s.integ.boundaryWait = false ∧ (d.flag 4 && s.fenced d) = false ∧ s.core.guarded d.gen = false ∧ d1.ownOk = true ∧ d.recBase % 32 = 0 ∧ s.core.okRange d.recBase (32 * d.nrec) = true ∧ s.core.fetching (.desc id) = false ∧ (s0.readRecs id d1).desc? id = some d2 ∧ (s0.readRecs id d1).core.want = [] ∧ d2.conds = [] ∧ d2.formBad s.pat = none ∧ d2.flag 3 = false ∧ ((s0.readRecs id d1).readExtents id d2).desc? id = some d3 ∧ d3.conds = [] ∧ ((s0.readRecs id d1).readExtents id d2).extentChecks d3 = none ∧ (∀ i, i < 8 → s.core.dumpMatch d3 i = none) ∧ s.dumpsLeft id 1 = false ∧ (d.opcode ≠ 0x61 ∨ bitOf d.arg 6 = false) ∧ s.ticking = true) :=
  ⟨zeroS, ((zeroS.readBy (.desc 0)).latched 0), 0, zeroD, zeroStep, (((((zeroS.readBy (.desc 0)).latched 0).readRecs 0 zeroStep).desc? 0).getD zeroD), (((((zeroS.readBy (.desc 0)).latched 0).readRecs 0 zeroStep).readExtents 0 (((((zeroS.readBy (.desc 0)).latched 0).readRecs 0 zeroStep).desc? 0).getD zeroD)).desc? 0).getD zeroD, by decide +kernel⟩

theorem witness_DescriptorsLeaveWithTheirRecord :
    (∃ (s : State) (id : Nat) (d : Desc), id < s.work.nextId ∧ s.desc? id = some d ∧ d.phase = .waiting ∧ s.storesSeen d = true ∧ s.core.sleepState = 0 ∧ 3 < d.engine ∧ s.ticking = true) ∧
    (∃ (s : State) (id : Nat) (d : Desc), id < s.work.nextId ∧ s.desc? id = some d ∧ d.phase = .waiting ∧ s.storesSeen d = true ∧ s.core.sleepState = 0 ∧ d.engine ≤ 3 ∧ s.core.genState d.gen = 2 ∧ s.ticking = true) ∧
    (∃ (s : State) (id : Nat) (d : Desc), id < s.work.nextId ∧ s.desc? id = some d ∧ d.phase = .waiting ∧ d.engine ≤ 3 ∧ s.core.genState d.gen = 1 ∧ s.ticking = true) ∧
    (∃ (s : State) (id : Nat) (d : Desc), id < s.work.nextId ∧ s.desc? id = some d ∧ d.phase = .finished ∧ d.acks = 0 ∧ s.dumpsLeft id 0 = false ∧ s.ticking = true) ∧
    (∃ (s : State) (id : Nat) (d : Desc), id < s.work.nextId ∧ s.desc? id = some d ∧ d.phase = .ready ∧ s.core.genState d.gen = 2 ∧ d.conds = [] ∧ (∀ j ∈ s.work.dumps, j.desc = id → j.begun = false) ∧ (∀ b ∈ s.red.buckets, b.desc ≠ id) ∧ s.ticking = true) ∧
    (∃ (s : State) (id : Nat) (d : Desc), s.desc? id = some d ∧ d.phase = .finished ∧ d.acks = 0 ∧ s.dumpsLeft id 0 = false ∧ d.conds = [] ∧ d.cwrite = true ∧ d.compl % 16 = 0 ∧ s.core.isLocal d.compl = true ∧ s.core.okRange d.compl 16 = true ∧ s.core.isUe (gaLocal d.compl / 64) = false ∧ s.core.mustWait (gaLocal d.compl) = false ∧ s.core.stageAt (gaLocal d.compl) = none ∧ d.mixed = false ∧ (∀ e ∈ s.work.descs, s.mixes d e = [] ∧ s.mixes e d = []) ∧ s.work.stores = [] ∧ s.work.direct = [] ∧ s.ticking = true) :=
  ⟨⟨wk [op 1 4 0 .waiting] id, 0, op 1 4 0 .waiting, by decide +kernel⟩,
   ⟨wk [desc (raw 1 0 3 0 0x800 0 0x1000 [] 0) .waiting []] id, 0, desc (raw 1 0 3 0 0x800 0 0x1000 [] 0) .waiting [], by decide +kernel⟩,
   ⟨wk [desc (raw 1 0 3 0 1 0 0x1000 [] 0) .waiting []] id, 0, desc (raw 1 0 3 0 1 0 0x1000 [] 0) .waiting [], by decide +kernel⟩,
   ⟨wk [op 1 0 0 .finished] id, 0, op 1 0 0 .finished, by decide +kernel⟩,
   ⟨wk [desc (raw 1 0 3 0 0x800 0 0x1000 [] 0) .ready []] id, 0, desc (raw 1 0 3 0 0x800 0 0x1000 [] 0) .ready [], by decide +kernel⟩,
   ⟨wk [desc (raw 1 0 3 0 0 0 0x1000 [] 0x0100_0000_0000_0100) .finished []] id, 0, desc (raw 1 0 3 0 0 0 0x1000 [] 0x0100_0000_0000_0100) .finished [], by decide +kernel⟩⟩

theorem witness_GenerationAndModuleNumberWrites :
    (∃ (s : State) (d : Nat) (v : Word), d < 16 ∧ (getF v 11 0 + 4096 - getF v 27 16) % 4096 ≤ 2047 ∧ (getF v 27 16 + 4096 - s.core.fld (Reg.genDomain d) 27 16) % 4096 ≤ 2047 ∧ s.ticking = true) ∧
    (∃ (s : State) (d : Nat) (v : Word), d < 16 ∧ (2047 < (getF v 11 0 + 4096 - getF v 27 16) % 4096 ∨ 2047 < (getF v 27 16 + 4096 - s.core.fld (Reg.genDomain d) 27 16) % 4096) ∧ s.ticking = true) ∧
    (∃ (s : State) (v : Word), s.core.peerLive = false ∧ s.ticking = true) ∧
    (∃ (s : State) (v : Word), s.core.peerLive = true ∧ s.ticking = true) :=
  ⟨⟨st [], 0, 0x0000_07FF, by decide +kernel⟩,
   ⟨st [], 0, 0x0000_0800, by decide +kernel⟩,
   ⟨st [], 0x8000_0FFF, by decide +kernel⟩,
   ⟨st [(Reg.pcCtrl 5, 4), (Reg.pcStatus 5, 1)], 0x8000_0001, by decide +kernel⟩⟩

theorem witness_MittSharesRunAndProductsFinish :
    (∃ (s : State) (t : Nat) (d : Desc) (h : Share), s.nextShare t = some (d, h) ∧ h.piece = 0 ∧ s.mayRun d (fun s => s.firstPass d h) ∧ s.ticking = true) ∧
    (∃ (s : State) (t : Nat) (d : Desc) (h : Share), s.inArray t = some (d, h) ∧ s.accFree d h = true ∧ h.piece = 0 ∧ s.mayRun d (fun s => s.runPass d h) ∧ s.ticking = true) ∧
    (∃ (s : State) (t : Nat) (d : Desc) (h : Share) (a : AccTile) (p : Partial), s.combinable t = some (d, h, a, p) ∧ s.core.ueLines (s.core.global p.slot) 16384 = [] ∧ s.ticking = true) ∧
    (∃ (s : State) (t : Nat) (d : Desc) (h : Share) (a : AccTile), s.mayRun d (fun s => s.drainEnd d h a) ∧ s.drainable t = some (d, h, a) ∧ h.acc.filter (· ≠ a) ≠ [] ∧ s.ticking = true) ∧
    (∃ (s : State) (t : Nat) (d : Desc) (h : Share) (a : AccTile), s.mayRun d (fun s => s.drainEnd d h a) ∧ s.drainable t = some (d, h, a) ∧ d.phase = .running ∧ s.work.shares = [h] ∧ h.acc = [a] ∧ h.started = true ∧ h.pass = h.passCount d ∧ s.ticking = true) ∧
    (∃ (s : State) (d : Desc) (h : Share) (a : AccTile) (c : Nat → Instr) (op : Nat), (c, op) ∈ [(Instr.mmFwd, 1), (Instr.mmDgrad, 2), (Instr.mmWgrad, 3), (Instr.mmStats, 4)] ∧ s.mayRun d (fun s => s.drainEnd d h a) ∧ s.drainable h.tile = some (d, h, a) ∧ d.opcode = op ∧ d.phase = .running ∧ s.work.shares = [h] ∧ h.acc = [a] ∧ h.started = true ∧ h.pass = h.passCount d ∧ s.ticking = true) :=
  ⟨⟨wk [op 1 0 0 .ready] fun w => { w with shares := [share false 0 []], parts := [] }, 0, op 1 0 0 .ready, share false 0 [], by unfold State.mayRun State.lacksNothing; decide +kernel⟩,
   ⟨wk [op 1 0 0 .running] fun w => { w with shares := [share true 0 []], parts := [] }, 0, op 1 0 0 .running, share true 0 [], by unfold State.mayRun State.lacksNothing; decide +kernel⟩,
   ⟨wk [(sized 1 0 .running [64, 64, 1024, 1, 1])] fun w => { w with shares := [share true 9 [acc 0 1]], parts := [⟨0, 0x400_0001_0000, 0, 1, 0, 0, List.replicate 4096 0x3F80_0000⟩] }, 0, (sized 1 0 .running [64, 64, 1024, 1, 1]), share true 9 [acc 0 1], acc 0 1, ⟨0, 0x400_0001_0000, 0, 1, 0, 0, List.replicate 4096 0x3F80_0000⟩, by decide +kernel⟩,
   ⟨wk [op 1 0 0 .running] fun w => { w with shares := [share true 1 [acc 0 1, acc 1 1]], parts := [] }, 0, op 1 0 0 .running, share true 1 [acc 0 1, acc 1 1], acc 0 1, State.drain_mayRun _ _ _ _ (by decide +kernel) (by decide +kernel) (by decide +kernel) (by decide +kernel) (by decide +kernel), by decide +kernel⟩,
   ⟨wk [op 1 0 0 .running] fun w => { w with shares := [share true 1 [acc 0 1]], parts := [] }, 0, op 1 0 0 .running, share true 1 [acc 0 1], acc 0 1, State.drain_mayRun _ _ _ _ (by decide +kernel) (by decide +kernel) (by decide +kernel) (by decide +kernel) (by decide +kernel), by decide +kernel⟩,
   ⟨wk [op 1 0 0 .running] fun w => { w with shares := [share true 1 [acc 0 1]], parts := [] }, op 1 0 0 .running, share true 1 [acc 0 1], acc 0 1, Instr.mmFwd, 1, by simp, State.drain_mayRun _ _ _ _ (by decide +kernel) (by decide +kernel) (by decide +kernel) (by decide +kernel) (by decide +kernel), by decide +kernel⟩⟩

theorem witness_SizerReservesAndFills :
    (∃ (s : State) (id : Nat) (d : Desc), s.desc? id = some d ∧ d.phase = .reserving ∧ s.sizerQueue d = false ∧ s.works d = true ∧ (∀ t ∈ s.planTiles id, areaNeed d.pieces (s.work.shares.filter fun h => h.desc == id) t ≤ 4 * s.core.fld (Reg.sizerArea t) 15 8 ∧ ((s.work.resv.filter fun r => r.tile == t).map (·.units.length)).sum + areaNeed d.pieces (s.work.shares.filter fun h => h.desc == id) t ≤ 4 * s.core.fld (Reg.sizerArea t) 15 8) ∧ s.ticking = true) ∧
    (∃ (s : State) (id t : Nat) (d : Desc), s.desc? id = some d ∧ d.phase = .reserving ∧ s.sizerQueue d = false ∧ s.works d = true ∧ t ∈ s.planTiles id ∧ 4 * s.core.fld (Reg.sizerArea t) 15 8 < areaNeed d.pieces (s.work.shares.filter fun h => h.desc == id) t ∧ s.ticking = true) ∧
    (∃ (s : State) (id blk : Nat) (d : Desc) (f : Fill), (∀ i g, i < blk → (s.work.fills.filter fun f => f.desc == id)[i]? = some g → g.sent = true) ∧ s.desc? id = some d ∧ (d.phase = .ready ∨ d.phase = .running) ∧ (s.work.fills.filter fun f => f.desc == id)[blk]? = some f ∧ f.sent = false ∧ s.mayRun d (fun s => s.sendFill d f) ∧ s.ticking = true) :=
  ⟨⟨{ (wk [op 1 0 0 .reserving] fun w => { w with shares := [{ share false 0 [] with spill := 5 }] }) with core := (wk [op 1 0 0 .reserving] fun w => { w with shares := [{ share false 0 [] with spill := 5 }] }).core.wr (Reg.sizerArea 0) 0x200 }, 0, op 1 0 0 .reserving, by decide +kernel⟩,
   ⟨{ (wk [op 1 0 0 .reserving] fun w => { w with shares := [{ share false 0 [] with spill := 5 }] }) with core := (wk [op 1 0 0 .reserving] fun w => { w with shares := [{ share false 0 [] with spill := 5 }] }).core.wr (Reg.sizerArea 0) 0x100 }, 0, 0, op 1 0 0 .reserving, by decide +kernel⟩,
   ⟨(wk [op 1 0 0 .ready] fun w => { w with fills := [{ (⟨0, 1, [0, 0, 0, 0, 0], 0x3000, false⟩ : Fill) with sent := true }, ⟨0, 1, [0, 0, 0, 0, 0], 0x3000, false⟩] }), 0, 1, op 1 0 0 .ready, ⟨0, 1, [0, 0, 0, 0, 0], 0x3000, false⟩, (by intro i g h e; cases Nat.lt_one_iff.mp h; cases e; rfl), by unfold State.mayRun State.lacksNothing; decide +kernel⟩⟩

theorem witness_CuffJobsRun :
    (∃ (s : State) (id : Nat) (d : Desc) (j : CuffJob) (c : Nat → Instr) (op : Nat), (c, op) ∈ [(Instr.copy, 0x20), (Instr.permute, 0x21), (Instr.skewCopy, 0x22), (Instr.packInput, 0x23), (Instr.unpackInput, 0x24)] ∧ s.desc? id = some d ∧ d.opcode = op ∧ s.work.jobs.filter (fun j => j.desc == id) = [j] ∧ s.firstJob j.tile = some (d, j) ∧ s.jobSteps d j ≤ j.done + 1 ∧ s.mayRun d (fun s => s.runJob d j) ∧ s.ticking = true) ∧
    (∃ (s : State) (t : Nat) (j : CuffJob) (d : Desc), s.firstJob t = some (d, j) ∧ 0x20 ≤ d.opcode ∧ s.jobSteps d j ≤ j.done + 1 ∧ s.mayRun d (fun s => s.runJob d j) ∧ s.ticking = true) ∧
    (∃ (s : State) (t : Nat) (j : CuffJob) (d : Desc), s.mayRun d (fun s => s.runJob d j) ∧ s.firstJob t = some (d, j) ∧ 0x20 ≤ d.opcode ∧ j.done + 1 < s.jobSteps d j ∧ s.ticking = true) ∧
    (∃ (s : State) (t : Nat) (j : CuffJob) (d : Desc), s.firstJob t = some (d, j) ∧ d.opcode < 0x20 ∧ s.works d = true ∧ j.started = false ∧ s.ticking = true) :=
  ⟨⟨wk [op 0x20 1 0 .ready] fun w => { w with jobs := [job] }, 0, op 0x20 1 0 .ready, job, Instr.copy, 0x20, by simp, by unfold State.mayRun State.lacksNothing; decide +kernel⟩,
   ⟨wk [op 0x20 1 0 .ready] fun w => { w with jobs := [job] }, 0, job, op 0x20 1 0 .ready, by unfold State.mayRun State.lacksNothing; decide +kernel⟩,
   ⟨turnS, 0, { job with rb1 := 2, cb1 := 2 }, turnD, ⟨by decide +kernel, by decide +kernel, (State.turnStep_want _ turnD _ (0, 0) rfl rfl (by decide +kernel) (by decide +kernel) (by decide +kernel) (by decide +kernel)).trans (State.readFor_unset_want _ _ _ _ _ _ (by decide +kernel))⟩, by decide +kernel⟩,
   ⟨wk [op 2 0 0 .ready] fun w => { w with jobs := [job] }, 0, job, op 2 0 0 .ready, by decide +kernel⟩⟩

theorem witness_GloveDescriptorsAndStagesRun :
    (∃ (s s1 : State) (d : Desc) (g : GloveRun) (k : Nat), s1 = s.gloveBegin d.tile ∧ s1.gloveRun? d.tile = some g ∧ g.desc = d.id ∧ s1.desc? d.id = some d ∧ d.opcode = 0x40 ∧ d.kinds[g.stage]? = some k ∧ d.kinds.length = g.stage + 1 ∧ s1.mayRun d (fun s => s.chainStage d k g) ∧ s.ticking = true) ∧
    (∃ (s s1 : State) (d : Desc) (g : GloveRun), s1 = s.gloveBegin d.tile ∧ s1.gloveRun? d.tile = some g ∧ g.desc = d.id ∧ s1.desc? d.id = some d ∧ d.opcode = 0x43 ∧ s1.mayRun d (fun s => s.resetTouch d) ∧ s.ticking = true) ∧
    (∃ (s s1 s2 : State) (d d2 : Desc) (g g1 : GloveRun), s1 = s.gloveBegin d.tile ∧ s1.gloveRun? d.tile = some g ∧ g.desc = d.id ∧ s1.desc? d.id = some d ∧ d.opcode = 0x41 ∧ g.stage = 0 ∧ s1.mayRun d (fun s => s.dispatchRows d g) ∧ s2 = s1.stage d (fun s => s.dispatchRows d g) ∧ s2.gloveRun? d.tile = some g1 ∧ s2.desc? d.id = some d2 ∧ ((s2.readBy (.desc d.id)).writeHeads d2 g1.tail.heads).2 = [] ∧ s2.mayRun d2 (fun s => s.dispatchTail d2 g1) ∧ s.ticking = true) ∧
    (∃ (s : State) (d : Desc) (g : GloveRun), s.gloveRun? d.tile = some g ∧ g.desc = d.id ∧ s.desc? d.id = some d ∧ d.opcode = 0x41 ∧ g.stage = 1 ∧ ((s.readBy (.desc d.id)).writeHeads d g.tail.heads).2 = [] ∧ s.mayRun d (fun s => s.dispatchTail d g) ∧ s.ticking = true) ∧
    (∃ (s : State) (d : Desc) (g : GloveRun), s.gloveRun? d.tile = some g ∧ g.desc = d.id ∧ s.desc? d.id = some d ∧ d.opcode = 0x41 ∧ g.stage = 1 ∧ ((s.readBy (.desc d.id)).writeHeads d g.tail.heads).2 ≠ [] ∧ s.mayRun d (fun s => s.dispatchTail d g) ∧ s.ticking = true) ∧
    (∃ (s s1 : State) (d : Desc) (g : GloveRun), s1 = s.gloveBegin d.tile ∧ s1.gloveRun? d.tile = some g ∧ g.desc = d.id ∧ s1.desc? d.id = some d ∧ d.opcode = 0x42 ∧ bitOf d.arg 0 = true ∧ s1.mayRun d (fun s => s.returnStage d) ∧ s.ticking = true) ∧
    (∃ (s s1 : State) (d : Desc) (g : GloveRun), s1 = s.gloveBegin d.tile ∧ s1.gloveRun? d.tile = some g ∧ g.desc = d.id ∧ s1.desc? d.id = some d ∧ d.opcode = 0x42 ∧ bitOf d.arg 0 = false ∧ s1.mayRun d (fun s => s.sumStage d) ∧ s.ticking = true) ∧
    (∃ (s : State) (t : Nat) (d : Desc), s.gloveNext t = some d ∧ s.desc? d.id = some d ∧ d.opcode ≠ 0x40 ∧ s.ticking = true) ∧
    (∃ (s s1 : State) (t k : Nat) (d : Desc) (g : GloveRun), s1 = s.gloveBegin t ∧ s1.chainAt t = some (d, 1) ∧ s1.gloveRun? t = some g ∧ d.tile = t ∧ d.kinds[g.stage + 1]? = some k ∧ (k = 2 ∨ k = 3) ∧ s1.mayRun d (fun s => s.chainStage d 1 g) ∧ s.ticking = true) ∧
    (∃ (s : State) (t : Nat) (d : Desc) (g : GloveRun), s.chainAt t = some (d, 2) ∧ s.gloveRun? t = some g ∧ d.tile = t ∧ d.kinds[g.stage + 1]? = some 3 ∧ s.mayRun d (fun s => s.chainStage d 2 g) ∧ s.ticking = true) ∧
    (∃ (s s1 : State) (t k : Nat) (d : Desc) (g g1 : GloveRun), s1 = s.stage d (fun s => s.chainStage d 3 g) ∧ s.chainAt t = some (d, 3) ∧ s.gloveRun? t = some g ∧ d.tile = t ∧ d.kinds.length = g.stage + 2 ∧ d.kinds[g.stage + 1]? = some k ∧ (k = 4 ∨ k = 5) ∧ s.mayRun d (fun s => s.chainStage d 3 g) ∧ s1.gloveRun? t = some g1 ∧ s1.mayRun d (fun s => s.chainStage d k g1) ∧ s.ticking = true) ∧
    (∃ (s : State) (t : Nat) (d e : Desc), s.core.bit (Reg.gloveCtrl t) 1 = true ∧ s.aheadCandidates t = [d] ∧ s.aheadOk d = true ∧ s.lacksNothing (.ahead d.id) (fun s => s.aheadFill d) ∧ (s.readBy (.ahead d.id)).aheadView d = some e ∧ s.ticking = true) :=
  ⟨⟨gl (chain [1, 2, 3, 4] .running) (grun 3), (gl (chain [1, 2, 3, 4] .running) (grun 3)).gloveBegin 0, chain [1, 2, 3, 4] .running, grun 3, 4, by unfold State.mayRun State.lacksNothing; decide +kernel⟩,
   ⟨gl (op 0x43 2 0 .running) (grun 0), (gl (op 0x43 2 0 .running) (grun 0)).gloveBegin 0, op 0x43 2 0 .running, grun 0, by unfold State.mayRun State.lacksNothing; decide +kernel⟩,
   ⟨gl (op 0x41 2 0 .running) (grun 0), (gl (op 0x41 2 0 .running) (grun 0)).gloveBegin 0, ((gl (op 0x41 2 0 .running) (grun 0)).gloveBegin 0).stage (op 0x41 2 0 .running) (fun s => s.dispatchRows (op 0x41 2 0 .running) (grun 0)), op 0x41 2 0 .running, (((((gl (op 0x41 2 0 .running) (grun 0)).gloveBegin 0).stage (op 0x41 2 0 .running) (fun s => s.dispatchRows (op 0x41 2 0 .running) (grun 0))).desc? 0).getD (op 0x41 2 0 .running)), grun 0, ((((gl (op 0x41 2 0 .running) (grun 0)).gloveBegin 0).stage (op 0x41 2 0 .running) (fun s => s.dispatchRows (op 0x41 2 0 .running) (grun 0))).gloveRun? 0).getD (grun 0), by unfold State.mayRun State.lacksNothing; decide +kernel⟩,
   ⟨gl (op 0x41 2 0 .running) (grun 1), op 0x41 2 0 .running, grun 1, by unfold State.mayRun State.lacksNothing; decide +kernel⟩,
   ⟨{ gl (op 0x41 2 0 .running) ({ grun 1 with tail := { heads := [(0, 1, 1, false)], marks := [], loads := [] } }) with core := { (st []).core with reqs := [⟨9, 5, 1, 0, 0, .desc 0 0, false, []⟩] } }, op 0x41 2 0 .running, { grun 1 with tail := { heads := [(0, 1, 1, false)], marks := [], loads := [] } }, by unfold State.mayRun State.lacksNothing; decide +kernel⟩,
   ⟨gl (op 0x42 2 1 .running) (grun 0), (gl (op 0x42 2 1 .running) (grun 0)).gloveBegin 0, op 0x42 2 1 .running, grun 0, by unfold State.mayRun State.lacksNothing; decide +kernel⟩,
   ⟨gl (op 0x42 2 0 .running) (grun 0), (gl (op 0x42 2 0 .running) (grun 0)).gloveBegin 0, op 0x42 2 0 .running, grun 0, by unfold State.mayRun State.lacksNothing; decide +kernel⟩,
   ⟨wk [op 0x43 2 0 .ready] id, 0, op 0x43 2 0 .ready, by decide +kernel⟩,
   ⟨gl (chain [1, 2, 4] .running) (grun 0), (gl (chain [1, 2, 4] .running) (grun 0)).gloveBegin 0, 0, 2, chain [1, 2, 4] .running, grun 0, by unfold State.mayRun State.lacksNothing; decide +kernel⟩,
   ⟨gl (chain [1, 2, 3, 4] .running) (grun 1), 0, chain [1, 2, 3, 4] .running, grun 1, by unfold State.mayRun State.lacksNothing; decide +kernel⟩,
   ⟨gl (chain [1, 2, 3, 4] .running) (grun 2), (gl (chain [1, 2, 3, 4] .running) (grun 2)).stage (chain [1, 2, 3, 4] .running) (fun s => s.chainStage (chain [1, 2, 3, 4] .running) 3 (grun 2)), 0, 4, chain [1, 2, 3, 4] .running, grun 2, (((gl (chain [1, 2, 3, 4] .running) (grun 2)).stage (chain [1, 2, 3, 4] .running) (fun s => s.chainStage (chain [1, 2, 3, 4] .running) 3 (grun 2))).gloveRun? 0).getD (grun 2), rfl, by unfold State.mayRun State.lacksNothing; decide +kernel⟩,
   ⟨aheadS, 0, aheadD, ((aheadS.readBy (.ahead 0)).aheadView aheadD).getD aheadD, by unfold State.lacksNothing; decide +kernel⟩⟩

theorem witness_ReductionDescriptorsRun :
    (∃ (s : State) (id : Nat) (d : Desc), s.sendTurn id 0x60 = some d ∧ s.mayRun d (fun s => s.addLines d) ∧ s.ticking = true) ∧
    (∃ (s : State) (id : Nat) (d : Desc), s.sendTurn id 0x63 = some d ∧ s.mayRun d (fun s => s.zeroLines d) ∧ s.ticking = true) ∧
    (∃ (s : State) (id : Nat) (d : Desc), s.sendTurn id 0x61 = some d ∧ s.mayRun d (fun s => s.sendLines d) ∧ s.core.isSet = true ∧ (s.core.isLocal (d.record 1).base = true ∨ s.core.reachable (gaModule (d.record 1).base) = true) ∧ s.ticking = true) ∧
    (∃ (s : State) (id : Nat) (d : Desc), s.desc? id = some d ∧ d.phase = .filling ∧ (s.firstAdmitted fun e => e.phase == .filling && e.argF 5 0 == d.argF 5 0 && decide (e.need ≤ s.core.fld (Reg.fillCnt (d.argF 5 0)) 15 0) && s.works e).map (·.id) = some id ∧ s.ticking = true) ∧
    (∃ (s : State) (id b : Nat) (d : Desc), s.desc? id = some d ∧ d.opcode = 0x62 ∧ d.phase = .ready ∧ s.works d = true ∧ d.nrec ≠ 4 ∧ s.freeBucket = some b ∧ s.ticking = true) :=
  ⟨⟨wk [redD 0x60 0 .ready] id, 0, redD 0x60 0 .ready, by unfold State.mayRun State.lacksNothing; decide +kernel⟩,
   ⟨wk [redD 0x63 0 .ready] id, 0, redD 0x63 0 .ready, by unfold State.mayRun State.lacksNothing; decide +kernel⟩,
   ⟨wk [redD 0x61 0 .ready] id, 0, redD 0x61 0 .ready, by unfold State.mayRun State.lacksNothing; decide +kernel⟩,
   ⟨{ wk [redD 0x61 0x8043 .filling] id with core := (wk [redD 0x61 0x8043 .filling] id).core.wr (Reg.fillCnt 3) 256 }, 0, redD 0x61 0x8043 .filling, by decide +kernel⟩,
   ⟨wk [{ redD 0x62 0 .ready with raw := raw 0x62 3 3 0 0 0 0x1000 [1, 1, 1, 1, 1] 0 }] id, 0, 0, { redD 0x62 0 .ready with raw := raw 0x62 3 3 0 0 0 0x1000 [1, 1, 1, 1, 1] 0 }, by decide +kernel⟩⟩

theorem witness_BoundaryClosesAndOpensStep :
    (∃ s : State, s.core.bit Reg.bandCtrl 0 = false ∧ s.core.bit Reg.darnCtrl 0 = false ∧ s.jnlFull = false ∧ s.ticking = true) :=
  ⟨st [(Reg.darnCtrl, 0), (Reg.grpCtrl 0, 1), (Reg.grpCtrl 1, 3), (Reg.grpCtrl 255, 0x0000_0005_0000_0001), (Reg.detStatus, 3)], by decide +kernel⟩

theorem witness_BandAndPlacementWrites :
    (∃ (s : State) (g r : Nat) (v : Word), g < 256 ∧ (r = 1 ∨ r = 2 ∨ r = 3 ∨ r = 4 ∨ r = 9) ∧ s.ticking = true) ∧
    (∃ (s : State) (g : Nat) (v : Word), g < 256 ∧ getF v 6 4 ≤ 4 ∧ s.ticking = true) ∧
    (∃ (s : State) (g : Nat) (v : Word), g < 256 ∧ s.core.bit (Reg.grpCtrl g) 0 = false ∧ s.ticking = true) ∧
    (∃ (s : State) (g : Nat) (v : Word), g < 256 ∧ s.core.bit (Reg.grpCtrl g) 0 = false ∧ s.ticking = true) ∧
    (∃ (s : State) (g r : Nat) (v : Word), s.core.bit (Reg.grpCtrl g) 0 = true ∧ s.ticking = true) ∧
    (∃ (s : State) (v : Word), s.integ.boundaryWait = false ∧ s.ticking = true) ∧
    (∃ (s : State) (v : Word), s.integ.boundaryWait = true ∧ s.ticking = true) ∧
    (∃ s : State, s.ticking = true) ∧
    (∃ s : State, s.ticking = true) ∧
    (∃ (s : State) (v : Word), (∀ d ∈ s.work.descs, d.engine = 2 → d.opcode = 0x41 → d.phase = .waiting) ∧ s.ticking = true) ∧
    (∃ (s : State) (v : Word) (d : Desc), d ∈ s.work.descs ∧ d.engine = 2 ∧ d.opcode = 0x41 ∧ d.phase ≠ .waiting ∧ s.ticking = true) ∧
    (∃ (s : State) (v : Word), v.toNat % 256 = 0 ∧ s.core.hbmJob (v.toNat % 2 ^ 44) = true ∧ s.ticking = true) ∧
    (∃ (s : State) (v : Word), (v.toNat % 256 ≠ 0 ∨ s.core.hbmJob (v.toNat % 2 ^ 44) = false) ∧ s.ticking = true) ∧
    (∃ (s : State) (v : Word), s.ticking = true) :=
  ⟨⟨st [(Reg.grpCount 255, 5)], 255, 9, 0xFFFF_FFFF_FFFF_FFFF, by decide +kernel⟩,
   ⟨st [], 0, 0x0000_0003_0000_004D, by decide +kernel⟩,
   ⟨st [], 255, 0xFFFF_1234_5678_9ABC, by decide +kernel⟩,
   ⟨st [], 0, 7, by decide +kernel⟩,
   ⟨st [(Reg.grpCtrl 3, 1), (Reg.grpCtrl 255, 1)], 3, 5, 7, by decide +kernel⟩,
   ⟨st [], 0xFFFF_1234_5678_9ABC, by decide +kernel⟩,
   ⟨{ st [] with integ := { Integ.initial with boundaryWait := true } }, 3, by decide +kernel⟩,
   ⟨st [], by decide +kernel⟩,
   ⟨st [(Reg.placeCtrl, 1)], by decide +kernel⟩,
   ⟨wk [op 0x41 2 0 .waiting] id, 0x1_2345_6789, by decide +kernel⟩,
   ⟨wk [op 0x41 2 0 .ready] id, 5, op 0x41 2 0 .ready, by decide +kernel⟩,
   ⟨st [], 0x1_0000, by decide +kernel⟩,
   ⟨st [], 0x130_0000_0000, by decide +kernel⟩,
   ⟨st [], 0x1_2345_6789, by decide +kernel⟩⟩

theorem witness_DetectorsCheckHoldAndRelease :
    (∃ s : State, s.ticking = true) ∧
    (∃ s : State, s.core.bit Reg.detCtrl 0 = true ∧ s.integ.boundaryWait = false ∧ isFinL (BitVec.ofNat 32 (s.core.fld Reg.detLoss 31 0)) = true ∧ s.core.nfTotal ≤ s.integ.nfPrev ∧ s.core.fld Reg.detAvg 47 32 = 0 ∧ s.ticking = true) ∧
    (∃ s : State, s.core.bit Reg.detCtrl 0 = true ∧ s.integ.boundaryWait = false ∧ isFinL (BitVec.ofNat 32 (s.core.fld Reg.detLoss 31 0)) = false ∧ s.ticking = true) ∧
    (∃ s : State, s.core.held = false ∧ s.ticking = true) ∧
    (∃ s : State, s.core.held = true ∧ s.ticking = true) ∧
    (∃ s : State, s.ticking = true) ∧
    (∃ (s : State) (id : Nat) (d : Desc), id < s.work.nextId ∧ s.desc? id = some d ∧ s.core.guarded d.gen = true ∧ d.phase = .ready ∧ d.engine ≤ 2 ∧ d.conds = [] ∧ (∀ j ∈ s.work.dumps, j.desc = id → j.begun = false) ∧ (∀ b ∈ s.red.buckets, b.desc ≠ id) ∧ s.ticking = true) :=
  ⟨⟨st [(Reg.detStatus, 1)], by decide +kernel⟩,
   ⟨st [(Reg.detCtrl, 1), (Reg.detLoss, 0x4000_0000)], by decide +kernel⟩,
   ⟨st [(Reg.detCtrl, 1), (Reg.detLoss, 0x7F80_0000), (Reg.grpCtrl 3, 1)], by decide +kernel⟩,
   ⟨st [(Reg.grpCtrl 255, 1)], by decide +kernel⟩,
   ⟨st [(Reg.detStatus, 9), (Reg.grpCtrl 255, 3)], by decide +kernel⟩,
   ⟨st [(Reg.detAvg, 0x7_4000_0000)], by decide +kernel⟩,
   ⟨{ wk [op 1 0 0 .ready] id with core := (wk [op 1 0 0 .ready] id).core.wr Reg.detStatus 9 |>.wr Reg.detGuard 1 }, 0, op 1 0 0 .ready, by decide +kernel⟩⟩

theorem witness_ScalarInstructionsGiveTheirResults :
    (∃ (s : State) (t n : Nat) (w : BitVec 27) (x : Ctx) (v : Word), s.atInstr t n 0x01 w x ∧ fC w = 0 ∧ (fF w, v) ∈ aluCodes (x.xr (fA w)) (x.xr (fB w))) ∧
    (∃ (s : State) (t n : Nat) (w : BitVec 27) (x : Ctx) (v : Word), s.atInstr t n 0x02 w x ∧ fF4 w ≤ 13 ∧ (fF4 w, v) ∈ aluCodes (x.xr (fA w)) ((BitVec.ofNat 13 (fImm13 w)).signExtend 64)) ∧
    (∃ (s : State) (t n : Nat) (w : BitVec 27) (x : Ctx), s.atInstr t n 0x03 w x) ∧
    (∃ (s : State) (t n : Nat) (w : BitVec 27) (x : Ctx) (l : Lane), s.atInstr t n 0x19 w x ∧ fC w = 0 ∧ (fF w = 4 → fB w = 0) ∧ (fF w, l) ∈ [(0, fAdd ((x.xr (fA w)).truncate 32) ((x.xr (fB w)).truncate 32)), (1, fSub ((x.xr (fA w)).truncate 32) ((x.xr (fB w)).truncate 32)), (2, fMul ((x.xr (fA w)).truncate 32) ((x.xr (fB w)).truncate 32)), (3, fDiv ((x.xr (fA w)).truncate 32) ((x.xr (fB w)).truncate 32)), (4, fSqrt ((x.xr (fA w)).truncate 32)), (5, minMax false ((x.xr (fA w)).truncate 32) ((x.xr (fB w)).truncate 32)), (6, minMax true ((x.xr (fA w)).truncate 32) ((x.xr (fB w)).truncate 32))]) ∧
    (∃ (s : State) (t n : Nat) (w : BitVec 27) (x : Ctx), s.atInstr t n 0x19 w x ∧ fC w = 0 ∧ fF w = 7) ∧
    (∃ (s : State) (t n : Nat) (w : BitVec 27) (x : Ctx), s.atInstr t n 0x19 w x ∧ fB w = 0 ∧ fC w = 0 ∧ fF w = 8) ∧
    (∃ (s : State) (t n : Nat) (w : BitVec 27) (x : Ctx) (i : Int), s.atInstr t n 0x19 w x ∧ fB w = 0 ∧ fC w = 0 ∧ fF w = 9 ∧ truncInt 64 ((x.xr (fA w)).truncate 32) = some i) ∧
    (∃ (s : State) (t n : Nat) (w : BitVec 27) (x : Ctx), s.atInstr t n 0x19 w x ∧ fB w = 0 ∧ fC w = 0 ∧ fF w = 10) ∧
    (∃ (s : State) (t n : Nat) (w : BitVec 27) (x y : Ctx), s.atInstr t n 0x0E w x ∧ fImm13 w = 0 ∧ (((fF4 w = 1 ∨ fF4 w = 3) → fD w = 0) ∧ (fF4 w ≠ 1 → fF4 w ≠ 3 → fA w = 0)) ∧ (fF4 w, y) ∈ [(0, x.setX (fD w) x.rc), (1, { x with rc := x.xr (fA w) }), (2, x.setX (fD w) (BitVec.ofNat 64 x.tid)), (3, { x with tid := (x.xr (fA w)).toNat % 2 ^ 24 }), (4, x.setX (fD w) (BitVec.ofNat 64 s.core.step)), (5, x.setX (fD w) s.core.now), (6, x.setX (fD w) (BitVec.ofNat 64 (64 * t + n))), (7, x.setX (fD w) (BitVec.ofNat 64 s.core.moduleNo))]) :=
  ⟨⟨ins 1 (enc 3 1 2 0 15) (cx [(1, 7), (2, 0)]) [], 0, 0, enc 3 1 2 0 15, cx [(1, 7), (2, 0)], ((aluCodes ((cx [(1, 7), (2, 0)]).xr 1) ((cx [(1, 7), (2, 0)]).xr 2)).getD 15 (0, 0)).2, by unfold State.atInstr; decide +kernel⟩,
   ⟨ins 2 (encI 0 1 13 0x1FFF) (cx [(1, 0x8000_0000_0000_0005), (2, 3)]) [], 0, 0, encI 0 1 13 0x1FFF, cx [(1, 0x8000_0000_0000_0005), (2, 3)], ((aluCodes ((cx [(1, 0x8000_0000_0000_0005), (2, 3)]).xr 1) (BitVec.allOnes 64)).getD 13 (0, 0)).2, by unfold State.atInstr; decide +kernel⟩,
   ⟨ins 3 (encL 31 0x3F_FFFF) (cx [(31, 0x1_0000_0000_0001)]) [], 0, 0, encL 31 0x3F_FFFF, cx [(31, 0x1_0000_0000_0001)], by unfold State.atInstr; decide +kernel⟩,
   ⟨ins 0x19 (enc 3 1 2 0 0) (cx [(1, 0x4000_0000), (2, 0xC040_0000)]) [], 0, 0, enc 3 1 2 0 0, cx [(1, 0x4000_0000), (2, 0xC040_0000)], fAdd 0x4000_0000 0xC040_0000, by unfold State.atInstr; decide +kernel⟩,
   ⟨ins 0x19 (enc 3 1 2 0 7) (cx [(1, 0x4000_0000), (2, 0xC040_0000)]) [], 0, 0, enc 3 1 2 0 7, cx [(1, 0x4000_0000), (2, 0xC040_0000)], by unfold State.atInstr; decide +kernel⟩,
   ⟨ins 0x19 (enc 3 1 0 0 8) (cx [(1, 0xFFFF_FFFF_FFFF_FFFB)]) [], 0, 0, enc 3 1 0 0 8, cx [(1, 0xFFFF_FFFF_FFFF_FFFB)], by unfold State.atInstr; decide +kernel⟩,
   ⟨ins 0x19 (enc 3 1 0 0 9) (cx [(1, 0xC0A8_0000)]) [], 0, 0, enc 3 1 0 0 9, cx [(1, 0xC0A8_0000)], -5, by unfold State.atInstr; decide +kernel⟩,
   ⟨ins 0x19 (enc 3 1 0 0 10) (cx [(1, 0x4049_0FDB)]) [], 0, 0, enc 3 1 0 0 10, cx [(1, 0x4049_0FDB)], by unfold State.atInstr; decide +kernel⟩,
   ⟨ins 0xE (encI 3 0 0 0) (cx [(1, 5)]) [], 0, 0, encI 3 0 0 0, cx [(1, 5)], (cx [(1, 5)]).setX 3 0, by unfold State.atInstr; decide +kernel⟩⟩

theorem witness_ControlInstructionsMoveThePc :
    (∃ (s : State) (t n : Nat) (w : BitVec 27) (x : Ctx) (b : Bool), s.atInstr t n 0x06 w x ∧ (bitsOf w.toNat 16 14, b) ∈ brCodes (x.xr (fD w)) (x.xr (fA w))) ∧
    (∃ (s : State) (t n : Nat) (w : BitVec 27) (x : Ctx), s.atInstr t n 0x07 w x) ∧
    (∃ (s : State) (t n : Nat) (w : BitVec 27) (x : Ctx), s.atInstr t n 0x08 w x ∧ fB w = 0 ∧ fC w = 0 ∧ fF w = 0 ∧ (x.xr (fA w)).toNat % 4 = 0 ∧ (x.xr (fA w)).toNat < 2 ^ 56) ∧
    (∃ (s : State) (t n : Nat) (x : Ctx), s.atInstr t n 0x00 0 x) ∧
    (∃ (s : State) (t n : Nat) (w : BitVec 27) (x : Ctx), s.atInstr t n 0x1F w x) ∧
    (∃ (s : State) (t n : Nat) (w : BitVec 27) (x : Ctx), s.atInstr t n 0x0A w x ∧ w.toNat ≤ 2 ∧ (w = 0 ∨ s.storesOut t n = false)) ∧
    (∃ (s : State) (t n : Nat) (w : BitVec 27) (x : Ctx), s.atInstr t n 0x0A w x ∧ w.toNat ≤ 2 ∧ w ≠ 0 ∧ s.storesOut t n = true) :=
  ⟨⟨ins 6 (encI 1 2 0 0x1FFE) (cx [(1, 5), (2, 5)]) [], 0, 0, encI 1 2 0 0x1FFE, cx [(1, 5), (2, 5)], true, by unfold State.atInstr; decide +kernel⟩,
   ⟨ins 7 (encL 3 0x3F_FFF0) (cx []) [], 0, 0, encL 3 0x3F_FFF0, cx [], by unfold State.atInstr; decide +kernel⟩,
   ⟨ins 8 (enc 3 1 0 0 0) (cx [(1, 0x200)]) [], 0, 0, enc 3 1 0 0 0, cx [(1, 0x200)], by unfold State.atInstr; decide +kernel⟩,
   ⟨ins 0 0 (cx []) [], 0, 0, cx [], by unfold State.atInstr; decide +kernel⟩,
   ⟨ins 0x1F (0x5) (cx []) [], 0, 0, 0x5, cx [], by unfold State.atInstr; decide +kernel⟩,
   ⟨ins 0xA (1) (cx []) [], 0, 0, 1, cx [], by unfold State.atInstr; decide +kernel⟩,
   ⟨{ ins 0xA 1 (cx []) [] with core := { (ins 0xA 1 (cx []) []).core with reqs := [⟨0, 5, 1, 0, 9, .store 0 0 0, false, []⟩] } }, 0, 0, 1, cx [], by unfold State.atInstr; decide +kernel⟩⟩

theorem witness_IllegalInstructionsHalt :
    (∃ (s : State) (t n : Nat) (w : BitVec 27) (x : Ctx), s.atInstr t n 0x01 w x ∧ (16 ≤ fF w ∨ fC w ≠ 0)) ∧
    (∃ (s : State) (t n : Nat) (w : BitVec 27) (x : Ctx), s.atInstr t n 0x02 w x ∧ 14 ≤ fF4 w) ∧
    (∃ (s : State) (t n : Nat) (w : BitVec 27) (x : Ctx), s.atInstr t n 0x06 w x ∧ 6 ≤ bitsOf w.toNat 16 14) ∧
    (∃ (s : State) (t n : Nat) (w : BitVec 27) (x : Ctx), s.atInstr t n 0x08 w x ∧ (fB w ≠ 0 ∨ fC w ≠ 0 ∨ fF w ≠ 0)) ∧
    (∃ (s : State) (t n : Nat) (w : BitVec 27) (x : Ctx), s.atInstr t n 0x0E w x ∧ (8 ≤ fF4 w ∨ fImm13 w ≠ 0)) ∧
    (∃ (s : State) (t n : Nat) (w : BitVec 27) (x : Ctx), s.atInstr t n 0x11 w x ∧ (7 ≤ bitsOf (fF w) 3 0 ∨ fC w ≠ 0 ∨ bitsOf (fF w) 5 4 ≠ 0)) ∧
    (∃ (s : State) (t n : Nat) (w : BitVec 27) (x : Ctx), s.atInstr t n 0x13 w x ∧ (10 ≤ fF w ∨ fB w ≠ 0 ∨ fC w ≠ 0)) ∧
    (∃ (s : State) (t n : Nat) (w : BitVec 27) (x : Ctx), s.atInstr t n 0x14 w x ∧ 5 ≤ fF w) ∧
    (∃ (s : State) (t n : Nat) (w : BitVec 27) (x : Ctx), s.atInstr t n 0x15 w x ∧ (3 ≤ fF w ∨ fB w ≠ 0 ∨ fC w ≠ 0)) ∧
    (∃ (s : State) (t n : Nat) (w : BitVec 27) (x : Ctx), s.atInstr t n 0x19 w x ∧ (11 ≤ fF w ∨ fC w ≠ 0)) ∧
    (∃ (s : State) (t n : Nat) (w : BitVec 27) (x : Ctx), s.atInstr t n 0x1A w x ∧ (10 ≤ fF w ∨ fC w ≠ 0)) ∧
    (∃ (s : State) (t n opc : Nat) (w : BitVec 27) (x : Ctx) (c : Nat → Nat → BitVec 27 → Instr), (c, opc) ∈ palmOpcodes ∧ illegalWord opc w ∧ s.atInstr t n opc w x ∧ s.integ.boundaryWait = false) ∧
    (∃ (s : State) (t n opc : Nat) (w : BitVec 27) (x : Ctx) (c : Nat → Nat → BitVec 27 → Instr), (c, opc) ∈ palmOpcodes ∧ illegalWord opc w ∧ s.atInstr t n opc w x ∧ s.integ.boundaryWait = false) ∧
    (∃ (s : State) (t n opc : Nat) (w : BitVec 27) (x : Ctx) (c : Nat → Nat → BitVec 27 → Instr), (c, opc) ∈ palmOpcodes ∧ illegalWord opc w ∧ s.atInstr t n opc w x ∧ s.integ.boundaryWait = false) ∧
    (∃ (s : State) (t n opc : Nat) (w : BitVec 27) (x : Ctx) (c : Nat → Nat → BitVec 27 → Instr), (c, opc) ∈ palmOpcodes ∧ illegalWord opc w ∧ s.atInstr t n opc w x ∧ s.integ.boundaryWait = false) ∧
    (∃ (s : State) (t n opc : Nat) (w : BitVec 27) (x : Ctx) (c : Nat → Nat → BitVec 27 → Instr), (c, opc) ∈ palmOpcodes ∧ illegalWord opc w ∧ s.atInstr t n opc w x ∧ s.integ.boundaryWait = false) ∧
    (∃ (s : State) (t n opc : Nat) (w : BitVec 27) (x : Ctx) (c : Nat → Nat → BitVec 27 → Instr), (c, opc) ∈ palmOpcodes ∧ illegalWord opc w ∧ s.atInstr t n opc w x ∧ s.integ.boundaryWait = false) ∧
    (∃ (s : State) (t n opc : Nat) (w : BitVec 27) (x : Ctx) (c : Nat → Nat → BitVec 27 → Instr), (c, opc) ∈ palmOpcodes ∧ illegalWord opc w ∧ s.atInstr t n opc w x ∧ s.integ.boundaryWait = false) ∧
    (∃ (s : State) (t n opc : Nat) (w : BitVec 27) (x : Ctx) (c : Nat → Nat → BitVec 27 → Instr), (c, opc) ∈ palmOpcodes ∧ illegalWord opc w ∧ s.atInstr t n opc w x ∧ s.integ.boundaryWait = false) ∧
    (∃ (s : State) (t n opc : Nat) (w : BitVec 27) (x : Ctx) (c : Nat → Nat → BitVec 27 → Instr), (c, opc) ∈ palmOpcodes ∧ illegalWord opc w ∧ s.atInstr t n opc w x ∧ s.integ.boundaryWait = false) ∧
    (∃ (s : State) (t n opc : Nat) (w : BitVec 27) (x : Ctx) (c : Nat → Nat → BitVec 27 → Instr), (c, opc) ∈ palmOpcodes ∧ illegalWord opc w ∧ s.atInstr t n opc w x ∧ s.integ.boundaryWait = false) ∧
    (∃ (s : State) (t n opc : Nat) (w : BitVec 27) (x : Ctx) (c : Nat → Nat → BitVec 27 → Instr), (c, opc) ∈ palmOpcodes ∧ illegalWord opc w ∧ s.atInstr t n opc w x ∧ s.integ.boundaryWait = false) ∧
    (∃ (s : State) (t n opc : Nat) (w : BitVec 27) (x : Ctx) (c : Nat → Nat → BitVec 27 → Instr), (c, opc) ∈ palmOpcodes ∧ illegalWord opc w ∧ s.atInstr t n opc w x ∧ s.integ.boundaryWait = false) ∧
    (∃ (s : State) (t n opc : Nat) (w : BitVec 27) (x : Ctx) (c : Nat → Nat → BitVec 27 → Instr), (c, opc) ∈ palmOpcodes ∧ illegalWord opc w ∧ s.atInstr t n opc w x ∧ s.integ.boundaryWait = false) ∧
    (∃ (s : State) (t n opc : Nat) (w : BitVec 27) (x : Ctx) (c : Nat → Nat → BitVec 27 → Instr), (c, opc) ∈ palmOpcodes ∧ illegalWord opc w ∧ s.atInstr t n opc w x ∧ s.integ.boundaryWait = false) ∧
    (∃ (s : State) (t n opc : Nat) (w : BitVec 27) (x : Ctx) (c : Nat → Nat → BitVec 27 → Instr), (c, opc) ∈ palmOpcodes ∧ illegalWord opc w ∧ s.atInstr t n opc w x ∧ s.integ.boundaryWait = false) ∧
    (∃ (s : State) (t n opc : Nat) (w : BitVec 27) (x : Ctx) (c : Nat → Nat → BitVec 27 → Instr), (c, opc) ∈ [(Instr.st, 0x05), (Instr.vst, 0x10)] ∧ illegalWord opc w ∧ s.atInstr t n opc w x ∧ s.noneWaiting) ∧
    (∃ (s : State) (t n opc : Nat) (w : BitVec 27) (x : Ctx) (c : Nat → Nat → BitVec 27 → Instr), (c, opc) ∈ [(Instr.st, 0x05), (Instr.vst, 0x10)] ∧ illegalWord opc w ∧ s.atInstr t n opc w x ∧ s.noneWaiting) :=
  ⟨⟨ins 1 (enc 0 0 0 0 16) (cx []) [], 0, 0, enc 0 0 0 0 16, cx [], by unfold State.atInstr; decide +kernel⟩,
   ⟨ins 2 (encI 0 0 14 0) (cx []) [], 0, 0, encI 0 0 14 0, cx [], by unfold State.atInstr; decide +kernel⟩,
   ⟨ins 6 (BitVec.ofNat 27 (6 * 2 ^ 14)) (cx []) [], 0, 0, BitVec.ofNat 27 (6 * 2 ^ 14), cx [], by unfold State.atInstr; decide +kernel⟩,
   ⟨ins 8 (enc 0 0 1 0 0) (cx []) [], 0, 0, enc 0 0 1 0 0, cx [], by unfold State.atInstr; decide +kernel⟩,
   ⟨ins 0xE (encI 0 0 8 0) (cx []) [], 0, 0, encI 0 0 8 0, cx [], by unfold State.atInstr; decide +kernel⟩,
   ⟨ins 0x11 (enc 0 0 0 0 7) (cx []) [], 0, 0, enc 0 0 0 0 7, cx [], by unfold State.atInstr; decide +kernel⟩,
   ⟨ins 0x13 (enc 0 0 0 0 10) (cx []) [], 0, 0, enc 0 0 0 0 10, cx [], by unfold State.atInstr; decide +kernel⟩,
   ⟨ins 0x14 (enc 0 0 0 0 5) (cx []) [], 0, 0, enc 0 0 0 0 5, cx [], by unfold State.atInstr; decide +kernel⟩,
   ⟨ins 0x15 (enc 0 0 0 0 3) (cx []) [], 0, 0, enc 0 0 0 0 3, cx [], by unfold State.atInstr; decide +kernel⟩,
   ⟨ins 0x19 (enc 0 0 0 0 11) (cx []) [], 0, 0, enc 0 0 0 0 11, cx [], by unfold State.atInstr; decide +kernel⟩,
   ⟨ins 0x1A (enc 0 0 0 0 10) (cx []) [], 0, 0, enc 0 0 0 0 10, cx [], by unfold State.atInstr; decide +kernel⟩,
   ⟨ins 0x00 (1) (cx []) [], 0, 0, 0x00, 1, cx [], .palmEnd, by simp [palmOpcodes], by simp only [illegalWord] <;> decide +kernel, by unfold State.atInstr; decide +kernel⟩,
   ⟨ins 0x04 (encI 0 0 8 0) (cx []) [], 0, 0, 0x04, encI 0 0 8 0, cx [], .ld, by simp [palmOpcodes], by simp only [illegalWord] <;> decide +kernel, by unfold State.atInstr; decide +kernel⟩,
   ⟨ins 0x09 (enc 0 0 0 0 1) (cx []) [], 0, 0, 0x09, enc 0 0 0 0 1, cx [], .waitne, by simp [palmOpcodes], by simp only [illegalWord] <;> decide +kernel, by unfold State.atInstr; decide +kernel⟩,
   ⟨ins 0x0A (3) (cx []) [], 0, 0, 0x0A, 3, cx [], .fence, by simp [palmOpcodes], by simp only [illegalWord] <;> decide +kernel, by unfold State.atInstr; decide +kernel⟩,
   ⟨ins 0x0C (1) (cx []) [], 0, 0, 0x0C, 1, cx [], .dgap, by simp [palmOpcodes], by simp only [illegalWord] <;> decide +kernel, by unfold State.atInstr; decide +kernel⟩,
   ⟨ins 0x0D (1) (cx []) [], 0, 0, 0x0D, 1, cx [], .tmnext, by simp [palmOpcodes], by simp only [illegalWord] <;> decide +kernel, by unfold State.atInstr; decide +kernel⟩,
   ⟨ins 0x0F (1) (cx []) [], 0, 0, 0x0F, 1, cx [], .vld, by simp [palmOpcodes], by simp only [illegalWord] <;> decide +kernel, by unfold State.atInstr; decide +kernel⟩,
   ⟨ins 0x12 (4) (cx []) [], 0, 0, 0x12, 4, cx [], .vfma, by simp [palmOpcodes], by simp only [illegalWord] <;> decide +kernel, by unfold State.atInstr; decide +kernel⟩,
   ⟨ins 0x16 (6) (cx []) [], 0, 0, 0x16, 6, cx [], .vmov, by simp [palmOpcodes], by simp only [illegalWord] <;> decide +kernel, by unfold State.atInstr; decide +kernel⟩,
   ⟨ins 0x17 (1) (cx []) [], 0, 0, 0x17, 1, cx [], .vacc, by simp [palmOpcodes], by simp only [illegalWord] <;> decide +kernel, by unfold State.atInstr; decide +kernel⟩,
   ⟨ins 0x18 (1) (cx []) [], 0, 0, 0x18, 1, cx [], .vstep, by simp [palmOpcodes], by simp only [illegalWord] <;> decide +kernel, by unfold State.atInstr; decide +kernel⟩,
   ⟨ins 0x1B (1) (cx []) [], 0, 0, 0x1B, 1, cx [], .vperm, by simp [palmOpcodes], by simp only [illegalWord] <;> decide +kernel, by unfold State.atInstr; decide +kernel⟩,
   ⟨ins 0x1C (encI 0 0 1 0) (cx []) [], 0, 0, 0x1C, encI 0 0 1 0, cx [], .palmEvent, by simp [palmOpcodes], by simp only [illegalWord] <;> decide +kernel, by unfold State.atInstr; decide +kernel⟩,
   ⟨ins 0x1D (1) (cx []) [], 0, 0, 0x1D, 1, cx [], .vgth, by simp [palmOpcodes], by simp only [illegalWord] <;> decide +kernel, by unfold State.atInstr; decide +kernel⟩,
   ⟨ins 0x1E (1) (cx []) [], 0, 0, 0x1E, 1, cx [], .vsct, by simp [palmOpcodes], by simp only [illegalWord] <;> decide +kernel, by unfold State.atInstr; decide +kernel⟩,
   ⟨ins 0x05 (encI 0 0 4 0) (cx []) [], 0, 0, 0x05, encI 0 0 4 0, cx [], .st, by simp, by simp only [illegalWord] <;> decide +kernel, by unfold State.noneWaiting State.atInstr; decide +kernel⟩,
   ⟨ins 0x10 (1) (cx []) [], 0, 0, 0x10, 1, cx [], .vst, by simp, by simp only [illegalWord] <;> decide +kernel, by unfold State.noneWaiting State.atInstr; decide +kernel⟩⟩

theorem witness_BandReadsAndDecayGaps :
    (∃ (s : State) (t n : Nat) (w : BitVec 27) (x : Ctx) (v : Word), s.atInstr t n 0x0B w x ∧ s.integ.boundaryWait = false ∧ fImm13 w = 0 ∧ (fF4 w, v) ∈ bandCodes s.core ((x.xr (fA w)).toNat % 256)) ∧
    (∃ (s : State) (t n : Nat) (w : BitVec 27) (x : Ctx), s.atInstr t n 0x0B w x ∧ s.integ.boundaryWait = false ∧ 8 ≤ fF4 w) ∧
    (∃ (s : State) (t n : Nat) (w : BitVec 27) (x : Ctx) (g a v long bad : Nat), s.atInstr t n 0x0C w x ∧ s.integ.boundaryWait = false ∧ fC w = 0 ∧ fF w = 0 ∧ g = (x.xr (fA w)).toNat % 256 ∧ a = (x.xr (fB w)).toNat % 2 ^ 48 ∧ ((a = 2 ^ 48 - 1 ∧ v = (sGet s.integ.lam g 0).toNat ∧ long = 0 ∧ bad = 0) ∨ (a ≠ 2 ^ 48 - 1 ∧ s.core.step ≤ a ∧ v = 0 ∧ long = 0 ∧ bad = (if s.core.step < a then 1 else 0)) ∨ (a < s.core.step ∧ a ≠ 2 ^ 48 - 1 ∧ (s.core.bit (Reg.grpCtrl g) 3 = false ∨ s.core.ringBits = 0) ∧ v = (s.core.step - a) * (sGet s.integ.lam g 0).toNat ∧ long = 0 ∧ bad = 0) ∨ (a < s.core.step ∧ a ≠ 2 ^ 48 - 1 ∧ s.core.bit (Reg.grpCtrl g) 3 = true ∧ s.core.ringBits ≠ 0 ∧ s.core.step - a < 2 ^ s.core.ringBits ∧ s.core.clean64 (s.core.ringSlot g a) 8 ∧ v = (s.core.rd (Reg.grpLambda g) - BitVec.ofNat 64 (s.core.rdNat (gaLocal (s.core.ringSlot g a)) 8)).toNat ∧ long = 0 ∧ bad = 0) ∨ (a < s.core.step ∧ a ≠ 2 ^ 48 - 1 ∧ s.core.bit (Reg.grpCtrl g) 3 = true ∧ s.core.ringBits ≠ 0 ∧ 2 ^ s.core.ringBits ≤ s.core.step - a ∧ s.core.clean64 (s.core.ringSlot g (s.core.step + 1 - 2 ^ s.core.ringBits)) 8 ∧ v = (s.core.rd (Reg.grpLambda g) - BitVec.ofNat 64 (s.core.rdNat (gaLocal (s.core.ringSlot g (s.core.step + 1 - 2 ^ s.core.ringBits))) 8)).toNat + (s.core.step + 1 - 2 ^ s.core.ringBits - a) * (sGet s.integ.lam g 0).toNat ∧ long = 1 ∧ bad = 0))) ∧
    (∃ (s : State) (t n : Nat) (w : BitVec 27) (x : Ctx) (g a v long bad : Nat), s.atInstr t n 0x0C w x ∧ s.integ.boundaryWait = false ∧ fC w = 0 ∧ fF w = 0 ∧ g = (x.xr (fA w)).toNat % 256 ∧ a = (x.xr (fB w)).toNat % 2 ^ 48 ∧ ((a = 2 ^ 48 - 1 ∧ v = (sGet s.integ.lam g 0).toNat ∧ long = 0 ∧ bad = 0) ∨ (a ≠ 2 ^ 48 - 1 ∧ s.core.step ≤ a ∧ v = 0 ∧ long = 0 ∧ bad = (if s.core.step < a then 1 else 0)) ∨ (a < s.core.step ∧ a ≠ 2 ^ 48 - 1 ∧ (s.core.bit (Reg.grpCtrl g) 3 = false ∨ s.core.ringBits = 0) ∧ v = (s.core.step - a) * (sGet s.integ.lam g 0).toNat ∧ long = 0 ∧ bad = 0) ∨ (a < s.core.step ∧ a ≠ 2 ^ 48 - 1 ∧ s.core.bit (Reg.grpCtrl g) 3 = true ∧ s.core.ringBits ≠ 0 ∧ s.core.step - a < 2 ^ s.core.ringBits ∧ s.core.clean64 (s.core.ringSlot g a) 8 ∧ v = (s.core.rd (Reg.grpLambda g) - BitVec.ofNat 64 (s.core.rdNat (gaLocal (s.core.ringSlot g a)) 8)).toNat ∧ long = 0 ∧ bad = 0) ∨ (a < s.core.step ∧ a ≠ 2 ^ 48 - 1 ∧ s.core.bit (Reg.grpCtrl g) 3 = true ∧ s.core.ringBits ≠ 0 ∧ 2 ^ s.core.ringBits ≤ s.core.step - a ∧ s.core.clean64 (s.core.ringSlot g (s.core.step + 1 - 2 ^ s.core.ringBits)) 8 ∧ v = (s.core.rd (Reg.grpLambda g) - BitVec.ofNat 64 (s.core.rdNat (gaLocal (s.core.ringSlot g (s.core.step + 1 - 2 ^ s.core.ringBits))) 8)).toNat + (s.core.step + 1 - 2 ^ s.core.ringBits - a) * (sGet s.integ.lam g 0).toNat ∧ long = 1 ∧ bad = 0))) ∧
    (∃ (s : State) (t n : Nat) (w : BitVec 27) (x : Ctx) (g a v long bad : Nat), s.atInstr t n 0x0C w x ∧ s.integ.boundaryWait = false ∧ fC w = 0 ∧ fF w = 0 ∧ g = (x.xr (fA w)).toNat % 256 ∧ a = (x.xr (fB w)).toNat % 2 ^ 48 ∧ ((a = 2 ^ 48 - 1 ∧ v = (sGet s.integ.lam g 0).toNat ∧ long = 0 ∧ bad = 0) ∨ (a ≠ 2 ^ 48 - 1 ∧ s.core.step ≤ a ∧ v = 0 ∧ long = 0 ∧ bad = (if s.core.step < a then 1 else 0)) ∨ (a < s.core.step ∧ a ≠ 2 ^ 48 - 1 ∧ (s.core.bit (Reg.grpCtrl g) 3 = false ∨ s.core.ringBits = 0) ∧ v = (s.core.step - a) * (sGet s.integ.lam g 0).toNat ∧ long = 0 ∧ bad = 0) ∨ (a < s.core.step ∧ a ≠ 2 ^ 48 - 1 ∧ s.core.bit (Reg.grpCtrl g) 3 = true ∧ s.core.ringBits ≠ 0 ∧ s.core.step - a < 2 ^ s.core.ringBits ∧ s.core.clean64 (s.core.ringSlot g a) 8 ∧ v = (s.core.rd (Reg.grpLambda g) - BitVec.ofNat 64 (s.core.rdNat (gaLocal (s.core.ringSlot g a)) 8)).toNat ∧ long = 0 ∧ bad = 0) ∨ (a < s.core.step ∧ a ≠ 2 ^ 48 - 1 ∧ s.core.bit (Reg.grpCtrl g) 3 = true ∧ s.core.ringBits ≠ 0 ∧ 2 ^ s.core.ringBits ≤ s.core.step - a ∧ s.core.clean64 (s.core.ringSlot g (s.core.step + 1 - 2 ^ s.core.ringBits)) 8 ∧ v = (s.core.rd (Reg.grpLambda g) - BitVec.ofNat 64 (s.core.rdNat (gaLocal (s.core.ringSlot g (s.core.step + 1 - 2 ^ s.core.ringBits))) 8)).toNat + (s.core.step + 1 - 2 ^ s.core.ringBits - a) * (sGet s.integ.lam g 0).toNat ∧ long = 1 ∧ bad = 0))) ∧
    (∃ (s : State) (t n : Nat) (w : BitVec 27) (x : Ctx) (g a v long bad : Nat), s.atInstr t n 0x0C w x ∧ s.integ.boundaryWait = false ∧ fC w = 0 ∧ fF w = 0 ∧ g = (x.xr (fA w)).toNat % 256 ∧ a = (x.xr (fB w)).toNat % 2 ^ 48 ∧ ((a = 2 ^ 48 - 1 ∧ v = (sGet s.integ.lam g 0).toNat ∧ long = 0 ∧ bad = 0) ∨ (a ≠ 2 ^ 48 - 1 ∧ s.core.step ≤ a ∧ v = 0 ∧ long = 0 ∧ bad = (if s.core.step < a then 1 else 0)) ∨ (a < s.core.step ∧ a ≠ 2 ^ 48 - 1 ∧ (s.core.bit (Reg.grpCtrl g) 3 = false ∨ s.core.ringBits = 0) ∧ v = (s.core.step - a) * (sGet s.integ.lam g 0).toNat ∧ long = 0 ∧ bad = 0) ∨ (a < s.core.step ∧ a ≠ 2 ^ 48 - 1 ∧ s.core.bit (Reg.grpCtrl g) 3 = true ∧ s.core.ringBits ≠ 0 ∧ s.core.step - a < 2 ^ s.core.ringBits ∧ s.core.clean64 (s.core.ringSlot g a) 8 ∧ v = (s.core.rd (Reg.grpLambda g) - BitVec.ofNat 64 (s.core.rdNat (gaLocal (s.core.ringSlot g a)) 8)).toNat ∧ long = 0 ∧ bad = 0) ∨ (a < s.core.step ∧ a ≠ 2 ^ 48 - 1 ∧ s.core.bit (Reg.grpCtrl g) 3 = true ∧ s.core.ringBits ≠ 0 ∧ 2 ^ s.core.ringBits ≤ s.core.step - a ∧ s.core.clean64 (s.core.ringSlot g (s.core.step + 1 - 2 ^ s.core.ringBits)) 8 ∧ v = (s.core.rd (Reg.grpLambda g) - BitVec.ofNat 64 (s.core.rdNat (gaLocal (s.core.ringSlot g (s.core.step + 1 - 2 ^ s.core.ringBits))) 8)).toNat + (s.core.step + 1 - 2 ^ s.core.ringBits - a) * (sGet s.integ.lam g 0).toNat ∧ long = 1 ∧ bad = 0))) ∧
    (∃ (s : State) (t n : Nat) (w : BitVec 27) (x : Ctx) (g a v long bad : Nat), s.atInstr t n 0x0C w x ∧ s.integ.boundaryWait = false ∧ fC w = 0 ∧ fF w = 0 ∧ g = (x.xr (fA w)).toNat % 256 ∧ a = (x.xr (fB w)).toNat % 2 ^ 48 ∧ ((a = 2 ^ 48 - 1 ∧ v = (sGet s.integ.lam g 0).toNat ∧ long = 0 ∧ bad = 0) ∨ (a ≠ 2 ^ 48 - 1 ∧ s.core.step ≤ a ∧ v = 0 ∧ long = 0 ∧ bad = (if s.core.step < a then 1 else 0)) ∨ (a < s.core.step ∧ a ≠ 2 ^ 48 - 1 ∧ (s.core.bit (Reg.grpCtrl g) 3 = false ∨ s.core.ringBits = 0) ∧ v = (s.core.step - a) * (sGet s.integ.lam g 0).toNat ∧ long = 0 ∧ bad = 0) ∨ (a < s.core.step ∧ a ≠ 2 ^ 48 - 1 ∧ s.core.bit (Reg.grpCtrl g) 3 = true ∧ s.core.ringBits ≠ 0 ∧ s.core.step - a < 2 ^ s.core.ringBits ∧ s.core.clean64 (s.core.ringSlot g a) 8 ∧ v = (s.core.rd (Reg.grpLambda g) - BitVec.ofNat 64 (s.core.rdNat (gaLocal (s.core.ringSlot g a)) 8)).toNat ∧ long = 0 ∧ bad = 0) ∨ (a < s.core.step ∧ a ≠ 2 ^ 48 - 1 ∧ s.core.bit (Reg.grpCtrl g) 3 = true ∧ s.core.ringBits ≠ 0 ∧ 2 ^ s.core.ringBits ≤ s.core.step - a ∧ s.core.clean64 (s.core.ringSlot g (s.core.step + 1 - 2 ^ s.core.ringBits)) 8 ∧ v = (s.core.rd (Reg.grpLambda g) - BitVec.ofNat 64 (s.core.rdNat (gaLocal (s.core.ringSlot g (s.core.step + 1 - 2 ^ s.core.ringBits))) 8)).toNat + (s.core.step + 1 - 2 ^ s.core.ringBits - a) * (sGet s.integ.lam g 0).toNat ∧ long = 1 ∧ bad = 0))) ∧
    (∃ (s : State) (t n : Nat) (w : BitVec 27) (x : Ctx) (g a v long bad : Nat), s.atInstr t n 0x0C w x ∧ s.integ.boundaryWait = false ∧ fC w = 0 ∧ fF w = 0 ∧ g = (x.xr (fA w)).toNat % 256 ∧ a = (x.xr (fB w)).toNat % 2 ^ 48 ∧ ((a = 2 ^ 48 - 1 ∧ v = (sGet s.integ.lam g 0).toNat ∧ long = 0 ∧ bad = 0) ∨ (a ≠ 2 ^ 48 - 1 ∧ s.core.step ≤ a ∧ v = 0 ∧ long = 0 ∧ bad = (if s.core.step < a then 1 else 0)) ∨ (a < s.core.step ∧ a ≠ 2 ^ 48 - 1 ∧ (s.core.bit (Reg.grpCtrl g) 3 = false ∨ s.core.ringBits = 0) ∧ v = (s.core.step - a) * (sGet s.integ.lam g 0).toNat ∧ long = 0 ∧ bad = 0) ∨ (a < s.core.step ∧ a ≠ 2 ^ 48 - 1 ∧ s.core.bit (Reg.grpCtrl g) 3 = true ∧ s.core.ringBits ≠ 0 ∧ s.core.step - a < 2 ^ s.core.ringBits ∧ s.core.clean64 (s.core.ringSlot g a) 8 ∧ v = (s.core.rd (Reg.grpLambda g) - BitVec.ofNat 64 (s.core.rdNat (gaLocal (s.core.ringSlot g a)) 8)).toNat ∧ long = 0 ∧ bad = 0) ∨ (a < s.core.step ∧ a ≠ 2 ^ 48 - 1 ∧ s.core.bit (Reg.grpCtrl g) 3 = true ∧ s.core.ringBits ≠ 0 ∧ 2 ^ s.core.ringBits ≤ s.core.step - a ∧ s.core.clean64 (s.core.ringSlot g (s.core.step + 1 - 2 ^ s.core.ringBits)) 8 ∧ v = (s.core.rd (Reg.grpLambda g) - BitVec.ofNat 64 (s.core.rdNat (gaLocal (s.core.ringSlot g (s.core.step + 1 - 2 ^ s.core.ringBits))) 8)).toNat + (s.core.step + 1 - 2 ^ s.core.ringBits - a) * (sGet s.integ.lam g 0).toNat ∧ long = 1 ∧ bad = 0))) ∧
    (∃ (s : State) (t n : Nat) (w : BitVec 27) (x : Ctx) (g a v long bad : Nat), s.atInstr t n 0x0C w x ∧ s.integ.boundaryWait = false ∧ fC w = 0 ∧ fF w = 0 ∧ g = (x.xr (fA w)).toNat % 256 ∧ a = (x.xr (fB w)).toNat % 2 ^ 48 ∧ ((a = 2 ^ 48 - 1 ∧ v = (sGet s.integ.lam g 0).toNat ∧ long = 0 ∧ bad = 0) ∨ (a ≠ 2 ^ 48 - 1 ∧ s.core.step ≤ a ∧ v = 0 ∧ long = 0 ∧ bad = (if s.core.step < a then 1 else 0)) ∨ (a < s.core.step ∧ a ≠ 2 ^ 48 - 1 ∧ (s.core.bit (Reg.grpCtrl g) 3 = false ∨ s.core.ringBits = 0) ∧ v = (s.core.step - a) * (sGet s.integ.lam g 0).toNat ∧ long = 0 ∧ bad = 0) ∨ (a < s.core.step ∧ a ≠ 2 ^ 48 - 1 ∧ s.core.bit (Reg.grpCtrl g) 3 = true ∧ s.core.ringBits ≠ 0 ∧ s.core.step - a < 2 ^ s.core.ringBits ∧ s.core.clean64 (s.core.ringSlot g a) 8 ∧ v = (s.core.rd (Reg.grpLambda g) - BitVec.ofNat 64 (s.core.rdNat (gaLocal (s.core.ringSlot g a)) 8)).toNat ∧ long = 0 ∧ bad = 0) ∨ (a < s.core.step ∧ a ≠ 2 ^ 48 - 1 ∧ s.core.bit (Reg.grpCtrl g) 3 = true ∧ s.core.ringBits ≠ 0 ∧ 2 ^ s.core.ringBits ≤ s.core.step - a ∧ s.core.clean64 (s.core.ringSlot g (s.core.step + 1 - 2 ^ s.core.ringBits)) 8 ∧ v = (s.core.rd (Reg.grpLambda g) - BitVec.ofNat 64 (s.core.rdNat (gaLocal (s.core.ringSlot g (s.core.step + 1 - 2 ^ s.core.ringBits))) 8)).toNat + (s.core.step + 1 - 2 ^ s.core.ringBits - a) * (sGet s.integ.lam g 0).toNat ∧ long = 1 ∧ bad = 0))) :=
  ⟨⟨ins 0xB (encI 3 1 0 0) (cx [(1, 0x105)]) [(Reg.grpEta 5, 0x1234_5678_3F80_0000), (Reg.grpState 5, 0x11), (Reg.grpCount 5, 9), (Reg.grpRoot 5, 0x1_0000_0000), (Reg.grpLambda 5, 77), (Reg.bandStep, 100), (Reg.grpCtrl 5, 9), (Reg.bandHistBase, 0x8000), (Reg.bandHistCtrl, 4)], 0, 0, encI 3 1 0 0, cx [(1, 0x105)], ((bandCodes (ins 0xB (encI 3 1 0 0) (cx [(1, 0x105)]) [(Reg.grpEta 5, 0x1234_5678_3F80_0000), (Reg.grpState 5, 0x11), (Reg.grpCount 5, 9), (Reg.grpRoot 5, 0x1_0000_0000), (Reg.grpLambda 5, 77), (Reg.bandStep, 100), (Reg.grpCtrl 5, 9), (Reg.bandHistBase, 0x8000), (Reg.bandHistCtrl, 4)]).core 5).getD 0 (0, 0)).2, by unfold State.atInstr; decide +kernel⟩,
   ⟨ins 0xB (encI 3 1 8 0) (cx [(1, 0x105)]) [(Reg.grpEta 5, 0x1234_5678_3F80_0000), (Reg.grpState 5, 0x11), (Reg.grpCount 5, 9), (Reg.grpRoot 5, 0x1_0000_0000), (Reg.grpLambda 5, 77), (Reg.bandStep, 100), (Reg.grpCtrl 5, 9), (Reg.bandHistBase, 0x8000), (Reg.bandHistCtrl, 4)], 0, 0, encI 3 1 8 0, cx [(1, 0x105)], by unfold State.atInstr; decide +kernel⟩,
   ⟨put ({ ins 0xC (enc 3 1 2 0 0) (cx [(1, 5), (2, 0xFFFF_FFFF_FFFF)]) [(Reg.grpEta 5, 0x1234_5678_3F80_0000), (Reg.grpState 5, 0x11), (Reg.grpCount 5, 9), (Reg.grpRoot 5, 0x1_0000_0000), (Reg.grpLambda 5, 77), (Reg.bandStep, 100), (Reg.grpCtrl 5, 9), (Reg.bandHistBase, 0x8000), (Reg.bandHistCtrl, 4)] with integ := { Integ.initial with lam := [(5, 3)] } } : State) 0x8280 ((List.range 16).flatMap fun i => leBytes 8 (i + 1)), 0, 0, enc 3 1 2 0 0, cx [(1, 5), (2, 0xFFFF_FFFF_FFFF)], 5, 0xFFFF_FFFF_FFFF, 3, 0, 0, by unfold State.atInstr Core.clean64; decide +kernel⟩,
   ⟨put ({ ins 0xC (enc 3 1 2 0 0) (cx [(1, 5), (2, 100)]) [(Reg.grpEta 5, 0x1234_5678_3F80_0000), (Reg.grpState 5, 0x11), (Reg.grpCount 5, 9), (Reg.grpRoot 5, 0x1_0000_0000), (Reg.grpLambda 5, 77), (Reg.bandStep, 100), (Reg.grpCtrl 5, 9), (Reg.bandHistBase, 0x8000), (Reg.bandHistCtrl, 4)] with integ := { Integ.initial with lam := [(5, 3)] } } : State) 0x8280 ((List.range 16).flatMap fun i => leBytes 8 (i + 1)), 0, 0, enc 3 1 2 0 0, cx [(1, 5), (2, 100)], 5, 100, 0, 0, 0, by unfold State.atInstr Core.clean64; decide +kernel⟩,
   ⟨put ({ ins 0xC (enc 3 1 2 0 0) (cx [(1, 5), (2, 101)]) [(Reg.grpEta 5, 0x1234_5678_3F80_0000), (Reg.grpState 5, 0x11), (Reg.grpCount 5, 9), (Reg.grpRoot 5, 0x1_0000_0000), (Reg.grpLambda 5, 77), (Reg.bandStep, 100), (Reg.grpCtrl 5, 9), (Reg.bandHistBase, 0x8000), (Reg.bandHistCtrl, 4)] with integ := { Integ.initial with lam := [(5, 3)] } } : State) 0x8280 ((List.range 16).flatMap fun i => leBytes 8 (i + 1)), 0, 0, enc 3 1 2 0 0, cx [(1, 5), (2, 101)], 5, 101, 0, 0, 1, by unfold State.atInstr Core.clean64; decide +kernel⟩,
   ⟨put ({ ins 0xC (enc 3 1 2 0 0) (cx [(1, 5), (2, 90)]) [(Reg.grpEta 5, 0x1234_5678_3F80_0000), (Reg.grpState 5, 0x11), (Reg.grpCount 5, 9), (Reg.grpRoot 5, 0x1_0000_0000), (Reg.grpLambda 5, 77), (Reg.bandStep, 100), (Reg.grpCtrl 5, 1), (Reg.bandHistBase, 0x8000), (Reg.bandHistCtrl, 4)] with integ := { Integ.initial with lam := [(5, 3)] } } : State) 0x8280 ((List.range 16).flatMap fun i => leBytes 8 (i + 1)), 0, 0, enc 3 1 2 0 0, cx [(1, 5), (2, 90)], 5, 90, 30, 0, 0, by unfold State.atInstr Core.clean64; decide +kernel⟩,
   ⟨put ({ ins 0xC (enc 3 1 2 0 0) (cx [(1, 5), (2, 90)]) [(Reg.grpEta 5, 0x1234_5678_3F80_0000), (Reg.grpState 5, 0x11), (Reg.grpCount 5, 9), (Reg.grpRoot 5, 0x1_0000_0000), (Reg.grpLambda 5, 77), (Reg.bandStep, 100), (Reg.grpCtrl 5, 9), (Reg.bandHistBase, 0x8000), (Reg.bandHistCtrl, 4)] with integ := { Integ.initial with lam := [(5, 3)] } } : State) 0x8280 ((List.range 16).flatMap fun i => leBytes 8 (i + 1)), 0, 0, enc 3 1 2 0 0, cx [(1, 5), (2, 90)], 5, 90, 77 - 11, 0, 0, by unfold State.atInstr Core.clean64; decide +kernel⟩,
   ⟨put ({ ins 0xC (enc 3 1 2 0 0) (cx [(1, 5), (2, 84)]) [(Reg.grpEta 5, 0x1234_5678_3F80_0000), (Reg.grpState 5, 0x11), (Reg.grpCount 5, 9), (Reg.grpRoot 5, 0x1_0000_0000), (Reg.grpLambda 5, 77), (Reg.bandStep, 100), (Reg.grpCtrl 5, 9), (Reg.bandHistBase, 0x8000), (Reg.bandHistCtrl, 4)] with integ := { Integ.initial with lam := [(5, 3)] } } : State) 0x8280 ((List.range 16).flatMap fun i => leBytes 8 (i + 1)), 0, 0, enc 3 1 2 0 0, cx [(1, 5), (2, 84)], 5, 84, 77 - 6 + 3, 1, 0, by unfold State.atInstr Core.clean64; decide +kernel⟩,
   ⟨put ({ ins 0xC (enc 3 1 2 0 0) (cx [(1, 5), (2, 85)]) [(Reg.grpEta 5, 0x1234_5678_3F80_0000), (Reg.grpState 5, 0x11), (Reg.grpCount 5, 9), (Reg.grpRoot 5, 0x1_0000_0000), (Reg.grpLambda 5, 77), (Reg.bandStep, 100), (Reg.grpCtrl 5, 9), (Reg.bandHistBase, 0x8000), (Reg.bandHistCtrl, 4)] with integ := { Integ.initial with lam := [(5, 3)] } } : State) 0x8280 ((List.range 16).flatMap fun i => leBytes 8 (i + 1)), 0, 0, enc 3 1 2 0 0, cx [(1, 5), (2, 85)], 5, 85, 77 - 6, 0, 0, by unfold State.atInstr Core.clean64; decide +kernel⟩⟩

theorem witness_TouchScanFindsTheNextMarkedRow :
    (∃ (s : State) (t n : Nat) (w : BitVec 27) (x : Ctx) (base rows r : Nat) (marked : Nat → Prop), (∀ l, l < ceilDiv rows 262144 + ceilDiv rows 512 → s.core.clean64 (base + 64 * l) 64) ∧ (∀ k, marked k ↔ (lineBit (s.core.gBytes (base + 64 * (k / 262144)) 64) (k / 512 % 512) = true ∧ lineBit (s.core.gBytes (base + 64 * (ceilDiv rows 262144 + k / 512)) 64) (k % 512) = true)) ∧ s.atInstr t n 0x0D w x ∧ fF4 w < 4 ∧ fImm13 w = 0 ∧ base = s.core.fld (Reg.tmapBase t (fF4 w)) 55 0 ∧ rows = s.core.fld (Reg.tmapRows t (fF4 w)) 39 0 ∧ r = (x.xr (fA w)).toNat ∧ s.core.fetching (.ctx t n) = false) :=
  ⟨put (ins 0xD (encI 3 1 2 0) (cx [(1, 2)]) [(Reg.tmapBase 0 2, 0x8000), (Reg.tmapRows 0 2, 1000)]) 0x8000 ([3] ++ List.replicate 63 0 ++ [9] ++ List.replicate 63 0 ++ [0, 0x80]), 0, 0, encI 3 1 2 0, cx [(1, 2)], 0x8000, 1000, 2, fun k => lineBit ((put (ins 0xD (encI 3 1 2 0) (cx [(1, 2)]) [(Reg.tmapBase 0 2, 0x8000), (Reg.tmapRows 0 2, 1000)]) 0x8000 ([3] ++ List.replicate 63 0 ++ [9] ++ List.replicate 63 0 ++ [0, 0x80])).core.gBytes (0x8000 + 64 * (k / 262144)) 64) (k / 512 % 512) = true ∧ lineBit ((put (ins 0xD (encI 3 1 2 0) (cx [(1, 2)]) [(Reg.tmapBase 0 2, 0x8000), (Reg.tmapRows 0 2, 1000)]) 0x8000 ([3] ++ List.replicate 63 0 ++ [9] ++ List.replicate 63 0 ++ [0, 0x80])).core.gBytes (0x8000 + 64 * (ceilDiv 1000 262144 + k / 512)) 64) (k % 512) = true, by unfold Core.clean64; decide +kernel, fun k => Iff.rfl, by unfold State.atInstr; decide +kernel⟩

theorem witness_VectorInstructionsWorkPerLane :
    (∃ (s : State) (t n : Nat) (w : BitVec 27) (x : Ctx), s.atInstr t n 0x11 w x ∧ fC w = 0 ∧ bitsOf (fF w) 5 4 = 0 ∧ bitsOf (fF w) 3 0 ≤ 6) ∧
    (∃ (s : State) (t n : Nat) (w : BitVec 27) (x : Ctx), s.atInstr t n 0x12 w x ∧ bitsOf (fF w) 5 2 = 0) ∧
    (∃ (s : State) (t n : Nat) (w : BitVec 27) (x : Ctx), s.atInstr t n 0x13 w x ∧ fB w = 0 ∧ fC w = 0 ∧ fF w ≤ 9) ∧
    (∃ (s : State) (t n : Nat) (w : BitVec 27) (x : Ctx), s.atInstr t n 0x14 w x ∧ fF w ≤ 4) ∧
    (∃ (s : State) (t n : Nat) (w : BitVec 27) (x : Ctx), s.atInstr t n 0x1A w x ∧ fC w = 0 ∧ fF w ≤ 9) ∧
    (∃ (s : State) (t n : Nat) (w : BitVec 27) (x : Ctx), s.atInstr t n 0x1B w x ∧ fC w = 0 ∧ fF w = 0) ∧
    (∃ (s : State) (t n : Nat) (w : BitVec 27) (x : Ctx) (l : Lane), s.atInstr t n 0x15 w x ∧ fB w = 0 ∧ fC w = 0 ∧ (fF w, l) ∈ [(0, tree16 fAdd (x.vr (fA w))), (1, tree16 (minMax true) (x.vr (fA w))), (2, tree16 (minMax false) (x.vr (fA w)))]) ∧
    (∃ (s : State) (t n : Nat) (w : BitVec 27) (x y : Ctx), s.atInstr t n 0x16 w x ∧ fC w = 0 ∧ fB w < 16 ∧ (fF w ≠ 1 → fF w ≠ 2 → fB w = 0) ∧ (fF w, y) ∈ [(0, x.setV (fD w) (List.replicate 16 ((x.xr (fA w)).truncate 32))), (1, x.setX (fD w) ((x.lane (fA w) (fB w)).zeroExtend 64)), (2, x.setV (fD w) ((x.vr (fD w)).set (fB w) ((x.xr (fA w)).truncate 32))), (3, x.setV (fD w) ((x.vr (fA w)).map fun l => ofIntL l.toInt)), (4, x.setV (fD w) ((x.vr (fA w)).map satInt32)), (5, x.setV (fD w) (x.vr (fA w)))]) :=
  ⟨⟨ins 0x11 (enc 3 1 2 0 0) (cv 0x4000_0000 0xC040_0000 [(2, 0x4000_0000)]) [], 0, 0, enc 3 1 2 0 0, cv 0x4000_0000 0xC040_0000 [(2, 0x4000_0000)], by unfold State.atInstr; decide +kernel⟩,
   ⟨ins 0x12 (enc 3 1 2 1 67) (cv 0x4000_0000 0xC040_0000 [(2, 0x4000_0000)]) [], 0, 0, enc 3 1 2 1 67, cv 0x4000_0000 0xC040_0000 [(2, 0x4000_0000)], by unfold State.atInstr; decide +kernel⟩,
   ⟨ins 0x13 (enc 3 1 0 0 9) (cv 0xC000_0000 0 [(2, 0x4000_0000)]) [], 0, 0, enc 3 1 0 0 9, cv 0xC000_0000 0 [(2, 0x4000_0000)], by unfold State.atInstr; decide +kernel⟩,
   ⟨ins 0x14 (enc 2 1 2 1 4) (cv 0x7FC0_0001 0x7FC0_0001 [(2, 0x4000_0000)]) [], 0, 0, enc 2 1 2 1 4, cv 0x7FC0_0001 0x7FC0_0001 [(2, 0x4000_0000)], by unfold State.atInstr; decide +kernel⟩,
   ⟨ins 0x1A (enc 3 1 2 0 9) (cv 0x8000_0005 0x23 [(2, 0x4000_0000)]) [], 0, 0, enc 3 1 2 0 9, cv 0x8000_0005 0x23 [(2, 0x4000_0000)], by unfold State.atInstr; decide +kernel⟩,
   ⟨ins 0x1B (enc 3 1 2 0 0) (cv 7 0x1F [(2, 0x4000_0000)]) [], 0, 0, enc 3 1 2 0 0, cv 7 0x1F [(2, 0x4000_0000)], by unfold State.atInstr; decide +kernel⟩,
   ⟨ins 0x15 (enc 3 1 0 0 2) (cv 0x3F80_0000 0 [(2, 0x4000_0000)]) [], 0, 0, enc 3 1 0 0 2, cv 0x3F80_0000 0 [(2, 0x4000_0000)], tree16 (minMax false) (List.replicate 16 0x3F80_0000), by unfold State.atInstr; decide +kernel⟩,
   ⟨ins 0x16 (enc 1 2 15 0 2) (cv 9 7 [(2, 0x4000_0000)]) [], 0, 0, enc 1 2 15 0 2, cv 9 7 [(2, 0x4000_0000)], (cv 9 7 [(2, 0x4000_0000)]).setV 1 ((List.replicate 16 9).set 15 0x4000_0000), by unfold State.atInstr; decide +kernel⟩⟩

theorem witness_UpdateStepsMoveAgainstTheirDirection :
    (∃ (s : State) (t n : Nat) (w : BitVec 27) (x : Ctx) (g : Nat), s.atInstr t n 0x18 w x ∧ bitsOf (fF w) 1 0 = 0 ∧ g = (x.xr (bitsOf (fF w) 6 2)).toNat % 256 ∧ s.core.bit (Reg.grpCtrl g) 0 = true ∧ s.core.held = false ∧ s.core.bit (Reg.grpState g) 0 = false) ∧
    (∃ (s : State) (t n : Nat) (w : BitVec 27) (x : Ctx) (g : Nat), s.atInstr t n 0x18 w x ∧ bitsOf (fF w) 1 0 = 0 ∧ g = (x.xr (bitsOf (fF w) 6 2)).toNat % 256 ∧ s.core.bit (Reg.grpCtrl g) 0 = true ∧ s.core.held = false ∧ s.core.bit (Reg.grpState g) 0 = true) ∧
    (∃ (s : State) (t n : Nat) (w : BitVec 27) (x : Ctx), s.atInstr t n 0x18 w x ∧ bitsOf (fF w) 1 0 = 0 ∧ (s.core.bit (Reg.grpCtrl ((x.xr (bitsOf (fF w) 6 2)).toNat % 256)) 0 = false ∨ s.core.held = true)) ∧
    (∃ s : State, s.core.bit Reg.bandCtrl 0 = false ∧ s.core.bit Reg.darnCtrl 0 = false ∧ s.jnlFull = false ∧ s.ticking = true) :=
  ⟨⟨ins 0x18 (enc 3 1 2 2 (4 * 5)) (cv 0x3F80_0000 0x4000_0000 [(5, 0x107)]) [(Reg.grpCtrl 7, 1), (Reg.grpEta 7, 0x3F00_0000)], 0, 0, enc 3 1 2 2 (4 * 5), cv 0x3F80_0000 0x4000_0000 [(5, 0x107)], 7, by unfold State.atInstr; decide +kernel⟩,
   ⟨ins 0x18 (enc 3 1 2 2 (4 * 5)) (cv 0x3F80_0000 0x4000_0000 [(5, 0x107)]) [(Reg.grpCtrl 7, 1), (Reg.grpEta 7, 0x3F00_0000), (Reg.grpState 7, 1)], 0, 0, enc 3 1 2 2 (4 * 5), cv 0x3F80_0000 0x4000_0000 [(5, 0x107)], 7, by unfold State.atInstr; decide +kernel⟩,
   ⟨ins 0x18 (enc 3 1 2 2 (4 * 5)) (cv 0x3F80_0000 0x4000_0000 [(5, 0x107)]) [], 0, 0, enc 3 1 2 2 (4 * 5), cv 0x3F80_0000 0x4000_0000 [(5, 0x107)], by unfold State.atInstr; decide +kernel⟩,
   ⟨st [(Reg.darnCtrl, 0), (Reg.grpCtrl 3, 1), (Reg.grpCtrl 7, 0x41)], by decide +kernel⟩⟩

theorem witness_LoadsReadMemory :
    (∃ (s : State) (t n : Nat) (w : BitVec 27) (x : Ctx) (size : Nat), s.atInstr t n 0x04 w x ∧ fF4 w < 8 ∧ size = 2 ^ (fF4 w % 4) ∧ s.core.clean64 (x.ldAddr w) size) ∧
    (∃ (s : State) (t n : Nat) (w : BitVec 27) (x : Ctx) (size : Nat), s.atInstr t n 0x04 w x ∧ fF4 w < 8 ∧ size = 2 ^ (fF4 w % 4) ∧ x.ldAddr w % size = 0 ∧ s.core.reach (x.ldAddr w) size = .remote ∧ s.core.reachable (gaModule (x.ldAddr w)) = true ∧ (s.core.freeTag (gaModule (x.ldAddr w))).isSome = true) ∧
    (∃ (s : State) (t n : Nat) (w : BitVec 27) (x : Ctx) (size : Nat), s.atInstr t n 0x04 w x ∧ fF4 w < 8 ∧ size = 2 ^ (fF4 w % 4) ∧ x.ldAddr w % size ≠ 0 ∧ s.core.reach (x.ldAddr w) size = .remote ∧ s.core.reachable (gaModule (x.ldAddr w)) = true ∧ s.core.fetched = [] ∧ s.core.fetching (.ctx t n) = false) ∧
    (∃ (s : State) (t n : Nat) (w : BitVec 27) (x : Ctx) (k : Nat), s.atInstr t n 0x0F w x ∧ (fF w = 0 ∨ fF w = 72) ∧ fC w = 0 ∧ k = laneCount (x.xr (fB w)) ∧ s.core.clean64 (addr56 (x.xr (fA w))) (4 * k) ∧ s.core.fetching (.ctx t n) = false) ∧
    (∃ (s : State) (t n : Nat) (w : BitVec 27) (x : Ctx) (k : Nat), s.atInstr t n 0x0F w x ∧ fF w = 8 ∧ fC w = 0 ∧ k = laneCount (x.xr (fB w)) ∧ s.core.clean64 (addr56 (x.xr (fA w))) (2 * k) ∧ s.core.fetching (.ctx t n) = false) ∧
    (∃ (s : State) (t n : Nat) (w : BitVec 27) (x : Ctx) (a : Nat → Nat), s.atInstr t n 0x1D w x ∧ fC w = 0 ∧ fF w = 0 ∧ (∀ i, i < 16 → a i = (addr56 (x.xr (fA w)) + 4 * (x.lane (fB w) i).toNat) % 2 ^ 56 ∧ a i % 4 = 0 ∧ s.core.clean64 (a i) 4)) :=
  ⟨⟨ins 4 (encI 3 1 7 0x1FFF) (cx [(1, 0x3000), (2, 0)]) [], 0, 0, encI 3 1 7 0x1FFF, cx [(1, 0x3000), (2, 0)], 8, by unfold State.atInstr Core.clean64; decide +kernel⟩,
   ⟨ins 4 (encI 3 1 3 0) (cx [(1, 0x5000_0000_3000), (2, 0)]) [(Reg.modRoute 5, 1), (Reg.qlStatus 0, 2)], 0, 0, encI 3 1 3 0, cx [(1, 0x5000_0000_3000), (2, 0)], 8, by unfold State.atInstr; decide +kernel⟩,
   ⟨ins 4 (encI 3 1 3 0) (cx [(1, 0x5000_0000_3001), (2, 0)]) [(Reg.modRoute 5, 1), (Reg.qlStatus 0, 2)], 0, 0, encI 3 1 3 0, cx [(1, 0x5000_0000_3001), (2, 0)], 8, by unfold State.atInstr; decide +kernel⟩,
   ⟨ins 0xF (enc 3 1 2 0 0) (cx [(1, 0x3000), (2, 3)]) [], 0, 0, enc 3 1 2 0 0, cx [(1, 0x3000), (2, 3)], 3, by unfold State.atInstr Core.clean64; decide +kernel⟩,
   ⟨ins 0xF (enc 3 1 2 0 8) (cx [(1, 0x3000), (2, 3)]) [], 0, 0, enc 3 1 2 0 8, cx [(1, 0x3000), (2, 3)], 3, by unfold State.atInstr Core.clean64; decide +kernel⟩,
   ⟨ins 0x1D (enc 3 1 2 0 0) ((cx [(1, 0x3000)]).setV 2 ((List.range 16).map fun i => BitVec.ofNat 32 (15 - i))) [], 0, 0, enc 3 1 2 0 0, (cx [(1, 0x3000)]).setV 2 ((List.range 16).map fun i => BitVec.ofNat 32 (15 - i)), fun i => 0x3000 + 4 * (15 - i), by unfold State.atInstr Core.clean64; decide +kernel⟩⟩

theorem witness_StoresWriteTheirBytesOnly :
    (∃ (s : State) (t n : Nat) (w : BitVec 27) (x : Ctx) (size : Nat), s.atInstr t n 0x05 w x ∧ fF4 w < 4 ∧ size = 2 ^ fF4 w ∧ s.core.clean64 (x.ldAddr w) size ∧ s.core.copiesFit 2 ∧ s.noneWaiting) ∧
    (∃ (s : State) (t n : Nat) (w : BitVec 27) (x : Ctx) (size : Nat), s.core.mustWait (gaLocal (x.ldAddr w)) = true ∧ s.atInstr t n 0x05 w x ∧ fF4 w < 4 ∧ size = 2 ^ fF4 w ∧ x.ldAddr w % size = 0 ∧ s.core.clean64 (x.ldAddr w) size ∧ s.noneWaiting) ∧
    (∃ (s : State) (t n : Nat) (w : BitVec 27) (x : Ctx) (k : Nat), s.atInstr t n 0x10 w x ∧ fF w = 0 ∧ fC w = 0 ∧ (x.vr (fD w)).length = 16 ∧ k = laneCount (x.xr (fB w)) ∧ s.core.clean64 (addr56 (x.xr (fA w))) (4 * k) ∧ s.core.copiesFit 2 ∧ s.noneWaiting) ∧
    (∃ (s : State) (t n : Nat) (w : BitVec 27) (x : Ctx) (a : Nat → Nat), s.atInstr t n 0x1E w x ∧ fC w = 0 ∧ fF w = 0 ∧ (x.vr (fD w)).length = 16 ∧ (∀ i, i < 16 → a i = (addr56 (x.xr (fA w)) + 4 * (x.lane (fB w) i).toNat) % 2 ^ 56 ∧ a i % 4 = 0 ∧ s.core.clean64 (a i) 4) ∧ s.core.copiesFit 16) ∧
    (∃ (s : State) (t n : Nat) (w : BitVec 27) (x : Ctx) (l : Nat), s.atInstr t n 0x17 w x ∧ fB w = 0 ∧ fC w = 0 ∧ fF w = 0 ∧ s.core.isLocal (addr56 (x.xr (fA w))) = true ∧ l = gaLocal (addr56 (x.xr (fA w))) / 64 * 64 ∧ s.core.addRefused (gaLocal (addr56 (x.xr (fA w)))) = false ∧ s.core.windowAt (gaLocal (addr56 (x.xr (fA w)))) = none ∧ s.core.mustWait (gaLocal (addr56 (x.xr (fA w)))) = false ∧ s.core.isUe (l / 64) = false) :=
  ⟨⟨ins 5 (encI 3 1 3 0x1FFD) (cx [(1, 0x3000), (3, 0x1122_3344_5566_7788)]) [], 0, 0, encI 3 1 3 0x1FFD, cx [(1, 0x3000), (3, 0x1122_3344_5566_7788)], 8, by unfold Core.copiesFit State.noneWaiting State.atInstr Core.clean64; decide +kernel⟩,
   ⟨fullS (ins 5 (encI 3 1 3 0) (cx [(1, 0x4000), (3, 0x1122)]) []), 0, 0, encI 3 1 3 0, cx [(1, 0x4000), (3, 0x1122)], 8, fullS_waits _ _ (by decide +kernel), by unfold State.noneWaiting State.atInstr Core.clean64; decide +kernel⟩,
   ⟨ins 0x10 (enc 3 1 2 0 0) (((cx [(1, 0x3000), (2, 5)]).setV 3 (List.replicate 16 0x1234_5678))) [], 0, 0, enc 3 1 2 0 0, ((cx [(1, 0x3000), (2, 5)]).setV 3 (List.replicate 16 0x1234_5678)), 5, by unfold Core.copiesFit State.noneWaiting State.atInstr Core.clean64; decide +kernel⟩,
   ⟨ins 0x1E (enc 3 1 2 0 0) ((((cx [(1, 0x3000)]).setV 2 ((List.range 16).map fun i => BitVec.ofNat 32 (15 - i))).setV 3 (List.replicate 16 7))) [], 0, 0, enc 3 1 2 0 0, (((cx [(1, 0x3000)]).setV 2 ((List.range 16).map fun i => BitVec.ofNat 32 (15 - i))).setV 3 (List.replicate 16 7)), fun i => 0x3000 + 4 * (15 - i), by unfold Core.copiesFit State.atInstr Core.clean64; decide +kernel⟩,
   ⟨ins 0x17 (enc 3 1 0 0 0) ((cx [(1, 0x4010)]).setV 3 (List.replicate 16 0x3F80_0000)) [], 0, 0, enc 3 1 0 0 0, (cx [(1, 0x4010)]).setV 3 (List.replicate 16 0x3F80_0000), 0x4000, by unfold State.atInstr; decide +kernel⟩⟩

theorem witness_WaitsAndEventEntries :
    (∃ (s : State) (t n : Nat) (w : BitVec 27) (x : Ctx) (ga : Nat), s.atInstr t n 0x09 w x ∧ fD w = 0 ∧ fC w = 0 ∧ fF w = 0 ∧ ga = addr56 (x.xr (fA w)) ∧ ga % 8 = 0 ∧ s.core.clean64 ga 8 ∧ BitVec.ofNat 64 (s.core.rdNat (gaLocal ga) 8) ≠ x.xr (fB w)) ∧
    (∃ (s : State) (t n : Nat) (w : BitVec 27) (x : Ctx) (ga : Nat), s.atInstr t n 0x09 w x ∧ fD w = 0 ∧ fC w = 0 ∧ fF w = 0 ∧ ga = addr56 (x.xr (fA w)) ∧ ga % 8 = 0 ∧ s.core.clean64 ga 8 ∧ BitVec.ofNat 64 (s.core.rdNat (gaLocal ga) 8) = x.xr (fB w)) ∧
    (∃ (s : State) (t n : Nat) (w : BitVec 27) (x : Ctx) (slot : Nat), s.atInstr t n 0x1C w x ∧ fD w = 0 ∧ fF4 w = 0 ∧ s.core.qEn 16383 = true ∧ 0 < s.core.qRoom 16383 ∧ s.core.pcLive (s.core.fld (Reg.qCfg 16383) 19 8) = true ∧ slot = s.core.qSlot 16383 (s.core.fld (Reg.qTail 16383) 31 0) ∧ slot % 64 = 0 ∧ s.core.mustWait slot = false) ∧
    (∃ (s : State) (t n : Nat) (w : BitVec 27) (x : Ctx), s.atInstr t n 0x1C w x ∧ fD w = 0 ∧ fF4 w = 0 ∧ (s.core.qEn 16383 = false ∨ s.core.qRoom 16383 = 0 ∨ s.core.pcLive (s.core.fld (Reg.qCfg 16383) 19 8) = false)) :=
  ⟨⟨put (ins 9 (enc 0 1 2 0 0) (cx [(1, 0x3000), (2, 0)]) []) 0x3000 [1], 0, 0, enc 0 1 2 0 0, cx [(1, 0x3000), (2, 0)], 0x3000, by unfold State.atInstr Core.clean64; decide +kernel⟩,
   ⟨ins 9 (enc 0 1 2 0 0) (cx [(1, 0x3000), (2, 0)]) [], 0, 0, enc 0 1 2 0 0, cx [(1, 0x3000), (2, 0)], 0x3000, by unfold State.atInstr Core.clean64; decide +kernel⟩,
   ⟨ins 0x1C (encI 0 1 0 0x1FFF) (cx [(1, 0x1122), (2, 0)]) [(Reg.qCfg 16383, 0x1), (Reg.qRing 16383, 0x8000), (Reg.pcStatus 0, 1)], 0, 0, encI 0 1 0 0x1FFF, cx [(1, 0x1122), (2, 0)], 0x8000, by unfold State.atInstr; decide +kernel⟩,
   ⟨ins 0x1C (encI 0 1 0 0x1FFF) (cx [(1, 0x1122), (2, 0)]) [(Reg.errqLost, 4)], 0, 0, encI 0 1 0 0x1FFF, cx [(1, 0x1122), (2, 0)], by unfold State.atInstr; decide +kernel⟩⟩

theorem witness_ControllersReadAndWriteLines :
    (∃ (s : State) (a l : Nat), l = a / 64 * 64 ∧ s.core.events = [] ∧ s.core.isChannelMem l = true ∧ s.core.isUe (l / 64) = false ∧ s.ticking = true) ∧
    (∃ (s : State) (a l : Nat) (e : MemErr), l = a / 64 * 64 ∧ s.core.isChannelMem l = true ∧ (e = .uncorrectable ∨ s.core.isUe (l / 64) = true) ∧ s.ticking = true) ∧
    (∃ (s : State) (a l : Nat) (data : List Byte) (e : MemErr), l = a / 64 * 64 ∧ s.core.isChannelMem l = true ∧ s.core.mustWait l = false ∧ s.ticking = true) ∧
    (∃ (s : State) (a l : Nat) (data : List Byte) (e : MemErr), s.core.mustWait l = true ∧ l = a / 64 * 64 ∧ s.core.isChannelMem l = true ∧ s.ticking = true) ∧
    (∃ (s : State) (a l : Nat) (mask : BitVec 64) (data : List Byte) (e : MemErr), l = a / 64 * 64 ∧ s.core.isChannelMem l = true ∧ mask ≠ BitVec.allOnes 64 ∧ e ≠ .uncorrectable ∧ s.core.isUe (l / 64) = false ∧ s.core.mustWait l = false ∧ s.ticking = true) ∧
    (∃ (s : State) (a l : Nat) (mask : BitVec 64) (data : List Byte) (e : MemErr), l = a / 64 * 64 ∧ s.core.isChannelMem l = true ∧ mask ≠ BitVec.allOnes 64 ∧ (e = .uncorrectable ∨ s.core.isUe (l / 64) = true) ∧ s.ticking = true) ∧
    (∃ (s : State) (a l : Nat) (bs : List Byte) (r : List CowOp), s.core.cow = .write a bs (.port l) :: r ∧ a % 64 = 0 ∧ bs.length = 64 ∧ s.core.mustWait a = false ∧ s.ticking = true) ∧
    (∃ (s : State) (o : CowOp) (r : List CowOp), s.core.mustWait o.addr = true ∧ s.core.cow = o :: r ∧ s.ticking = true) :=
  ⟨⟨line1 [], 0x4000, 0x4000, by decide +kernel⟩,
   ⟨line1 [], 0x4000, 0x4000, .uncorrectable, by decide +kernel⟩,
   ⟨line1 [], 0x4000, 0x4000, List.replicate 64 7, .uncorrectable, by decide +kernel⟩,
   ⟨fullS (line1 []), 0x4000, 0x4000, List.replicate 64 7, .none, fullS_waits _ _ (by decide +kernel), by decide +kernel⟩,
   ⟨line1 [], 0x4000, 0x4000, 0x8001, List.replicate 64 7, .corrected, by decide +kernel⟩,
   ⟨line1 [], 0x4000, 0x4000, 0x8001, List.replicate 64 7, .uncorrectable, by decide +kernel⟩,
   ⟨{ st [] with core := { (st []).core with cow := [.write 0x4000 ones (.port 0x4000)] } }, 0x4000, 0x4000, ones, [], by decide +kernel⟩,
   ⟨fullS { st [] with core := { (st []).core with cow := [.write 0x4000 ones .nobody] } }, .write 0x4000 ones .nobody, [], fullS_waits _ _ (by decide +kernel), by decide +kernel⟩⟩

theorem witness_ScrubChecksTranslationAndFillCounts :
    (∃ (s : State) (ch : Nat) (e : MemErr), e ≠ .uncorrectable ∧ (∀ a, s.core.channelAddr ch (sGet s.core.scrub ch 0 % s.core.channelLines ch) = some a → s.core.isUe (a / 64) = false) ∧ s.core.events = [] ∧ ch < 400 ∧ s.core.bit (if ch < 384 then Reg.hbmCtrl else Reg.ddrCtrl) 1 = true ∧ due (lastOf s.core.scrubAt ch) (2 ^ s.core.fld (if ch < 384 then Reg.hbmCtrl else Reg.ddrCtrl) 11 8) s.core.now.toNat = true ∧ 0 < s.core.channelLines ch ∧ s.ticking = true) ∧
    (∃ (s : State) (ch : Nat), ch < 384 ∧ s.mayCheck ch = true ∧ s.ticking = true) ∧
    (∃ (s : State) (ch : Nat), ch < 384 ∧ s.mayCheck ch = true ∧ s.ticking = true) ∧
    (∃ (s : State) (ch : Nat) (ok : Bool), s.mayCheck ch = false ∧ s.ticking = true) ∧
    (∃ (s : State) (v : Word), s.ticking = true) ∧
    (∃ (s : State) (f : Nat) (v : Word), f < 64 ∧ s.ticking = true) :=
  ⟨⟨st [(Reg.hbmCtrl, 2)], 383, .corrected, by decide, by intro a h; cases h; decide +kernel, by decide +kernel⟩,
   ⟨st [], 383, by decide +kernel⟩,
   ⟨st [], 9, by decide +kernel⟩,
   ⟨{ st [] with integ := { Integ.initial with checked := [(9, 0)] } }, 9, false, by decide +kernel⟩,
   ⟨st [(Reg.ddrCapacity, 0x40_0000_0000)], 0x830_0000_0000, by decide +kernel⟩,
   ⟨st [], 63, 0x1_2345, by decide +kernel⟩⟩

theorem witness_AdderOperationsChangeOneLine :
    (∃ (s : State) (a rank l : Nat) (mask : BitVec 16) (data : List Byte), l = a / 64 * 64 ∧ s.core.addRefused a = false ∧ s.core.windowAt a = none ∧ s.core.mustWait a = false ∧ s.core.isUe (l / 64) = false ∧ s.ticking = true) ∧
    (∃ (s : State) (a l : Nat) (data : List Byte), l = a / 64 * 64 ∧ s.core.addRefused a = false ∧ s.core.mustWait a = false ∧ s.core.isUe (l / 64) = false ∧ s.ticking = true) ∧
    (∃ (s : State) (a l : Nat) (mask : BitVec 16), l = a / 64 * 64 ∧ s.core.addRefused a = false ∧ s.core.mustWait a = false ∧ s.core.isUe (l / 64) = false ∧ s.ticking = true) ∧
    (∃ (s : State) (a rank l : Nat) (mask : BitVec 16) (data : List Byte) (c : Instr), c ∈ [Instr.add a rank mask data, Instr.bitset a data, Instr.zero a mask] ∧ l = a / 64 * 64 ∧ s.core.addRefused a = true ∧ s.ticking = true) ∧
    (∃ (s : State) (a rank l : Nat) (mask : BitVec 16) (data : List Byte) (c : Instr), c ∈ [Instr.add a rank mask data, Instr.bitset a data, Instr.zero a mask] ∧ l = a / 64 * 64 ∧ s.core.addRefused a = false ∧ s.core.windowAt a = none ∧ s.core.mustWait a = false ∧ s.core.isUe (l / 64) = true ∧ s.ticking = true) ∧
    (∃ (s : State) (a rank : Nat) (mask : BitVec 16) (data : List Byte) (c : Instr), s.core.mustWait a = true ∧ c ∈ [Instr.add a rank mask data, Instr.bitset a data, Instr.zero a mask] ∧ s.core.addRefused a = false ∧ s.core.windowAt a = none ∧ s.ticking = true) :=
  ⟨⟨line1 [], 0x4000, 3, 0x4000, 0xF00F, ones, by decide +kernel⟩,
   ⟨line1 [], 0x4000, 0x4000, List.replicate 64 0x81, by decide +kernel⟩,
   ⟨line1 [], 0x4000, 0x4000, 0x8001, by decide +kernel⟩,
   ⟨line1 [], 0x120_0000_0000, 0, 0x120_0000_0000, 0xFFFF, ones, .add 0x120_0000_0000 0 0xFFFF ones, by decide +kernel⟩,
   ⟨{ line1 [] with core := { (line1 []).core with ue := [0x100] } }, 0x4000, 0, 0x4000, 0xFFFF, ones, .add 0x4000 0 0xFFFF ones, by decide +kernel⟩,
   ⟨fullS (line1 []), 0x4000, 0, 0xFFFF, ones, .add 0x4000 0 0xFFFF ones, fullS_waits _ _ (by decide +kernel), by decide +kernel⟩⟩

theorem witness_WindowsStageTheirAdds :
    (∃ (s : State) (a rank n : Nat) (mask : BitVec 16) (data : List Byte), s.core.addRefused a = false ∧ s.core.windowAt a = some n ∧ s.core.winState n ≠ 2 ∧ s.core.stagedOn n (s.core.hbmChannel a) < s.core.stageCap n (s.core.hbmChannel a) ∧ s.ticking = true) ∧
    (∃ (s : State) (a rank n : Nat) (mask : BitVec 16) (data : List Byte), s.core.addRefused a = false ∧ s.core.windowAt a = some n ∧ s.core.winState n = 2 ∧ s.ticking = true) ∧
    (∃ (s : State) (a rank n l : Nat) (mask : BitVec 16) (data : List Byte), l = a / 64 * 64 ∧ s.core.addRefused a = false ∧ s.core.windowAt a = some n ∧ s.core.winState n ≠ 2 ∧ s.core.stageCap n (s.core.hbmChannel a) ≤ s.core.stagedOn n (s.core.hbmChannel a) ∧ s.core.mustWait a = false ∧ s.core.isUe (l / 64) = false ∧ s.ticking = true) ∧
    (∃ (s : State) (e : LateAdd) (l : Nat), s.core.late.find? s.core.lateReady = some e ∧ l = e.addr / 64 * 64 ∧ e.win < 16 ∧ s.core.isUe (l / 64) = false ∧ s.ticking = true) :=
  ⟨⟨win 1 [], 0x4000, 0x1_0003, 3, 0xF00F, ones, by decide +kernel⟩,
   ⟨win 2 [], 0x4000, 5, 3, 0xF00F, ones, by decide +kernel⟩,
   ⟨win 1 [(Reg.winStageSize 3, 0x1000)], 0x4000, 5, 3, 0x4000, 0xF00F, ones, by decide +kernel⟩,
   ⟨{ win 2 [] with core := { (win 2 []).core with late := [⟨3, 0x4000, 5, 0xF00F, List.replicate 16 0x3F80_0000, .nobody⟩] } }, ⟨3, 0x4000, 5, 0xF00F, List.replicate 16 0x3F80_0000, .nobody⟩, 0x4000, by decide +kernel⟩⟩

theorem witness_WindowCommandsMoveTheWindow :
    (∃ (s : State) (n : Nat), n < 16 ∧ s.core.winState n = 0 ∧ s.core.bit (Reg.winCtrl n) 0 = false ∧ s.core.winBad n = false ∧ s.ticking = true) ∧
    (∃ (s : State) (n : Nat), n < 16 ∧ s.core.winState n = 0 ∧ s.core.bit (Reg.winCtrl n) 0 = false ∧ s.core.winBad n = true ∧ s.ticking = true) ∧
    (∃ (s : State) (n : Nat), s.tidy ∧ n < 16 ∧ s.core.bit (Reg.winCtrl n) 0 = true ∧ s.ticking = true) ∧
    (∃ (s : State) (n : Nat), n < 16 ∧ s.core.winState n = 1 ∧ s.ticking = true) ∧
    (∃ (s : State) (n : Nat), n < 16 ∧ s.core.winState n ≠ 1 ∧ s.ticking = true) ∧
    (∃ (s : State) (n : Nat), n < 16 ∧ s.core.winState n = 2 ∧ s.core.copiesFit (s.core.staged.filter fun e => e.win == n).length ∧ s.ticking = true) ∧
    (∃ (s : State) (n : Nat) (e : Staged), s.core.mustWait (s.core.stagedAddr e) = true ∧ n < 16 ∧ s.core.winState n = 2 ∧ e ∈ s.core.staged ∧ e.win = n ∧ s.ticking = true) ∧
    (∃ (s : State) (n : Nat), n < 16 ∧ s.core.winState n = 1 ∧ s.ticking = true) :=
  ⟨⟨win 0 [], 3, by decide +kernel⟩,
   ⟨win 0 [(Reg.winBase 3, 0x120_0000_0000)], 3, by decide +kernel⟩,
   ⟨win 0 [(Reg.winCtrl 3, 1)], 3, by unfold State.tidy; decide +kernel⟩,
   ⟨win 1 [], 3, by decide +kernel⟩,
   ⟨win 2 [], 3, by decide +kernel⟩,
   ⟨withStaged (win 2 []) [staged 0 5, { staged 0 1 with win := 4 }], 3, by unfold Core.copiesFit; decide +kernel⟩,
   ⟨fullS (withStaged (win 2 []) [staged 256 5]), 3, staged 256 5, fullS_waits _ _ (by decide +kernel), by decide +kernel⟩,
   ⟨withStaged (win 1 []) [staged 0 5, { staged 0 1 with win := 4 }], 3, by decide +kernel⟩⟩

theorem witness_CloseAddsInRankOrder :
    (∃ (s : State) (n : Nat), n < 16 ∧ s.core.winState n = 2 ∧ (s.core.winRange n).1 % 64 = 0 ∧ (∀ e ∈ s.core.staged, e.win = n → s.core.isUe (s.core.stagedAddr e / 64) = false) ∧ s.core.copiesFit (s.core.staged.filter fun e => e.win == n).length ∧ s.ticking = true) :=
  ⟨withStaged (win 2 []) [staged 0 5, staged 1 2, staged 0 1, { staged 0 1 with win := 4 }], 3, by unfold Core.copiesFit; decide +kernel⟩

theorem witness_ContributionsAtTheirOwner :
    (∃ (s : State) (m : Msg) (ms : List Msg) (b : Bucket), s.core.events = [] ∧ s.net.rxMsgs = m :: ms ∧ leField m.bytes 0 1 = 1 ∧ s.redTurned m (redTag m.bytes) = none ∧ s.redOpen m (redTag m.bytes) = none ∧ s.bucketAt (redTag m.bytes).land = some b ∧ b.idx < 64 ∧ s.redDecide (some b) m (redTag m.bytes) (leField m.bytes 0x10 4) = (0, false) ∧ m.src ≠ s.core.moduleNo ∧ 0 < leField m.bytes 0x10 4 ∧ s.ticking = true) ∧
    (∃ (s : State) (m : Msg) (ms : List Msg), s.core.events = [] ∧ s.net.rxMsgs = m :: ms ∧ leField m.bytes 0 1 = 1 ∧ s.redTurned m (redTag m.bytes) = none ∧ s.bucketAt (redTag m.bytes).land = none ∧ m.src ≠ s.core.moduleNo ∧ s.ticking = true) ∧
    (∃ (s : State) (m : Msg) (ms : List Msg) (b l : Nat) (c : Contrib) (x : Bucket), s.net.rxMsgs = m :: ms ∧ leField m.bytes 0 1 = 2 ∧ s.redTurned m (redTag m.bytes) = none ∧ s.redOpen m (redTag m.bytes) = some (b, c) ∧ s.bucket? b = some x ∧ leField m.bytes 1 1 = 1 ∧ leField m.bytes 6 3 < x.lines ∧ l = gaLocal (redTag m.bytes).land + 64 * leField m.bytes 6 3 ∧ l % 64 = 0 ∧ s.core.addRefused l = false ∧ s.core.windowAt l = none ∧ s.core.mustWait l = false ∧ s.core.isUe (l / 64) = false ∧ m.src ≠ s.core.moduleNo ∧ s.ticking = true) ∧
    (∃ (s : State) (m : Msg) (ms : List Msg) (b : Nat) (c : Contrib), s.net.rxMsgs = m :: ms ∧ leField m.bytes 0 1 = 6 ∧ s.redOpen m (redTag m.bytes) = some (b, c) ∧ s.ticking = true) :=
  ⟨⟨rx [(Reg.bktState 3, 2), (Reg.bktLanding 3, 0x4000)] (msg 1 (header 4 3)) (fun r => { r with buckets := [bkt 0 0 []] }), msg 1 (header 4 3), [], bkt 0 0 [], by decide +kernel⟩,
   ⟨rx [] (msg 1 (header 4 3)) id, msg 1 (header 4 3), [], by decide +kernel⟩,
   ⟨rx [(Reg.bktState 3, 2), (Reg.bktLanding 3, 0x4000)] (msg 1 (red 2 1 1 ones)) (fun r => { r with buckets := [bkt 0 0 [contrib]] }), msg 1 (red 2 1 1 ones), [], 3, 0x4040, contrib, bkt 0 0 [contrib], by decide +kernel⟩,
   ⟨rx [(Reg.bktState 3, 0x0000_0100_0000_0002), (Reg.bktLanding 3, 0x4000)] (msg 1 (red 6 0 0 [])) (fun r => { r with buckets := [bkt 0 0 [contrib]] }), msg 1 (red 6 0 0 []), [], 3, contrib, by decide +kernel⟩⟩

theorem witness_RepliesEndTheirSends :
    (∃ (s : State) (m : Msg) (ms : List Msg) (x : Send), s.net.rxMsgs = m :: ms ∧ leField m.bytes 0 1 = 3 ∧ s.sendOf m = some x ∧ x.empty = false ∧ s.ticking = true) ∧
    (∃ (s : State) (m : Msg) (ms : List Msg) (x : Send) (d : Desc), s.net.rxMsgs = m :: ms ∧ leField m.bytes 0 1 = 3 ∧ s.sendOf m = some x ∧ x.empty = true ∧ s.desc? x.desc = some d ∧ d.conds = [] ∧ s.ticking = true) ∧
    (∃ (s : State) (m : Msg) (ms : List Msg) (x : Send) (d : Desc), s.net.rxMsgs = m :: ms ∧ leField m.bytes 0 1 = 4 ∧ s.sendOf m = some x ∧ s.desc? x.desc = some d ∧ d.conds = [] ∧ leField m.bytes 1 1 ≠ 0 ∧ s.ticking = true) ∧
    (∃ (s : State) (m : Msg) (ms : List Msg) (x : Send) (d : Desc), s.net.rxMsgs = m :: ms ∧ leField m.bytes 0 1 = 5 ∧ s.sendOf m = some x ∧ s.desc? x.desc = some d ∧ s.ticking = true) :=
  ⟨⟨{ rx [] (msg 1 (red 3 0 0 [])) (fun r => { r with sends := [send false] }) with work := { Work.initial with nextId := 8, descs := [{ op 0x61 3 0 .finished with acks := 1 }] } }, msg 1 (red 3 0 0 []), [], send false, by decide +kernel⟩,
   ⟨{ rx [] (msg 1 (red 3 0 0 [])) (fun r => { r with sends := [send true] }) with work := { Work.initial with nextId := 8, descs := [{ op 0x61 3 0 .finished with acks := 1 }] } }, msg 1 (red 3 0 0 []), [], send true, { op 0x61 3 0 .finished with acks := 1 }, by decide +kernel⟩,
   ⟨{ rx [] (msg 1 (red 4 0x15 0 [])) (fun r => { r with sends := [send false] }) with work := { Work.initial with nextId := 8, descs := [{ op 0x61 3 0 .finished with acks := 1 }] } }, msg 1 (red 4 0x15 0 []), [], send false, { op 0x61 3 0 .finished with acks := 1 }, by decide +kernel⟩,
   ⟨{ rx [] (msg 1 (red 5 0 0 [])) (fun r => { r with sends := [send false] }) with work := { Work.initial with nextId := 8, descs := [{ op 0x61 3 0 .finished with acks := 1 }] } }, msg 1 (red 5 0 0 []), [], send false, { op 0x61 3 0 .finished with acks := 1 }, by decide +kernel⟩⟩

theorem witness_BucketsSealDrainAndFinalise :
    (∃ (s : State) (b : Nat) (x : Bucket), s.bucket? b = some x ∧ b < 64 ∧ s.core.fld (Reg.bktState b) 2 0 = 2 ∧ x.deadline ≠ 0 ∧ x.first + 2048 * x.deadline ≤ s.core.now.toNat ∧ s.packetBefore b (x.first + 2048 * x.deadline) = false ∧ s.ticking = true) ∧
    (∃ (s : State) (b : Nat) (x : Bucket), s.bucket? b = some x ∧ (x.deadline = 0 ∨ s.core.now.toNat < x.first + 2048 * x.deadline) ∧ s.core.events = [] ∧ s.ticking = true) ∧
    (∃ (s : State) (b : Nat) (x : Bucket) (d : Desc), s.bucket? b = some x ∧ b < 64 ∧ s.core.fld (Reg.bktState b) 2 0 = 3 ∧ x.drain ≠ 0 ∧ (∃ c ∈ x.contribs, c.accepted = true ∧ c.complete = false) ∧ x.sealTick + x.drain < s.core.now.toNat ∧ s.desc? x.desc = some d ∧ d.conds = [] ∧ x.ueLines = [] ∧ x.refusedAdd = false ∧ s.ticking = true) ∧
    (∃ (s : State) (b : Nat) (x : Bucket) (d : Desc), s.bucket? b = some x ∧ b < 64 ∧ s.core.fld (Reg.bktState b) 2 0 = 3 ∧ (∀ c ∈ x.contribs, c.accepted = true → c.complete = true) ∧ s.finaliseTurn x = true ∧ s.desc? x.desc = some d ∧ d.phase = .running ∧ s.works d = true ∧ (∀ n, s.core.bucketWindow b = some n → s.core.winState n ≠ 3 ∧ s.core.copiesFit (s.core.staged.filter fun e => e.win == n).length) ∧ s.ticking = true) ∧
    (∃ (s : State) (b : Nat) (x : Bucket), s.bucket? b = some x ∧ b < 64 ∧ s.core.fld (Reg.bktState b) 2 0 = 3 ∧ (s.desc? x.desc).any s.works = false ∧ s.core.events = [] ∧ s.ticking = true) ∧
    (∃ (s : State) (id : Nat) (d : Desc) (x : Bucket), s.desc? id = some d ∧ d.phase = .finished ∧ d.acks = 0 ∧ s.dumpsLeft id 0 = false ∧ s.red.buckets.find? (fun b => b.desc == id && s.core.fld (Reg.bktState b.idx) 2 0 != 5) = some x ∧ x.idx < 64 ∧ s.ticking = true) :=
  ⟨⟨bucketS 2048 (bkt 1 0 []) [(Reg.bktState 3, 2)], 3, bkt 1 0 [], by decide +kernel⟩,
   ⟨bucketS 2047 (bkt 1 0 []) [(Reg.bktState 3, 2)], 3, bkt 1 0 [], by decide +kernel⟩,
   ⟨bucketS 11 (bkt 0 10 [contrib]) [(Reg.bktState 3, 3)], 3, bkt 0 10 [contrib], op 0x62 3 0 .running, by decide +kernel⟩,
   ⟨bucketS 11 (bkt 0 10 [{ contrib with complete := true }]) [(Reg.bktState 3, 3)], 3, bkt 0 10 [{ contrib with complete := true }], op 0x62 3 0 .running, by unfold Core.copiesFit; decide +kernel⟩,
   ⟨{ bucketS 11 (bkt 0 10 [{ contrib with complete := true }]) [(Reg.bktState 3, 3)] with work := Work.initial }, 3, bkt 0 10 [{ contrib with complete := true }], by decide +kernel⟩,
   ⟨{ bucketS 11 (bkt 0 10 [{ contrib with complete := true }]) [(Reg.bktState 3, 4)] with work := { Work.initial with nextId := 8, descs := [op 0x62 3 0 .finished] } }, 0, op 0x62 3 0 .finished, bkt 0 10 [{ contrib with complete := true }], by decide +kernel⟩⟩

theorem witness_EthernetFramesAreSorted :
    (∃ (s : State) (p : Nat) (ok : Bool) (f : List Byte), s.core.bit (Reg.epStatus p) 0 = false ∧ s.alive = true) ∧
    (∃ (s : State) (p : Nat) (ok : Bool) (f : List Byte), p < 2 ∧ s.core.bit (Reg.epStatus p) 0 = true ∧ (ok = false ∨ 9216 < f.length ∨ beNat (bytesAt f 12 2) = 0x8100) ∧ s.alive = true) ∧
    (∃ (s : State) (p : Nat) (f r : List Byte), p < 2 ∧ s.core.bit (Reg.epStatus p) 0 = true ∧ f.length ≤ 9216 ∧ beNat (bytesAt f 12 2) ≠ 0x8100 ∧ ptpAt f = none ∧ beNat (bytesAt f 0 6) = s.core.fld (Reg.epMac p) 47 0 ∧ s.core.arpReply p f = some r ∧ s.alive = true) ∧
    (∃ (s : State) (p : Nat) (f : List Byte) (v : UdpView), p < 2 ∧ s.core.bit (Reg.epStatus p) 0 = true ∧ f.length ≤ 9216 ∧ ptpAt f = none ∧ beNat (bytesAt f 0 6) = s.core.fld (Reg.epMac p) 47 0 ∧ udpView f = some v ∧ v.clean = true ∧ v.dport ≠ 4791 ∧ v.dport = s.core.fld (Reg.epCmdPort p) 15 0 ∧ 32 ≤ v.body.length ∧ v.body.length ≤ 8224 ∧ leField v.body 4 1 = 1 ∧ 1 ≤ leField v.body 5 1 ∧ leField v.body 5 1 ≤ 3 ∧ s.alive = true) ∧
    (∃ (s : State) (p o : Nat) (f : List Byte), p < 2 ∧ s.core.bit (Reg.epStatus p) 0 = true ∧ f.length ≤ 9216 ∧ beNat (bytesAt f 12 2) ≠ 0x8100 ∧ ptpAt f = some o ∧ leField (f.drop o) 0 1 % 16 ≤ 3 ∧ leField (f.drop o) 1 1 % 16 = 2 ∧ (s.net.ptp.filter fun x => x.port == p).length < 16 ∧ s.alive = true) ∧
    (∃ (s : State) (p : Nat) (x : Ptp), p < 2 ∧ s.net.ptp.find? (fun x => x.port == p) = some x ∧ s.ticking = true) :=
  ⟨⟨st [], 0, true, arp, by decide +kernel⟩,
   ⟨port [], 0, false, arp, by decide +kernel⟩,
   ⟨port [], 0, arp, ((port []).core.arpReply 0 arp).getD [], by decide +kernel⟩,
   ⟨port [], 0, cmdFrame, (udpView cmdFrame).getD ⟨false, 0, 0, 0, 0, [], false⟩, by decide +kernel⟩,
   ⟨port [], 0, 14, ptpFrame, by decide +kernel⟩,
   ⟨{ port [] with net := { Net.initial with ptp := [⟨0, 5, 1, 2⟩, ⟨0, 6, 2, 2⟩] } }, 0, ⟨0, 5, 1, 2⟩, by decide +kernel⟩⟩

theorem witness_RoceRequestsAreServed :
    (∃ (s s1 : State) (p x q : Nat) (k : RocePkt), s.takeRoce p [0, 1, 2, 4] = some (some x, k, s1) ∧ x < 4095 ∧ k.op = 4 ∧ s.core.seqIn x % 2 ^ 24 = k.psn ∧ lengthOk (s.core.pmtu x) k = true ∧ (s.pcRun x).sendBuf = none ∧ k.body.length % 64 = 0 ∧ q = s.core.fld (Reg.pcCtrl x) 33 20 ∧ s.core.qTakes q x = true ∧ k.body.length / 64 ≤ s.core.qRoom q ∧ s.work.direct = [] ∧ s.ticking = true) ∧
    (∃ (s s1 : State) (p x : Nat) (k : RocePkt), s.takeRoce p [6, 7, 8, 10] = some (some x, k, s1) ∧ x < 4095 ∧ k.op = 10 ∧ s.core.seqIn x % 2 ^ 24 = k.psn ∧ lengthOk (s.core.pmtu x) k = true ∧ (s.pcRun x).writeAt = none ∧ s.core.rethOk x k = true ∧ k.body.length = k.len ∧ (∀ l ∈ linesOf k.va k.len, s.core.isUe l = false) ∧ s.core.copiesFit (k.len / 0x4000 + 2) ∧ s.ticking = true) ∧
    (∃ (s s1 : State) (p x : Nat) (k : RocePkt), s.takeRoce p [6, 7, 8, 10] = some (some x, k, s1) ∧ s.writeHeld x k = true ∧ s.ticking = true) ∧
    (∃ (s s1 : State) (p x : Nat) (k : RocePkt), s.takeRoce p [12] = some (some x, k, s1) ∧ s.overRead p = false ∧ x < 4095 ∧ s.core.seqIn x % 2 ^ 24 = k.psn ∧ (s.pcRun x).sendBuf = none ∧ (s.pcRun x).writeAt = none ∧ s.core.rethOk x k = true ∧ (∀ l ∈ linesOf k.va k.len, s.core.isUe l = false) ∧ s.core.bit (Reg.epStatus (s.core.fld (Reg.pcCtrl x) 3 3)) 0 = true ∧ s.ticking = true) ∧
    (∃ (s s1 : State) (p : Nat) (k : RocePkt) (c : Nat → Instr) (ops : List Nat), (c, ops) ∈ [(Instr.roceSend, [0, 1, 2, 4]), (Instr.roceWrite, [6, 7, 8, 10]), (Instr.roceReadRequest, [12])] ∧ s.takeRoce p ops = some (none, k, s1) ∧ s.ticking = true) ∧
    (∃ (s s1 : State) (p : Nat) (k : RocePkt) (c : Nat → Instr) (ops : List Nat), (c, ops) ∈ [(Instr.roceSend, [0, 1, 2, 4]), (Instr.roceWrite, [6, 7, 8, 10]), (Instr.roceReadRequest, [12])] ∧ s.takeRoce p ops = some (none, k, s1) ∧ s.ticking = true) ∧
    (∃ (s s1 : State) (p : Nat) (k : RocePkt) (c : Nat → Instr) (ops : List Nat), (c, ops) ∈ [(Instr.roceSend, [0, 1, 2, 4]), (Instr.roceWrite, [6, 7, 8, 10]), (Instr.roceReadRequest, [12])] ∧ s.takeRoce p ops = some (none, k, s1) ∧ s.ticking = true) :=
  ⟨⟨up true 0x50_0002 (roce 4 0x1001 [] (ones)) (mail), taken (up true 0x50_0002 (roce 4 0x1001 [] (ones)) (mail)), 0, 1, 5, rocePkt (roce 4 0x1001 [] (ones)), by decide +kernel⟩,
   ⟨up true 0x50_0002 (roce 10 0x1001 reth ([1, 2, 3, 4, 5, 6, 7, 8])) ([(Reg.pcKey 1, 0x77_0000_0000)]), taken (up true 0x50_0002 (roce 10 0x1001 reth ([1, 2, 3, 4, 5, 6, 7, 8])) ([(Reg.pcKey 1, 0x77_0000_0000)])), 0, 1, rocePkt (roce 10 0x1001 reth ([1, 2, 3, 4, 5, 6, 7, 8])), by unfold Core.copiesFit; decide +kernel⟩,
   ⟨full0 (up true 0x50_0002 (roce 10 0x1001 reth ([1, 2, 3, 4, 5, 6, 7, 8])) ([(Reg.pcKey 1, 0x77_0000_0000)])), taken (full0 (up true 0x50_0002 (roce 10 0x1001 reth ([1, 2, 3, 4, 5, 6, 7, 8])) ([(Reg.pcKey 1, 0x77_0000_0000)]))), 0, 1, rocePkt (roce 10 0x1001 reth ([1, 2, 3, 4, 5, 6, 7, 8])), rfl, full0_holds _ _ _ (by decide +kernel), by decide +kernel⟩,
   ⟨up true 0x50_0002 (roce 12 0x1001 reth ([])) ([(Reg.pcKey 1, 0x77_0000_0000)]), taken (up true 0x50_0002 (roce 12 0x1001 reth ([])) ([(Reg.pcKey 1, 0x77_0000_0000)])), 0, 1, rocePkt (roce 12 0x1001 reth ([])), by decide +kernel⟩,
   ⟨up true 0x50_0002 (roce 4 0x1002 [] (ones)) ([]), taken (up true 0x50_0002 (roce 4 0x1002 [] (ones)) ([])), 0, rocePkt (roce 4 0x1002 [] (ones)), Instr.roceSend, [0, 1, 2, 4], by simp, by decide +kernel⟩,
   ⟨up true 0x50_0002 (roce 10 0x1002 reth (ones)) ([]), taken (up true 0x50_0002 (roce 10 0x1002 reth (ones)) ([])), 0, rocePkt (roce 10 0x1002 reth (ones)), Instr.roceWrite, [6, 7, 8, 10], by simp, by decide +kernel⟩,
   ⟨up true 0x50_0002 (roce 12 0x1002 reth (ones)) ([]), taken (up true 0x50_0002 (roce 12 0x1002 reth (ones)) ([])), 0, rocePkt (roce 12 0x1002 reth (ones)), Instr.roceReadRequest, [12], by simp, by decide +kernel⟩⟩

theorem witness_CommandDatagramsAreTaken :
    (∃ (s s1 : State) (p x q n : Nat) (d : UpPkt), s.takeDg p 1 = some (d, s1) ∧ n = leField d.bytes 18 2 ∧ q = leField d.bytes 16 2 ∧ 1 ≤ n ∧ n ≤ 128 ∧ d.bytes.length = 32 + 64 * n ∧ leField d.bytes 6 2 ≠ 4095 ∧ s1.dgContext d = some x ∧ (s.pcRun x).unacked = [] ∧ leField d.bytes 8 4 = s.core.seqIn x ∧ s.core.qTakes q x = true ∧ n ≤ s.core.qRoom q ∧ s.work.direct = [] ∧ s.alive = true) ∧
    (∃ (s s1 : State) (p x : Nat) (d : UpPkt), s.takeDg p 2 = some (d, s1) ∧ s1.dgContext d = some x ∧ s.ticking = true) ∧
    (∃ (s s1 : State) (p x : Nat) (d : UpPkt), s.takeDg p 3 = some (d, s1) ∧ s1.dgContext d = some x ∧ s.core.pcKind x = 4 ∧ d.bytes.length = 32 + 16 * leField d.bytes 18 2 ∧ (s.pcRun x).unacked = [] ∧ leField d.bytes 8 4 = s.core.seqIn x ∧ s.ticking = true) ∧
    (∃ (s s1 : State) (p k : Nat) (d : UpPkt) (c : Nat → Instr), (c, k) ∈ [(Instr.cmdAck, 2), (Instr.cmdMessages, 3)] ∧ p < 2 ∧ s.takeDg p k = some (d, s1) ∧ s1.dgContext d = none ∧ s.ticking = true) ∧
    (∃ (s : State) (x : Nat), s.core.pcLive x = true ∧ x < 4095 ∧ (s.pcRun x).unacked ≠ [] ∧ (s.pcRun x).progress + 1024 * s.core.fld (Reg.pcPort x) 63 48 ≤ s.core.now.toNat ∧ (s.pcRun x).timeouts < 7 ∧ s.ticking = true) ∧
    (∃ (s : State) (x : Nat), s.core.pcLive x = true ∧ x < 4095 ∧ (s.pcRun x).unacked ≠ [] ∧ (s.pcRun x).progress + 1024 * s.core.fld (Reg.pcPort x) 63 48 ≤ s.core.now.toNat ∧ 7 ≤ (s.pcRun x).timeouts ∧ s.ticking = true) :=
  ⟨⟨up false 1 (datagram 1 1 1 0 5 2 0 (ones ++ ones)) (mail), taken (up false 1 (datagram 1 1 1 0 5 2 0 (ones ++ ones)) (mail)), 0, 1, 5, 2, ⟨0, false, false, peer, datagram 1 1 1 0 5 2 0 (ones ++ ones)⟩, by decide +kernel⟩,
   ⟨up false 1 (datagram 2 1 1 0 0 0 0 []) ([]), taken (up false 1 (datagram 2 1 1 0 0 0 0 []) ([])), 0, 1, ⟨0, false, false, peer, datagram 2 1 1 0 0 0 0 []⟩, by decide +kernel⟩,
   ⟨up false 4 (datagram 3 1 1 0 0 1 0 (msgAck 0x13 0 9)) ([]), taken (up false 4 (datagram 3 1 1 0 0 1 0 (msgAck 0x13 0 9)) ([])), 0, 1, ⟨0, false, false, peer, datagram 3 1 1 0 0 1 0 (msgAck 0x13 0 9)⟩, by decide +kernel⟩,
   ⟨up false 1 (datagram 2 7 1 0 0 0 0 []) ([]), taken (up false 1 (datagram 2 7 1 0 0 0 0 []) ([])), 0, 2, ⟨0, false, false, peer, datagram 2 7 1 0 0 0 0 []⟩, Instr.cmdAck, by simp, by decide +kernel⟩,
   ⟨waiting 1 6, 1, by decide +kernel⟩,
   ⟨waiting 1 7, 1, by decide +kernel⟩⟩

theorem witness_PortsAndContextsAreConfigured :
    (∃ (s : State) (p : Nat) (v : Word), p < 2 ∧ s.core.fld (Reg.epCtrl p) 1 0 ≠ getF v 1 0 ∧ s.ticking = true) ∧
    (∃ (s : State) (p : Nat) (v : Word), p < 2 ∧ s.core.fld (Reg.epCtrl p) 1 0 = getF v 1 0 ∧ getF v 2 2 = 0 ∧ s.ticking = true) ∧
    (∃ (s : State) (p : Nat), p < 2 ∧ s.core.bit (Reg.epCtrl p) 0 = true ∧ s.core.bit (Reg.epStatus 0) 2 = false ∧ s.alive = true) ∧
    (∃ (s : State) (p : Nat) (up : Bool), p < 2 ∧ (up = false ∨ s.core.bit (Reg.epCtrl p) 0 = false ∨ (p = 1 ∧ s.core.bit (Reg.epStatus 0) 2 = true)) ∧ s.alive = true) ∧
    (∃ (s : State) (x : Nat) (v : Word), s.noneWaiting ∧ x < 4095 ∧ s.core.pcKind x = 0 ∧ 1 ≤ getF v 2 0 ∧ getF v 2 0 ≤ 4 ∧ s.ticking = true) ∧
    (∃ (s : State) (x : Nat) (v : Word), x < 4095 ∧ s.core.pcKind x ≠ 0 ∧ getF v 2 0 = 0 ∧ s.ticking = true) ∧
    (∃ (s : State) (x : Nat) (v : Word), s.tidy ∧ s.noneWaiting ∧ x < 4095 ∧ s.core.pcKind x ≠ 0 ∧ getF v 2 0 ≠ 0 ∧ s.ticking = true) :=
  ⟨⟨port [], 0, 3, by decide +kernel⟩,
   ⟨st [(Reg.epCtrl 1, 3)], 1, 3, by decide +kernel⟩,
   ⟨st [(Reg.epCtrl 1, 1)], 1, by decide +kernel⟩,
   ⟨port [(Reg.epCtrl 0, 1)], 0, false, by decide +kernel⟩,
   ⟨st [], 4094, 1, by unfold State.noneWaiting; decide +kernel⟩,
   ⟨waiting 1 0, 1, 0, by decide +kernel⟩,
   ⟨waiting 1 0, 1, 3, by unfold State.noneWaiting State.tidy; decide +kernel⟩⟩

theorem witness_QueuesTakeAndSendEntries :
    (∃ (s : State) (q : Nat) (v : Word), q < 16382 ∧ s.core.qEn q = false ∧ getF v 0 0 = 1 ∧ s.core.bindOk q (v &&& 0xF7FF_FF1F) = true ∧ s.ticking = true) ∧
    (∃ (s : State) (q : Nat) (v : Word), q < 16382 ∧ s.core.qEn q = true ∧ getF v 0 0 = 0 ∧ s.ticking = true) ∧
    (∃ (s : State) (q : Nat) (v : Word), s.core.qEn q = true ∧ getF v 0 0 = 1 ∧ s.ticking = true) ∧
    (∃ (s : State) (q slot : Nat) (data : List Byte), q < 16384 ∧ q ≠ 16382 ∧ s.core.qLive q = true ∧ 0 < s.core.qRoom q ∧ data.length = 64 ∧ s.work.direct = [] ∧ slot = s.core.qSlot q (s.core.fld (Reg.qTail q) 31 0) ∧ slot % 64 = 0 ∧ s.core.mustWait slot = false ∧ s.ticking = true) ∧
    (∃ (s : State) (q : Nat) (data : List Byte), q < 16384 ∧ q ≠ 16382 ∧ s.core.qEn q = true ∧ (s.core.qRoom q = 0 ∨ s.core.qLive q = false) ∧ data.length = 64 ∧ q ∉ s.core.engineQueues ∧ s.noneWaiting ∧ s.tidy ∧ s.ticking = true) ∧
    (∃ (s : State) (q : Nat) (v : Word), q < 16384 ∧ q ≠ 16382 ∧ s.core.qLive q = true ∧ s.work.direct = [] ∧ (v.toNat % 2 ^ 32 + 2 ^ 32 - s.core.fld (Reg.qTail q) 31 0) % 2 ^ 32 < 2 ^ 31 ∧ (v.toNat % 2 ^ 32 + 2 ^ 32 - s.core.fld (Reg.qHead q) 31 0) % 2 ^ 32 ≤ s.core.qSize q ∧ s.ticking = true) ∧
    (∃ (s : State) (q : Nat) (v : Word), s.core.qLive q = false ∧ s.tidy ∧ s.noneWaiting ∧ s.ticking = true) ∧
    (∃ (s : State) (q : Nat) (v : Word), q < 16384 ∧ q ≠ 16382 ∧ s.core.qLive q = true ∧ s.noneWaiting ∧ (2 ^ 31 ≤ (v.toNat % 2 ^ 32 + 2 ^ 32 - s.core.fld (Reg.qTail q) 31 0) % 2 ^ 32 ∨ s.core.qSize q < (v.toNat % 2 ^ 32 + 2 ^ 32 - s.core.fld (Reg.qHead q) 31 0) % 2 ^ 32) ∧ s.ticking = true) ∧
    (∃ (s : State) (q : Nat) (v : Word), q < 16384 ∧ q ≠ 16382 ∧ s.core.fld (Reg.qCfg q) 3 1 = 4 ∧ q ∉ s.core.engineQueues ∧ s.noneWaiting ∧ s.tidy ∧ s.ticking = true) ∧
    (∃ (s : State) (q x : Nat), q < 16384 ∧ s.core.qEn q = true ∧ s.core.fld (Reg.qCfg q) 3 1 = 5 ∧ s.core.bit (Reg.qCfg q) 4 = false ∧ x = s.core.fld (Reg.qCfg q) 19 8 ∧ s.core.pcLive x = true ∧ s.inFlight q x < s.core.qUsed q ∧ s.core.pcKind x = 3 ∧ s.core.pushesOut x < 16 ∧ s.core.reachable (s.core.fld (Reg.pcCtrl x) 19 8) = true ∧ (s.core.freeTag (s.core.fld (Reg.pcCtrl x) 19 8)).isSome = true ∧ s.ticking = true) ∧
    (∃ (s : State) (q x : Nat), q < 16384 ∧ s.core.qEn q = true ∧ s.core.fld (Reg.qCfg q) 3 1 = 5 ∧ s.core.bit (Reg.qCfg q) 4 = false ∧ x = s.core.fld (Reg.qCfg q) 19 8 ∧ s.core.pcLive x = true ∧ s.inFlight q x < s.core.qUsed q ∧ s.core.pcKind x = 1 ∧ (s.pcRun x).unacked.length < 32 ∧ s.ticking = true) :=
  ⟨⟨st [(Reg.pcStatus 1, 1), (Reg.pcCtrl 1, 1), (Reg.qRing 5, 0x8000), (Reg.qTail 5, 9)], 5, 0x109, by decide +kernel⟩,
   ⟨st mail, 5, 0x108, by decide +kernel⟩,
   ⟨st mail, 5, 0x209, by decide +kernel⟩,
   ⟨st ([(Reg.pcCtrl 1, 1), (Reg.pcStatus 1, 1)] ++ mail), 5, 0x8000, ones, by decide +kernel⟩,
   ⟨st ([(Reg.qTail 5, 64)] ++ ([(Reg.pcCtrl 1, 1), (Reg.pcStatus 1, 1)] ++ mail)), 5, ones, by unfold State.noneWaiting State.tidy; decide +kernel⟩,
   ⟨st ([(Reg.pcCtrl 1, 1), (Reg.pcStatus 1, 1)] ++ mail), 5, 64, by decide +kernel⟩,
   ⟨st mail, 5, 1, by unfold State.noneWaiting State.tidy; decide +kernel⟩,
   ⟨st ([(Reg.pcCtrl 1, 1), (Reg.pcStatus 1, 1)] ++ mail), 5, 65, by unfold State.noneWaiting; decide +kernel⟩,
   ⟨st ([(Reg.qTail 5, 7)] ++ ([(Reg.pcCtrl 1, 1), (Reg.pcStatus 1, 1)] ++ mail)), 5, 7, by unfold State.noneWaiting State.tidy; decide +kernel⟩,
   ⟨outS 0x503, 6, 1, by decide +kernel⟩,
   ⟨outS 1, 6, 1, by decide +kernel⟩⟩

theorem witness_PeerAccessesAreServed :
    (∃ (s : State) (m : Msg) (ms : List Msg) (ga n : Nat), s.net.rxMsgs = m :: ms ∧ leField m.bytes 0 1 = 0x10 ∧ ga = leField m.bytes 8 7 ∧ n = leField m.bytes 4 4 ∧ s.core.msgRange ga n = true ∧ 1 ≤ n ∧ n ≤ 4096 ∧ s.core.ueLines ga n = [] ∧ s.ticking = true) ∧
    (∃ (s : State) (m : Msg) (ms : List Msg) (ga n : Nat), s.net.rxMsgs = m :: ms ∧ leField m.bytes 0 1 = 0x12 ∧ ga = leField m.bytes 8 7 ∧ n = leField m.bytes 4 4 ∧ s.core.msgRange ga n = true ∧ s.core.ueLines ga n = [] ∧ s.core.copiesFit (n / 0x4000 + 2) ∧ s.core.nothingHeld (.peer m.src (leField m.bytes 2 2) 0x13) ∧ s.ticking = true) ∧
    (∃ (s : State) (m : Msg) (ms : List Msg) (l : Nat), s.net.rxMsgs = m :: ms ∧ leField m.bytes 0 1 = 0x14 ∧ leField m.bytes 1 1 = 0 ∧ s.core.awake = true ∧ s.core.isLocal (leField m.bytes 8 7) = true ∧ l = gaLocal (leField m.bytes 8 7) / 64 * 64 ∧ s.core.addRefused (gaLocal (leField m.bytes 8 7)) = false ∧ s.core.windowAt (gaLocal (leField m.bytes 8 7)) = none ∧ s.core.mustWait (gaLocal (leField m.bytes 8 7)) = false ∧ s.core.isUe (l / 64) = false ∧ s.core.nothingHeld (.peer m.src (leField m.bytes 2 2) 0x15) ∧ s.ticking = true) ∧
    (∃ (s : State) (m : Msg) (ms : List Msg) (n : Nat), s.net.rxMsgs = m :: ms ∧ leField m.bytes 0 1 = 0x10 ∧ n = leField m.bytes 4 4 ∧ (s.core.msgRange (leField m.bytes 8 7) n = false ∨ n = 0 ∨ 4096 < n) ∧ s.ticking = true) ∧
    (∃ (s : State) (m : Msg) (ms : List Msg) (n : Nat), s.net.rxMsgs = m :: ms ∧ leField m.bytes 0 1 = 0x10 ∧ n = leField m.bytes 4 4 ∧ (s.core.msgRange (leField m.bytes 8 7) n = false ∨ n = 0 ∨ 4096 < n) ∧ s.ticking = true) ∧
    (∃ (s : State) (m : Msg) (ms : List Msg) (n : Nat), s.net.rxMsgs = m :: ms ∧ leField m.bytes 0 1 = 0x10 ∧ n = leField m.bytes 4 4 ∧ (s.core.msgRange (leField m.bytes 8 7) n = false ∨ n = 0 ∨ 4096 < n) ∧ s.ticking = true) ∧
    (∃ (s : State) (m : Msg) (ms : List Msg), s.net.rxMsgs = m :: ms ∧ leField m.bytes 0 1 = 0x12 ∧ s.core.msgRange (leField m.bytes 8 7) (leField m.bytes 4 4) = false ∧ s.ticking = true) ∧
    (∃ (s : State) (m : Msg) (ms : List Msg), s.net.rxMsgs = m :: ms ∧ leField m.bytes 0 1 = 0x14 ∧ leField m.bytes 1 1 < 3 ∧ (s.core.awake = false ∨ s.core.isLocal (leField m.bytes 8 7) = false ∨ s.core.addRefused (gaLocal (leField m.bytes 8 7)) = true) ∧ s.core.nothingHeld (.peer m.src (leField m.bytes 2 2) 0x15) ∧ s.ticking = true) ∧
    (∃ (s : State) (m : Msg) (ms : List Msg), s.net.rxMsgs = m :: ms ∧ leField m.bytes 0 1 = 0x14 ∧ leField m.bytes 1 1 < 3 ∧ (s.core.awake = false ∨ s.core.isLocal (leField m.bytes 8 7) = false ∨ s.core.addRefused (gaLocal (leField m.bytes 8 7)) = true) ∧ s.core.nothingHeld (.peer m.src (leField m.bytes 2 2) 0x15) ∧ s.ticking = true) ∧
    (∃ (s : State) (m : Msg) (ms : List Msg), s.net.rxMsgs = m :: ms ∧ leField m.bytes 0 1 = 0x14 ∧ leField m.bytes 1 1 < 3 ∧ (s.core.awake = false ∨ s.core.isLocal (leField m.bytes 8 7) = false ∨ s.core.addRefused (gaLocal (leField m.bytes 8 7)) = true) ∧ s.core.nothingHeld (.peer m.src (leField m.bytes 2 2) 0x15) ∧ s.ticking = true) :=
  ⟨⟨rx [] (msg 0 (msgReadReq 0x3005 100 9)) id, msg 0 (msgReadReq 0x3005 100 9), [], 0x3005, 100, by decide +kernel⟩,
   ⟨rx [] (msg 1 (msgWriteBytes 0x3005 9 ones)) id, msg 1 (msgWriteBytes 0x3005 9 ones), [], 0x3005, 64, by unfold Core.copiesFit Core.nothingHeld; decide +kernel⟩,
   ⟨rx [] (msg 2 (msgAccum 0 9 3 0xF00F 0x4000 ones)) id, msg 2 (msgAccum 0 9 3 0xF00F 0x4000 ones), [], 0x4000, by unfold Core.nothingHeld; decide +kernel⟩,
   ⟨rx [] (msg 0 (msgReadReq 0x5000_0000_3000 8 9)) id, msg 0 (msgReadReq 0x5000_0000_3000 8 9), [], 8, by decide +kernel⟩,
   ⟨rx [] (msg 0 (msgReadReq 0x3000 0 9)) id, msg 0 (msgReadReq 0x3000 0 9), [], 0, by decide +kernel⟩,
   ⟨rx [] (msg 0 (msgReadReq 0x3000 4097 9)) id, msg 0 (msgReadReq 0x3000 4097 9), [], 4097, by decide +kernel⟩,
   ⟨rx [] (msg 1 (msgWriteBytes 0x5000_0000_3000 9 ones)) id, msg 1 (msgWriteBytes 0x5000_0000_3000 9 ones), [], by decide +kernel⟩,
   ⟨rx [] (msg 2 (msgAccum 0 9 3 0xF00F 0x5000_0000_4000 ones)) id, msg 2 (msgAccum 0 9 3 0xF00F 0x5000_0000_4000 ones), [], by unfold Core.nothingHeld; decide +kernel⟩,
   ⟨rx [(Reg.sleepStatus, 2)] (msg 2 (msgAccum 0 9 3 0xF00F 0x4000 ones)) id, msg 2 (msgAccum 0 9 3 0xF00F 0x4000 ones), [], by unfold Core.nothingHeld; decide +kernel⟩,
   ⟨rx [] (msg 2 (msgAccum 0 9 3 0xF00F 0x800_0000_0000 ones)) id, msg 2 (msgAccum 0 9 3 0xF00F 0x800_0000_0000 ones), [], by unfold Core.nothingHeld; decide +kernel⟩⟩

theorem witness_ResponsesEndTheirRequests :
    (∃ (s : State) (m : Msg) (ms : List Msg) (r : Req) (t n word : Nat) (x : Ctx), s.net.rxMsgs = m :: ms ∧ leField m.bytes 0 1 = 0x11 ∧ leField m.bytes 1 1 = 0 ∧ s.core.reqOf (leField m.bytes 2 2) m.src 0x10 = some r ∧ r.waiter = .load t n word ∧ word / 2 ^ 27 = 0x04 ∧ s.ctx? t n = some x ∧ x.blocked = true ∧ s.core.bit (Reg.ctxCtrl t n) 1 = false ∧ s.core.allTagged ∧ s.ticking = true) ∧
    (∃ (s : State) (m : Msg) (ms : List Msg) (r : Req) (id ga n : Nat) (o : Owner), o ∈ [.desc id, .fill id, .ahead id] ∧ s.net.rxMsgs = m :: ms ∧ leField m.bytes 0 1 = 0x11 ∧ leField m.bytes 1 1 = 0 ∧ s.core.reqOf (leField m.bytes 2 2) m.src 0x10 = some r ∧ r.waiter = .fetch o ga n ∧ (s.desc? id).isSome = true ∧ s.core.allTagged ∧ s.ticking = true) ∧
    (∃ (s : State) (m : Msg) (ms : List Msg) (c : Instr) (k q id rec_ : Nat) (r : Req) (d : Desc), (c, k, q) ∈ [(Instr.writeAck, 0x13, 0x12), (Instr.accumAck, 0x15, 0x14)] ∧ s.net.rxMsgs = m :: ms ∧ leField m.bytes 0 1 = k ∧ leField m.bytes 1 1 = 0 ∧ s.core.reqOf (leField m.bytes 2 2) m.src q = some r ∧ r.waiter = .desc id rec_ ∧ s.desc? id = some d ∧ s.core.allTagged ∧ s.ticking = true) ∧
    (∃ (s : State) (m : Msg) (ms : List Msg) (r : Req) (q n : Nat), s.net.rxMsgs = m :: ms ∧ leField m.bytes 0 1 = 0x17 ∧ q < 16382 ∧ s.core.reqOf (leField m.bytes 2 2) m.src 0x16 = some r ∧ r.waiter = .push q n ∧ q ∉ s.core.engineQueues ∧ s.noneWaiting ∧ s.core.allTagged ∧ s.tidy) ∧
    (∃ (s : State) (m : Msg) (ms : List Msg) (c : Instr) (k q : Nat) (key : Nat × Nat × Nat), (c, k, q) ∈ [(Instr.readResp, 0x11, 0x10), (Instr.writeAck, 0x13, 0x12), (Instr.accumAck, 0x15, 0x14), (Instr.queueAck, 0x17, 0x16)] ∧ s.net.rxMsgs = m :: ms ∧ leField m.bytes 0 1 = k ∧ key = (leField m.bytes 2 2, m.src, q) ∧ s.core.reqOf (leField m.bytes 2 2) m.src q = none ∧ s.noneWaiting ∧ s.core.allTagged ∧ s.tidy ∧ s.ticking = true) ∧
    (∃ (s : State) (r : Req) (tag : Nat), s.core.reqs.find? (fun r => r.tag == tag && r.full) = some r ∧ r.since + 1024 ≤ s.core.now.toNat ∧ s.ticking = true) ∧
    (∃ (s : State) (r : Req) (tag : Nat), tag < 0x10000 ∧ s.core.reqs.find? (fun r => r.tag == tag && !r.full) = some r ∧ r.since + r.limit ≤ s.core.now.toNat ∧ r.waiter = .nobody ∧ s.core.allTagged ∧ s.ticking = true) ∧
    (∃ (s : State) (r : Req) (tag id rec_ : Nat) (d : Desc), tag < 0x10000 ∧ s.core.reqs.find? (fun r => r.tag == tag && !r.full) = some r ∧ r.since + r.limit ≤ s.core.now.toNat ∧ r.waiter = .desc id rec_ ∧ rec_ < 0x100 ∧ s.desc? id = some d ∧ (∀ k ∈ d.conds, k.code ≠ 0x40) ∧ s.core.allTagged ∧ s.ticking = true) ∧
    (∃ (s : State) (m : Msg) (ms : List Msg) (q x n : Nat), s.net.rxMsgs = m :: ms ∧ leField m.bytes 0 1 = 0x16 ∧ q = leField m.bytes 4 2 ∧ n = leField m.bytes 1 1 ∧ x = s.core.fld (Reg.qCfg q) 19 8 ∧ s.core.qTakes q x = true ∧ s.core.pcLive x = true ∧ s.core.pcKind x = 3 ∧ s.core.fld (Reg.pcCtrl x) 19 8 = m.src ∧ n ≤ s.core.qRoom q ∧ s.work.direct = [] ∧ s.ticking = true) ∧
    (∃ (s : State) (m : Msg) (ms : List Msg), s.net.rxMsgs = m :: ms ∧ leField m.bytes 0 1 = 0x16 ∧ s.core.qEn (leField m.bytes 4 2) = false ∧ s.ticking = true) :=
  ⟨⟨asked (withCtx ({ cx [(1, 0x5000_0000_3000)] with blocked := true }) []) [req (.load 0 0 ldWord) false (msgReadReq 0x5000_0000_3000 8 9)] (msg 0 (msgReadResp 0 9 [1, 2, 3, 4, 5, 6, 7, 8])), msg 0 (msgReadResp 0 9 [1, 2, 3, 4, 5, 6, 7, 8]), [], req (.load 0 0 ldWord) false (msgReadReq 0x5000_0000_3000 8 9), 0, 0, ldWord, { cx [(1, 0x5000_0000_3000)] with blocked := true }, by unfold Core.allTagged; decide +kernel⟩,
   ⟨asked (wk [op 0x20 1 0 .running] id) [req (.fetch (.desc 0) 0x5000_0000_3000 8) false (msgReadReq 0x5000_0000_3000 8 9)] (msg 0 (msgReadResp 0 9 [1, 2, 3, 4, 5, 6, 7, 8])), msg 0 (msgReadResp 0 9 [1, 2, 3, 4, 5, 6, 7, 8]), [], req (.fetch (.desc 0) 0x5000_0000_3000 8) false (msgReadReq 0x5000_0000_3000 8 9), 0, 0x5000_0000_3000, 8, .desc 0, by unfold Core.allTagged; decide +kernel⟩,
   ⟨asked (wk [{ op 0x20 1 0 .finished with acks := 2 }] id) [req (.desc 0 1) false (msgWriteBytes 0x5000_0000_3000 9 [1])] (msg 1 (msgAck 0x13 0 9)), msg 1 (msgAck 0x13 0 9), [], .writeAck, 0x13, 0x12, 0, 1, req (.desc 0 1) false (msgWriteBytes 0x5000_0000_3000 9 [1]), { op 0x20 1 0 .finished with acks := 2 }, by simp, by unfold Core.allTagged; decide +kernel⟩,
   ⟨asked (outS 0x503) [req (.push 6 1) false (msgQueuePush 1 9 6 ones)] (msg 3 (msgAck 0x17 0 9)), msg 3 (msgAck 0x17 0 9), [], req (.push 6 1) false (msgQueuePush 1 9 6 ones), 6, 1, by unfold Core.allTagged State.noneWaiting State.tidy; decide +kernel⟩,
   ⟨rx [] (msg 0 (msgAck 0x11 0 9)) id, msg 0 (msgAck 0x11 0 9), [], .readResp, 0x11, 0x10, (9, 5, 0x10), by simp, by unfold Core.allTagged State.noneWaiting State.tidy; decide +kernel⟩,
   ⟨{ st [] with core := { (st []).core with reqs := [req (.push 6 1) true (msgQueuePush 1 9 6 ones)], now := 1024 } }, req (.push 6 1) true (msgQueuePush 1 9 6 ones), 9, by decide +kernel⟩,
   ⟨{ st [] with core := { (st []).core with reqs := [req .nobody false (msgReadReq 0x5000_0000_3000 8 9)] } }, req .nobody false (msgReadReq 0x5000_0000_3000 8 9), 9, by unfold Core.allTagged; decide +kernel⟩,
   ⟨{ wk [{ op 0x20 1 0 .running with acks := 2 }] id with core := { (st []).core with reqs := [req (.desc 0 1) false (msgReadReq 0x5000_0000_3000 8 9)] } }, req (.desc 0 1) false (msgReadReq 0x5000_0000_3000 8 9), 9, 0, 1, { op 0x20 1 0 .running with acks := 2 }, by unfold Core.allTagged; decide +kernel⟩,
   ⟨rx ([(Reg.pcCtrl 1, 0x503), (Reg.pcStatus 1, 1)] ++ mail) (msg 3 (msgQueuePush 2 9 5 (ones ++ ones))) id, msg 3 (msgQueuePush 2 9 5 (ones ++ ones)), [], 5, 1, 2, by decide +kernel⟩,
   ⟨rx [] (msg 3 (msgQueuePush 2 9 5 (ones ++ ones))) id, msg 3 (msgQueuePush 2 9 5 (ones ++ ones)), [], by decide +kernel⟩⟩

theorem witness_LinksSendAndTakeFrames :
    (∃ (s : State) (l : Nat) (f : TxFrame) (r : List TxFrame), s.links.length = 12 ∧ s.core.linkUp l = true ∧ (s.link l).controlDue = false ∧ (s.link l).replay = f :: r ∧ s.alive = true) ∧
    (∃ (s : State) (l i k : Nat) (sched : Word) (m : Msg), s.links.length = 12 ∧ s.core.linkUp l = true ∧ (s.link l).controlDue = false ∧ (s.link l).replay = [] ∧ (s.link l).retry.length < 2048 ∧ sched = (if (s.link l).slot = 0 then s.core.rd (Reg.qlSched l) else (s.link l).sched) ∧ k = slotClass sched ((s.link l).slot + i) ∧ i < 16 ∧ s.classReady l k = true ∧ (s.link l).hasCredit k = true ∧ (∀ j, j < i → s.classReady l (slotClass sched ((s.link l).slot + j)) = true → (s.link l).hasCredit (slotClass sched ((s.link l).slot + j)) = false) ∧ (s.link l).forward = [] ∧ s.nextMsg l k = some m ∧ m.bytes.length ≤ 256 ∧ s.alive = true) ∧
    (∃ (s : State) (l : Nat), s.links.length = 12 ∧ s.core.linkUp l = true ∧ (s.link l).controlDue = false ∧ (s.link l).replay = [] ∧ 2048 ≤ (s.link l).retry.length ∧ s.alive = true) ∧
    (∃ (s : State) (l : Nat) (f : QFrame), s.links.length = 12 ∧ s.core.linkUp l = true ∧ (s.link l).rxSwitch = none ∧ frameBad f = false ∧ frameKind f = 0 ∧ bitsOf f.hdr 11 0 = (s.link l).rxSeq ∧ (s.link l).streams = [] ∧ s.core.isSet = true ∧ bitsOf f.hdr 40 29 = s.core.moduleNo ∧ s.alive = true) ∧
    (∃ (s : State) (l h : Nat) (f : QFrame), s.links.length = 12 ∧ s.core.linkUp l = true ∧ (s.link l).rxSwitch = none ∧ frameBad f = false ∧ frameKind f = 0 ∧ bitsOf f.hdr 11 0 = (s.link l).rxSeq ∧ (s.core.isSet = false ∨ bitsOf f.hdr 40 29 ≠ s.core.moduleNo) ∧ h = s.core.hop (bitsOf f.hdr 40 29) ∧ s.alive = true) ∧
    (∃ (s : State) (l : Nat) (f : QFrame) (c : Instr), c ∈ [.quirasDataFrame l f, .controlFrame l f, .handoverMarker l f, .echoFrame l f] ∧ s.links.length = 12 ∧ s.core.linkUp l = true ∧ (s.link l).rxSwitch = none ∧ frameBad f = true ∧ s.alive = true) ∧
    (∃ (s : State) (l : Nat) (f : QFrame), s.links.length = 12 ∧ s.core.linkUp l = true ∧ (s.link l).rxSwitch = none ∧ frameBad f = false ∧ frameKind f = 0 ∧ bitsOf f.hdr 11 0 ≠ (s.link l).rxSeq ∧ s.alive = true) ∧
    (∃ (s : State) (l i : Nat) (f : QFrame), s.links.length = 12 ∧ s.core.linkUp l = true ∧ frameBad f = false ∧ frameKind f = 1 ∧ (s.link l).retry.findIdx? (fun g => g.seq == leField f.payload 0 2 % 4096) = some i ∧ s.alive = true) ∧
    (∃ (s : State) (l : Nat) (c : Instr), s.links.length = 12 ∧ s.core.linkUp l = true ∧ (c = .controlFrameTimer l ∨ (c = .frameSlot l ∧ (s.link l).controlDue = true)) ∧ s.alive = true) ∧
    (∃ (s : State) (l : Nat), s.links.length = 12 ∧ s.core.linkUp l = true ∧ (s.link l).retry ≠ [] ∧ s.alive = true) ∧
    (∃ (s : State) (l : Nat), s.core.linkUp l = true ∧ s.alive = true) ∧
    (∃ (s : State) (l : Nat) (f : QFrame) (c : Instr), c ∈ [.frameSlot l, .quirasDataFrame l f, .controlFrame l f, .controlFrameTimer l, .handoverMarker l f, .echoFrame l f, .qlReplayTimeout l, .alignmentMarker l] ∧ s.core.linkUp l = false ∧ s.alive = true) :=
  ⟨⟨lk 2 (fun x => { x with replay := [tx 0, tx 1] }) [], 2, tx 0, [tx 1], by decide +kernel⟩,
   ⟨{ lk 2 (fun x => { x with peerCredit := 0x01_0101_0101 }) [(Reg.modRoute 5, 3)] with core := { (lk 2 (fun x => { x with peerCredit := 0x01_0101_0101 }) [(Reg.modRoute 5, 3)]).core with msgOut := [out1] } }, 2, 1, 1, 0x4210321042103210, out1, by decide +kernel⟩,
   ⟨lk 2 (fun x => { x with retry := List.replicate 2048 (tx 0) }) [], 2, by decide +kernel⟩,
   ⟨lk 2 id [], 2, qf (frameHdr 0 1 0 5 0) (msgAck 0x13 0 9), by decide +kernel⟩,
   ⟨lk 2 id [(Reg.modRoute 5, 1)], 2, 1, qf (frameHdr 0 1 0 0 5) (msgAck 0x13 0 9), by decide +kernel⟩,
   ⟨lk 2 id [], 2, { qf (frameHdr 0 1 0 5 0) [] with crc := 0xABCD }, .quirasDataFrame 2 ({ qf (frameHdr 0 1 0 5 0) [] with crc := 0xABCD }), by decide +kernel⟩,
   ⟨lk 2 id [], 2, qf (frameHdr 4095 1 0 5 0) [], by decide +kernel⟩,
   ⟨lk 2 (fun x => { x with retry := [tx 0, tx 1, tx 2], txSeq := 3 }) [], 2, 1, qf (frameHdr 0 0 1 5 0) (leBytes 2 0x8001 ++ leBytes 2 3 ++ leBytes 2 4 ++ leBytes 2 5 ++ leBytes 2 6 ++ leBytes 2 7 ++ leBytes 2 0x8005 ++ [0]), by decide +kernel⟩,
   ⟨lk 2 (fun x => { x with nakOwed := true, freed := [1, 2, 3, 4, 5] }) [], 2, .controlFrameTimer 2, by decide +kernel⟩,
   ⟨lk 2 (fun x => { x with retry := [tx 0] }) [], 2, by decide +kernel⟩,
   ⟨lk 2 id [], 2, by decide +kernel⟩,
   ⟨lk 1 id [], 2, qf (frameHdr 0 1 0 5 0) (msgAck 0x13 0 9), .quirasDataFrame 2 (qf (frameHdr 0 1 0 5 0) (msgAck 0x13 0 9)), by decide +kernel⟩⟩

theorem witness_LinksTrainHandOverAndEcho :
    (∃ (s : State) (l : Nat), l < 12 ∧ s.core.linkState l = 0 ∧ s.core.bit (Reg.qlCtrl l) 0 = true ∧ s.alive = true) ∧
    (∃ (s : State) (l : Nat) (credit : Word), s.links.length = 12 ∧ l < 12 ∧ s.core.linkState l = 1 ∧ (s.link l).rxSwitch = none ∧ (s.link l).rxReady = none ∧ s.alive = true) ∧
    (∃ (s : State) (l : Nat) (credit : Word), s.links.length = 12 ∧ l < 12 ∧ s.core.linkState l = 3 ∧ (s.link l).rxSwitch = none ∧ (s.link l).rxReady = none ∧ s.alive = true) ∧
    (∃ (s : State) (l p new old : Nat) (credit : Word), s.links.length = 12 ∧ l < 12 ∧ (s.core.linkState l = 1 ∨ s.core.linkState l = 3) ∧ (s.link l).rxSwitch = some (p, new, old) ∧ new < 8 ∧ old < 8 ∧ s.alive = true) ∧
    (∃ (s : State) (l : Nat), s.links.length = 12 ∧ s.core.linkUp l = true ∧ 8 ≤ (s.link l).stalls ∧ s.alive = true) ∧
    (∃ (s : State) (l : Nat), (s.core.linkUp l = false ∨ (s.link l).stalls < 8) ∧ s.alive = true) ∧
    (∃ (s : State) (l : Nat), s.links.length = 12 ∧ s.core.linkUp l = true ∧ s.ticking = true) ∧
    (∃ (s : State) (l : Nat), s.links.length = 12 ∧ l < 12 ∧ s.core.linkState l = 3 ∧ s.core.reqs = [] ∧ s.red.sends = [] ∧ s.noneWaiting ∧ (s.hatboxLink l = false ∨ s.core.fld Reg.hbStatus 2 0 < 2) ∧ s.alive = true) ∧
    (∃ (s : State) (l pos : Nat), s.links.length = 12 ∧ s.core.linkUp l = true ∧ (s.link l).tx = none ∧ pos < 4 ∧ s.ticking = true) ∧
    (∃ (s : State) (l pos : Nat), l < 12 ∧ (s.core.linkUp l = false ∨ (s.link l).tx ≠ none) ∧ s.ticking = true) ∧
    (∃ (s : State) (l b : Nat) (f : QFrame) (h : Handover), s.links.length = 12 ∧ s.core.linkUp l = true ∧ frameBad f = false ∧ frameKind f = 1 ∧ b = leField f.payload 14 1 ∧ bitOf b 3 = true ∧ (s.link l).tx = some h ∧ h.switched = false ∧ h.pos = bitsOf b 5 4 ∧ s.alive = true) ∧
    (∃ (s : State) (l : Nat) (h : Handover), s.links.length = 12 ∧ l < 12 ∧ (s.link l).tx = some h ∧ h.switched = true ∧ h.old < 8 ∧ h.new < 8 ∧ s.alive = true) ∧
    (∃ (s : State) (l : Nat) (h : Handover), s.links.length = 12 ∧ l < 12 ∧ (s.link l).tx = some h ∧ h.switched = false ∧ s.alive = true) ∧
    (∃ (s : State) (l : Nat) (f : QFrame), s.links.length = 12 ∧ s.core.linkUp l = true ∧ frameBad f = false ∧ frameKind f = 2 ∧ leField f.payload 3 1 ≠ 0 ∧ s.alive = true) ∧
    (∃ (s : State) (l : Nat) (f : QFrame), s.links.length = 12 ∧ s.core.linkUp l = true ∧ frameBad f = false ∧ frameKind f = 2 ∧ leField f.payload 3 1 = 0 ∧ leField f.payload 1 1 < 8 ∧ leField f.payload 2 1 < 8 ∧ s.alive = true) ∧
    (∃ (s : State) (l : Nat), s.links.length = 12 ∧ s.core.linkUp l = true ∧ s.core.bit (Reg.qlCtrl l) 2 = false ∧ s.ticking = true) ∧
    (∃ (s : State) (l : Nat), s.links.length = 12 ∧ s.core.linkUp l = true ∧ s.core.bit (Reg.qlCtrl l) 2 = true ∧ 0 < (s.link l).echoLeft ∧ s.alive = true) ∧
    (∃ (s : State) (l : Nat), s.core.linkUp l = true ∧ s.core.bit (Reg.qlCtrl l) 2 = true ∧ (s.link l).echoLeft = 0 ∧ (s.link l).echoes.length = 8 ∧ s.alive = true) ∧
    (∃ (s : State) (l : Nat) (f : QFrame), s.core.linkUp l = true ∧ frameBad f = false ∧ frameKind f = 3 ∧ bitOf (leField f.payload 24 1) 0 = false ∧ s.alive = true) ∧
    (∃ (s : State) (l : Nat) (f : QFrame), s.links.length = 12 ∧ s.core.linkUp l = true ∧ frameBad f = false ∧ frameKind f = 3 ∧ bitOf (leField f.payload 24 1) 0 = true ∧ s.core.bit (Reg.qlCtrl l) 2 = true ∧ s.alive = true) :=
  ⟨⟨lk 0 id [(Reg.qlCtrl 2, 1)], 2, by decide +kernel⟩,
   ⟨lk 1 (fun x => { x with retry := [tx 0] }) [], 2, 0x01_0101_0101, by decide +kernel⟩,
   ⟨lk 3 (fun x => { x with retry := [tx 0, tx 1, tx 2], txSeq := 3 }) [(Reg.qlCtrl 2, 3)], 2, 0x01_0101_0101, by decide +kernel⟩,
   ⟨lk 1 (fun x => { x with rxSwitch := some (1, 4, 1) }) [(Reg.qlRxmap 2, 0x4688)], 2, 1, 4, 1, 0, by decide +kernel⟩,
   ⟨lk 2 (fun x => { x with stalls := 8, retry := [tx 0] }) [], 2, by decide +kernel⟩,
   ⟨lk 2 id [], 2, by decide +kernel⟩,
   ⟨lk 2 (fun x => { x with retry := [tx 0, tx 1, tx 2], txSeq := 3 }) [], 2, by decide +kernel⟩,
   ⟨lk 3 (fun x => { x with retry := [tx 0] }) [(Reg.qlCtrl 2, 7)], 2, by unfold State.noneWaiting; decide +kernel⟩,
   ⟨lk 2 id [], 2, 1, by decide +kernel⟩,
   ⟨lk 1 id [], 2, 1, by decide +kernel⟩,
   ⟨lk 2 (fun x => { x with tx := some ⟨1, 1, 4, false⟩ }) [], 2, 0x18, qf (frameHdr 0 0 1 5 0) (leBytes 2 0 ++ leBytes 2 3 ++ leBytes 2 4 ++ leBytes 2 5 ++ leBytes 2 6 ++ leBytes 2 7 ++ leBytes 2 0x8005 ++ [0x18]), ⟨1, 1, 4, false⟩, by decide +kernel⟩,
   ⟨lk 2 (fun x => { x with tx := some ⟨1, 1, 4, true⟩ }) [], 2, ⟨1, 1, 4, true⟩, by decide +kernel⟩,
   ⟨lk 2 (fun x => { x with tx := some ⟨1, 1, 4, false⟩ }) [], 2, ⟨1, 1, 4, false⟩, by decide +kernel⟩,
   ⟨lk 2 id [], 2, qf (frameHdr 0 0 2 5 0) [1, 1, 4, 3], by decide +kernel⟩,
   ⟨lk 2 id [], 2, qf (frameHdr 0 0 2 5 0) [1, 1, 4, 0], by decide +kernel⟩,
   ⟨lk 2 id [], 2, by decide +kernel⟩,
   ⟨lk 2 (fun x => { x with echoLeft := 64 }) [(Reg.qlCtrl 2, 5)], 2, by decide +kernel⟩,
   ⟨lk 2 (fun x => { x with echoes := [(100, 3), (100, -5), (101, 0), (0, 0), (0, 0), (0, 0), (0, 0), (0, -9)] }) [(Reg.qlCtrl 2, 5)], 2, by decide +kernel⟩,
   ⟨{ lk 2 id [] with core := { (lk 2 id []).core with now := 20 } }, 2, qf (frameHdr 0 0 3 5 0) (leBytes 8 5 ++ leBytes 8 7 ++ leBytes 8 8 ++ [0]), by decide +kernel⟩,
   ⟨{ lk 2 id [(Reg.qlCtrl 2, 5)] with core := { (lk 2 id [(Reg.qlCtrl 2, 5)]).core with now := 20 } }, 2, qf (frameHdr 0 0 3 5 0) (leBytes 8 5 ++ leBytes 8 7 ++ leBytes 8 8 ++ [1]), by decide +kernel⟩⟩

theorem witness_ManagementReadsAndWrites :
    (∃ (s : State) (e : MgmtEntry) (r : List MgmtEntry), s.mgmtTurn 1 e r ∧ 1 ≤ e.arg1 ∧ e.arg1 ≤ 6 ∧ s.regRefusal e.arg0 (8 * e.arg1) = 0 ∧ s.alive = true) ∧
    (∃ (s : State) (e : MgmtEntry) (r : List MgmtEntry), s.mgmtTurn 2 e r ∧ e.arg0 = Reg.numSrJobSeed ∧ s.core.bare = false ∧ s.noneWaiting ∧ s.tidy ∧ s.alive = true) ∧
    (∃ (s : State) (e : MgmtEntry) (r : List MgmtEntry), s.mgmtTurn 3 e r ∧ 1 ≤ e.arg1 ∧ e.arg1 ≤ 48 ∧ e.arg0 + e.arg1 ≤ 0x210_0000 ∧ s.alive = true) ∧
    (∃ (s : State) (e : MgmtEntry) (r : List MgmtEntry) (lo n : Nat), s.mgmtTurn 4 e r ∧ e.arg0 % 0x1_0000 = 0 ∧ e.arg0 < 0x110_0000 ∧ s.slotBusy e.arg0 = false ∧ (lo, n) = (if e.arg0 < 0x100_0000 then (e.arg0, 0x1_0000) else (0x100_0000, 0x10_0000)) ∧ s.flashFails lo n = false ∧ s.alive = true) ∧
    (∃ (s : State) (e : MgmtEntry) (r : List MgmtEntry), s.mgmtTurn 5 e r ∧ 1 ≤ e.arg1 ∧ e.arg1 ≤ 48 ∧ e.arg0 + e.arg1 ≤ 0x110_0000 ∧ e.arg0 / 256 = (e.arg0 + e.arg1 - 1) / 256 ∧ s.slotBusy e.arg0 = false ∧ (∀ i, i < e.arg1 → sGet s.part.flash (e.arg0 + i) 0xFF = 0xFF) ∧ s.flashFails e.arg0 e.arg1 = false ∧ s.alive = true) ∧
    (∃ (s : State) (e : MgmtEntry) (r : List MgmtEntry) (ok : Bool), s.mgmtTurn 5 e r ∧ 1 ≤ e.arg1 ∧ e.arg1 ≤ 48 ∧ e.arg0 + e.arg1 ≤ 0x110_0000 ∧ e.arg0 / 256 = (e.arg0 + e.arg1 - 1) / 256 ∧ (s.slotBusy e.arg0 = true ∨ ∃ i, i < e.arg1 ∧ sGet s.part.flash (e.arg0 + i) 0xFF ≠ 0xFF) ∧ s.alive = true) ∧
    (∃ (s : State) (e : MgmtEntry) (r : List MgmtEntry), s.mgmtTurn 6 e r ∧ s.alive = true) ∧
    (∃ (s : State) (e : MgmtEntry) (r : List MgmtEntry), s.mgmtTurn 7 e r ∧ s.flashFails 0x100_0000 0xF_0000 = false ∧ s.alive = true) :=
  ⟨⟨mg (entry 1 0x8 (1) ([])) [], entry 1 0x8 (1) ([]), [], ⟨rfl, rfl, rfl, fun c h => by cases h; rfl, by decide +kernel⟩, by decide +kernel⟩,
   ⟨mg (entry 2 Reg.numSrJobSeed (0x1234_5678_9ABC_DEF0) ([])) [], entry 2 Reg.numSrJobSeed (0x1234_5678_9ABC_DEF0) ([]), [], ⟨rfl, rfl, rfl, fun c h => by cases h; rfl, by decide +kernel⟩, by unfold State.noneWaiting State.tidy; decide +kernel⟩,
   ⟨mg (entry 3 0x20F_FFD0 (48) ([])) [], entry 3 0x20F_FFD0 (48) ([]), [], ⟨rfl, rfl, rfl, fun c h => by cases h; rfl, by decide +kernel⟩, by decide +kernel⟩,
   ⟨{ mg (entry 4 0x100_0000 (0) ([])) [] with part := { State.reset.part with flash := [(0x100_0000 + 5, 7)] } }, entry 4 0x100_0000 (0) ([]), [], 0x100_0000, 0x10_0000, ⟨rfl, rfl, rfl, fun c h => by cases h; rfl, by decide +kernel⟩, by decide +kernel⟩,
   ⟨mg (entry 5 0xD0 (48) (List.replicate 48 3)) [], entry 5 0xD0 (48) (List.replicate 48 3), [], ⟨rfl, rfl, rfl, fun c h => by cases h; rfl, by decide +kernel⟩, by decide +kernel⟩,
   ⟨{ mg (entry 5 0xD0 (48) ([])) [] with pat := (run0 [] id).pat }, entry 5 0xD0 (48) ([]), [], true, ⟨rfl, rfl, rfl, fun c h => by cases h; rfl, by decide +kernel⟩, by decide +kernel⟩,
   ⟨mg (entry 6 0 (0) ([])) [], entry 6 0 (0) ([]), [], ⟨rfl, rfl, rfl, fun c h => by cases h; rfl, by decide +kernel⟩, by decide +kernel⟩,
   ⟨mg (entry 7 0 (0) ([])) [], entry 7 0 (0) ([]), [], ⟨rfl, rfl, rfl, fun c h => by cases h; rfl, by decide +kernel⟩, by decide +kernel⟩⟩

theorem witness_ManagementClaimAttestAndReset :
    (∃ (s : State) (e : MgmtEntry) (r : List MgmtEntry), s.mgmtTurn 8 e r ∧ s.integ.boundaryWait = false ∧ s.alive = true) ∧
    (∃ (s : State) (a : Attest), s.net.attest = some a ∧ (∀ e, s.net.mgmtIn.head? = some e → e.listed = true) ∧ s.alive = true) ∧
    (∃ (s : State) (e : MgmtEntry) (r : List MgmtEntry), s.mgmtTurn 9 e r ∧ s.alive = true) ∧
    (∃ (s : State) (t : Nat), s.net.resetAt = some t ∧ t ≤ s.core.now.toNat ∧ s.pwr.powered = true ∧ s.pwr.tripped = false ∧ s.pwr.starting = false ∧ s.alive = true) ∧
    (∃ (s : State) (t : Nat), s.net.resetAt = some t ∧ s.core.now.toNat < t ∧ s.alive = true) ∧
    (∃ (s : State) (e : MgmtEntry) (r : List MgmtEntry), s.mgmtTurn 0xA e r ∧ s.net.claim = none ∧ s.alive = true) ∧
    (∃ (s : State) (e : MgmtEntry) (r : List MgmtEntry) (c : Claim), s.mgmtTurn 0xB e r ∧ s.net.claim = some c ∧ s.alive = true) ∧
    (∃ (s : State) (c : Claim), s.net.claim = some c ∧ s.alive = true) ∧
    (∃ (s : State) (e : MgmtEntry) (r : List MgmtEntry) (c : Claim) (i : Instr) (op : Nat), (i, op) ∈ mgmtOps ∧ s.net.mgmtIn = e :: r ∧ s.net.attest = none ∧ s.integ.boundaryWait = false ∧ s.noneWaiting ∧ e.op = op ∧ s.net.claim = some c ∧ c.who.same e.from_ = false ∧ (∀ e2, r.head? = some e2 → e2.listed = true) ∧ s.alive = true) ∧
    (∃ (s : State) (e : MgmtEntry) (r : List MgmtEntry) (i : Instr) (op : Nat), (i, op) ∈ mgmtOps ∧ op ∉ [1, 3, 8, 0xA] ∧ s.net.mgmtIn = e :: r ∧ s.net.attest = none ∧ s.noneWaiting ∧ e.op = op ∧ s.net.claim = none ∧ (∀ e2, r.head? = some e2 → e2.listed = true) ∧ s.alive = true) :=
  ⟨⟨mg (entry 8 0 (0) (List.replicate 32 9)) [], entry 8 0 (0) (List.replicate 32 9), [], ⟨rfl, rfl, rfl, fun c h => by cases h; rfl, by decide +kernel⟩, by decide +kernel⟩,
   ⟨{ mg (entry 1 0 (0) ([])) [] with net := { Net.initial with attest := some ⟨entry 8 0 (0) ([]), List.replicate 448 1⟩ } }, ⟨entry 8 0 (0) ([]), List.replicate 448 1⟩, by decide +kernel⟩,
   ⟨mg (entry 9 0 (0) ([])) [], entry 9 0 (0) ([]), [], ⟨rfl, rfl, rfl, fun c h => by cases h; rfl, by decide +kernel⟩, by decide +kernel⟩,
   ⟨{ stP id with net := { Net.initial with resetAt := some 0 } }, 0, by decide +kernel⟩,
   ⟨{ stP id with net := { Net.initial with resetAt := some 1 } }, 1, by decide +kernel⟩,
   ⟨mgFree (entry 0xA 0 (0) ([])), entry 0xA 0 (0) ([]), [], ⟨rfl, rfl, rfl, nofun, by decide +kernel⟩, by decide +kernel⟩,
   ⟨mg (entry 0xB 0 (0) ([])) [], entry 0xB 0 (0) ([]), [], ⟨peer, 2, 0, []⟩, ⟨rfl, rfl, rfl, fun c h => by cases h; rfl, by decide +kernel⟩, by decide +kernel⟩,
   ⟨mg (entry 1 0 (0) ([])) [], ⟨peer, 2, 0, []⟩, by decide +kernel⟩,
   ⟨{ mg (entry 2 0 (0) ([])) [] with net := { Net.initial with mgmtIn := [entry 2 0 (0) ([])], claim := some ⟨{ peer with udp := 10 }, 2, 0, []⟩ } }, entry 2 0 (0) ([]), [], ⟨{ peer with udp := 10 }, 2, 0, []⟩, .regWrite, 2, by unfold State.noneWaiting; decide +kernel⟩,
   ⟨mgFree (entry 2 0 (0) ([])), entry 2 0 (0) ([]), [], .regWrite, 2, by unfold State.noneWaiting; decide +kernel⟩⟩

theorem witness_CheckpointsAndRestoresOfTheModule :
    (∃ (s : State) (m : Nat), s.core.fld Reg.hbStatus 2 0 = 0 ∧ s.hbPartner = some m ∧ s.ticking = true) ∧
    (∃ (s : State) (m : Nat), s.core.fld Reg.hbStatus 2 0 = 0 ∧ s.hbPartner = some m ∧ s.ticking = true) ∧
    (∃ (s : State) (c : Instr), c ∈ [.hbTake, .hbRestore] ∧ s.core.fld Reg.hbStatus 2 0 = 0 ∧ s.hbPartner = none ∧ s.ticking = true) ∧
    (∃ (s : State) (c : Instr), c ∈ [.hbTake, .hbRestore] ∧ s.core.fld Reg.hbStatus 2 0 ≠ 0 ∧ s.ticking = true) ∧
    (∃ (s : State), s.core.fld Reg.hbStatus 2 0 ≠ 0 ∧ s.ticking = true) ∧
    (∃ (s : State) (p : Nat), s.core.fld Reg.hbStatus 2 0 = 2 ∧ p ∈ s.core.pend ∧ (∀ q ∈ s.core.pend, p ≤ q) ∧ s.core.pageOut.length < stagingPages ∧ s.ticking = true) ∧
    (∃ (s : State) (p : Nat), s.core.fld Reg.hbStatus 2 0 = 2 ∧ p ∈ s.core.pend ∧ (∀ q ∈ s.core.pend, p ≤ q) ∧ s.core.pageOut.length < stagingPages ∧ s.ticking = true) ∧
    (∃ (s : State) (m : Msg) (ms : List Msg), s.msgTurn 0x21 m ms ∧ s.core.fld Reg.hbStatus 2 0 = 2 ∧ s.hbPartner = some m.src ∧ leField m.bytes 1 1 = 1 ∧ leField m.bytes 2 6 = s.integ.hbSeq % 2 ^ 48 ∧ s.integ.hbFits = false ∧ s.ticking = true) ∧
    (∃ (s : State) (m : Msg) (ms : List Msg), s.msgTurn 0x21 m ms ∧ s.core.fld Reg.hbStatus 2 0 = 2 ∧ s.hbPartner = some m.src ∧ leField m.bytes 1 1 = 1 ∧ leField m.bytes 2 6 = s.integ.hbSeq % 2 ^ 48 ∧ s.integ.hbFits = false ∧ s.ticking = true) ∧
    (∃ (s : State) (m : Msg) (ms : List Msg), s.msgTurn 0x21 m ms ∧ s.core.fld Reg.hbStatus 2 0 = 2 ∧ s.hbPartner = some m.src ∧ leField m.bytes 1 1 = 0 ∧ leField m.bytes 8 8 = s.integ.hbSeq ∧ s.ticking = true) ∧
    (∃ (s : State) (m : Msg) (ms : List Msg), s.msgTurn 0x21 m ms ∧ s.core.fld Reg.hbStatus 2 0 = 2 ∧ s.hbPartner = some m.src ∧ leField m.bytes 1 1 = 0 ∧ leField m.bytes 8 8 = s.integ.hbSeq ∧ s.ticking = true) ∧
    (∃ (s : State) (m : Msg) (ms : List Msg), s.msgTurn 0x23 m ms ∧ s.core.fld Reg.hbStatus 2 0 = 3 ∧ s.hbPartner = some m.src ∧ leField m.bytes 1 1 = 0 ∧ s.tidy ∧ s.ticking = true) ∧
    (∃ (s : State) (m : Msg) (ms : List Msg), s.msgTurn 0x23 m ms ∧ s.core.fld Reg.hbStatus 2 0 = 3 ∧ s.hbPartner = some m.src ∧ leField m.bytes 1 1 ≠ 0 ∧ s.ticking = true) ∧
    (∃ (s : State) (m : Msg) (ms : List Msg) (r : Nat × Nat) (a : Nat), s.msgTurn 0x26 m ms ∧ s.core.fld Reg.hbStatus 2 0 = 4 ∧ s.hbPartner = some m.src ∧ r = s.core.hbTable.getD (leField m.bytes 2 2) (0, 0) ∧ 0x4000 * (leField m.bytes 4 4 + 1) ≤ r.2 ∧ s.core.memRange r.1 r.2 = true ∧ a = r.1 + 0x4000 * leField m.bytes 4 4 ∧ (∀ l ∈ linesOf a 0x4000, s.core.isUe l = false) ∧ s.core.copiesFit 2 ∧ s.ticking = true) ∧
    (∃ (s : State) (m : Msg) (ms : List Msg), s.msgTurn 0x27 m ms ∧ s.core.fld Reg.hbStatus 2 0 = 4 ∧ s.hbPartner = some m.src ∧ leField m.bytes 1 1 = 0 ∧ s.ticking = true) ∧
    (∃ (s : State) (m : Msg) (ms : List Msg), s.msgTurn 0x27 m ms ∧ s.core.fld Reg.hbStatus 2 0 = 4 ∧ s.hbPartner = some m.src ∧ leField m.bytes 1 1 ≠ 0 ∧ s.ticking = true) ∧
    (∃ (s : State) (l : Nat), s.links.length = 12 ∧ l < 12 ∧ s.core.linkState l = 3 ∧ s.core.reqs = [] ∧ s.red.sends = [] ∧ s.noneWaiting ∧ s.hatboxLink l = true ∧ 2 ≤ s.core.fld Reg.hbStatus 2 0 ∧ s.alive = true) :=
  ⟨⟨hb 0 [], 5, by decide +kernel⟩,
   ⟨hb 0 [], 5, by decide +kernel⟩,
   ⟨st [], .hbTake, by decide +kernel⟩,
   ⟨hb 2 [], .hbTake, by decide +kernel⟩,
   ⟨{ hb 2 [(Reg.hbCtrl, 1)] with integ := { Integ.initial with hbPages := [0, 1] }, core := { (hb 2 [(Reg.hbCtrl, 1)]).core with clean := [0, 1, 2], pend := [1] } }, by decide +kernel⟩,
   ⟨{ hb 2 [] with core := { (hb 2 []).core with pend := [1], pageOut := [], clean := [] }, integ := { Integ.initial with hbFits := true } }, 1, by decide +kernel⟩,
   ⟨{ hb 2 [] with core := { (hb 2 []).core with pend := [1], pageOut := [], clean := [] }, integ := { Integ.initial with hbFits := false } }, 1, by decide +kernel⟩,
   ⟨{ hbRx 2 (hbMsg 0x21 1 9 32895 []) (fun i => { i with hbSeq := 9, hbPages := [0, 1] }) with core := { (hb 2 []).core with pend := [0, 1] } }, msg 4 (hbMsg 0x21 1 9 32895 []), [], by unfold State.msgTurn; decide +kernel⟩,
   ⟨{ hbRx 2 (hbMsg 0x21 1 9 32896 []) (fun i => { i with hbSeq := 9, hbPages := [0, 1] }) with core := { (hb 2 []).core with pend := [0, 1] } }, msg 4 (hbMsg 0x21 1 9 32896 []), [], by unfold State.msgTurn; decide +kernel⟩,
   ⟨hbRx 2 (hbMsg 0x21 0 1 9 []) (fun i => { i with hbSeq := 9, hbFits := true }), msg 4 (hbMsg 0x21 0 1 9 []), [], by unfold State.msgTurn; decide +kernel⟩,
   ⟨{ hbRx 2 (hbMsg 0x21 0 0x1_0000 9 []) (fun i => { i with hbSeq := 9 }) with core := { (hbRx 2 (hbMsg 0x21 0 0x1_0000 9 []) (fun i => { i with hbSeq := 9 })).core with pageOut := [(1, [])] } }, msg 4 (hbMsg 0x21 0 0x1_0000 9 []), [], by unfold State.msgTurn; decide +kernel⟩,
   ⟨hbRx 3 (hbMsg 0x23 0 0 0 []) (fun i => { i with hbAt := 77, hbPages := [0] }), msg 4 (hbMsg 0x23 0 0 0 []), [], by unfold State.tidy State.msgTurn; decide +kernel⟩,
   ⟨hbRx 3 (hbMsg 0x23 2 0 0 []) (fun i => { i with hbPages := [0] }), msg 4 (hbMsg 0x23 2 0 0 []), [], by unfold State.msgTurn; decide +kernel⟩,
   ⟨hbRx 4 (hbMsg 0x26 0 0x1_0000 0 page) (id), msg 4 (hbMsg 0x26 0 0x1_0000 0 page), [], (0, 0x8000), 0x4000, by unfold Core.copiesFit State.msgTurn; decide +kernel⟩,
   ⟨hbRx 4 (hbMsg 0x27 0 0 12 []) (id), msg 4 (hbMsg 0x27 0 0 12 []), [], by unfold State.msgTurn; decide +kernel⟩,
   ⟨hbRx 4 (hbMsg 0x27 6 0 0 []) (id), msg 4 (hbMsg 0x27 6 0 0 []), [], by unfold State.msgTurn; decide +kernel⟩,
   ⟨{ lk 2 (fun x => x) [(Reg.hbmStatus, 2), (Reg.hbStatus, 2), (Reg.ddrCapacity, 0x80_0000_0000), (Reg.qlStatus 2, 3)] with pat := layout State.reset.pat, integ := { Integ.initial with hbPages := [0, 1] }, core := { (lk 2 (fun x => x) [(Reg.hbmStatus, 2), (Reg.hbStatus, 2), (Reg.ddrCapacity, 0x80_0000_0000), (Reg.qlStatus 2, 3)]).core with pend := [0], clean := [0, 1, 2] } }, 2, by unfold State.noneWaiting; decide +kernel⟩⟩

theorem witness_PartnerKeepsImageAndMirror :
    (∃ (s : State) (m : Msg) (ms : List Msg) (tb : List (Nat × Nat)), (∀ k h, s.hbForce = some (k, h) → leField h 4 2 ≠ 2) ∧ s.msgTurn 0x20 m ms ∧ leField m.bytes 1 1 = 1 ∧ s.hbFrom m = true ∧ tb = tableOf (bytesAt m.bytes 16 256) ∧ s.ticking = true) ∧
    (∃ (s : State) (m : Msg) (ms : List Msg), s.msgTurn 0x20 m ms ∧ leField m.bytes 1 1 = 1 ∧ s.pat.hatboxIn = 0xFFFF ∧ s.ticking = true) ∧
    (∃ (s : State) (m : Msg) (ms : List Msg) (c : Instr) (k : Nat), (c, k) ∈ [(Instr.page, 0x20), (Instr.commit, 0x22), (Instr.journal, 0x24)] ∧ s.msgTurn k m ms ∧ leField m.bytes 1 1 ≠ 1 ∧ s.hbFrom m = false ∧ s.core.fld Reg.hbStatus 2 0 ≠ 4 ∧ s.ticking = true) ∧
    (∃ (s : State) (m : Msg) (ms : List Msg) (c : Instr) (k : Nat), (c, k) ∈ [(Instr.page, 0x20), (Instr.commit, 0x22), (Instr.journal, 0x24)] ∧ s.msgTurn k m ms ∧ leField m.bytes 1 1 ≠ 1 ∧ s.hbFrom m = false ∧ s.core.fld Reg.hbStatus 2 0 ≠ 4 ∧ s.ticking = true) ∧
    (∃ (s : State) (m : Msg) (ms : List Msg) (c : Instr) (k : Nat), (c, k) ∈ [(Instr.page, 0x20), (Instr.commit, 0x22), (Instr.journal, 0x24)] ∧ s.msgTurn k m ms ∧ leField m.bytes 1 1 ≠ 1 ∧ s.hbFrom m = false ∧ s.core.fld Reg.hbStatus 2 0 ≠ 4 ∧ s.ticking = true) ∧
    (∃ (s : State) (m : Msg) (ms : List Msg) (seq a : Nat) (tb : List (Nat × Nat)), (∀ k h, s.hbForce = some (k, h) → leField h 4 2 ≠ 2) ∧ s.msgTurn 0x20 m ms ∧ leField m.bytes 1 1 = 0 ∧ s.hbFrom m = true ∧ s.integ.hbOpen = some (seq, tb) ∧ leField m.bytes 8 8 % 2 ^ 48 = seq ∧ a = logBase tb + s.integ.hbIn.length * (64 + 0x4000) ∧ a + (64 + 0x4000) ≤ s.hbRegion.2 ∧ (∀ l ∈ linesOf (s.hbRegion.1 + a) (64 + 0x4000), s.core.isUe l = false) ∧ s.core.copiesFit 3 ∧ s.ticking = true) ∧
    (∃ (s : State) (m : Msg) (ms : List Msg) (tb : List (Nat × Nat)) (p : HbPage) (a o : Nat), (∀ k h, s.hbForce = some (k, h) → leField h 4 2 ≠ 2) ∧ (∀ b, s.core.stageAt b = none) ∧ s.msgTurn 0x22 m ms ∧ s.hbFrom m = true ∧ tb = tableOf (bytesAt m.bytes 16 256) ∧ s.integ.hbOpen = some (leField m.bytes 2 6, tb) ∧ s.integ.hbIn = [p] ∧ o = imageOffset tb (leField (s.hbBytes (logBase tb) 64) 2 2) (leField (s.hbBytes (logBase tb) 64) 4 4) ∧ o + 0x4000 ≤ logBase tb ∧ s.core.ue = [] ∧ s.core.undef = [] ∧ s.core.copiesFit 8 ∧ a = s.hbRegion.1 + o ∧ a % 64 = 0 ∧ s.ticking = true) ∧
    (∃ (s : State) (m : Msg) (ms : List Msg), (∀ k h, s.hbForce = some (k, h) → leField h 4 2 ≠ 2) ∧ s.msgTurn 0x22 m ms ∧ s.hbFrom m = true ∧ s.integ.hbOpen ≠ some (leField m.bytes 2 6, tableOf (bytesAt m.bytes 16 256)) ∧ s.ticking = true) ∧
    (∃ (s : State) (m : Msg) (ms : List Msg) (e : List Byte) (a : Nat), s.msgTurn 0x24 m ms ∧ s.core.fld Reg.hbStatus 2 0 ≠ 4 ∧ s.hbFrom m = true ∧ e = m.bytes.drop 16 ∧ s.integ.mirHead + e.length ≤ mirrorSize ∧ a = s.hbRegion.1 + (0x1_0000 + s.integ.mirHead) ∧ (∀ l ∈ linesOf a e.length, s.core.isUe l = false) ∧ s.core.copiesFit (e.length / 0x4000 + 2) ∧ s.ticking = true) ∧
    (∃ (s : State) (m : Msg) (ms : List Msg), s.msgTurn 0x25 m ms ∧ s.hbFrom m = false ∧ s.ticking = true) ∧
    (∃ (s : State) (m : Msg) (ms : List Msg) (k : Nat) (h : List Byte), s.msgTurn 0x25 m ms ∧ s.hbFrom m = true ∧ s.hbForce = some (k, h) ∧ leField h 4 2 = 1 ∧ bytesAt h 32 256 = bytesAt m.bytes 16 256 ∧ s.ticking = true) ∧
    (∃ (s : State) (m : Msg) (ms : List Msg) (k : Nat) (h : List Byte), s.msgTurn 0x25 m ms ∧ s.hbFrom m = true ∧ s.hbForce = some (k, h) ∧ leField h 4 2 = 1 ∧ bytesAt h 32 256 ≠ bytesAt m.bytes 16 256 ∧ s.ticking = true) :=
  ⟨⟨hbRx 0 (hbMsg 0x20 1 9 0 (leBytes 8 0 ++ leBytes 8 0x8000 ++ List.replicate 240 0)) (id), msg 4 (hbMsg 0x20 1 9 0 (leBytes 8 0 ++ leBytes 8 0x8000 ++ List.replicate 240 0)), [], tableOf (leBytes 8 0 ++ leBytes 8 0x8000 ++ List.replicate 240 0), (by intro k h e; have h0 : State.hbForce (hbRx 0 (hbMsg 0x20 1 9 0 (leBytes 8 0 ++ leBytes 8 0x8000 ++ List.replicate 240 0)) (id)) = none := (by decide +kernel); rw [h0] at e; cases e), by unfold State.msgTurn; decide +kernel⟩,
   ⟨rx [] (msg 4 (hbMsg 0x20 1 9 0 [])) id, msg 4 (hbMsg 0x20 1 9 0 []), [], by unfold State.msgTurn; decide +kernel⟩,
   ⟨rx [] (msg 4 (hbMsg 0x20 0 1 9 page)) id, msg 4 (hbMsg 0x20 0 1 9 page), [], Instr.page, 0x20, by simp, by unfold State.msgTurn; decide +kernel⟩,
   ⟨rx [] (msg 4 (hbMsg 0x22 0 9 7 [])) id, msg 4 (hbMsg 0x22 0 9 7 []), [], Instr.commit, 0x22, by simp, by unfold State.msgTurn; decide +kernel⟩,
   ⟨rx [] (msg 4 (hbMsg 0x24 0 0 0 ones)) id, msg 4 (hbMsg 0x24 0 0 0 ones), [], Instr.journal, 0x24, by simp, by unfold State.msgTurn; decide +kernel⟩,
   ⟨hbRx 0 (hbMsg 0x20 0 0x1_0000 9 page) (fun i => { i with hbOpen := some (9, tableOf (leBytes 8 0 ++ leBytes 8 0x8000)) }), msg 4 (hbMsg 0x20 0 0x1_0000 9 page), [], 9, 0x1_0002_0000, tableOf (leBytes 8 0 ++ leBytes 8 0x8000), (by intro k h e; have h0 : State.hbForce (hbRx 0 (hbMsg 0x20 0 0x1_0000 9 page) (fun i => { i with hbOpen := some (9, tableOf (leBytes 8 0 ++ leBytes 8 0x8000)) })) = none := (by decide +kernel); rw [h0] at e; cases e), by unfold Core.copiesFit State.msgTurn; decide +kernel⟩,
   ⟨put (put (hbRx 0 (hbMsg 0x22 0 9 7 (leBytes 8 0 ++ leBytes 8 0x8000)) (fun i => { i with hbOpen := some (9, tableOf (leBytes 8 0 ++ leBytes 8 0x8000)), hbIn := [⟨0, 1, 9⟩] })) 0x801_0002_0000 (leBytes 4 0x20 ++ leBytes 4 1)) 0x801_0002_0040 [7], msg 4 (hbMsg 0x22 0 9 7 (leBytes 8 0 ++ leBytes 8 0x8000)), [], tableOf (leBytes 8 0 ++ leBytes 8 0x8000), ⟨0, 1, 9⟩, 0x801_0001_4000, 0x1_0001_4000, (by intro k h e; have h0 : State.hbForce (put (put (hbRx 0 (hbMsg 0x22 0 9 7 (leBytes 8 0 ++ leBytes 8 0x8000)) (fun i => { i with hbOpen := some (9, tableOf (leBytes 8 0 ++ leBytes 8 0x8000)), hbIn := [⟨0, 1, 9⟩] })) 0x801_0002_0000 (leBytes 4 0x20 ++ leBytes 4 1)) 0x801_0002_0040 [7]) = none := (by decide +kernel); rw [h0] at e; cases e), fun b => rfl, by unfold Core.copiesFit State.msgTurn; decide +kernel⟩,
   ⟨hbRx 0 (hbMsg 0x22 0 9 7 (leBytes 8 0 ++ leBytes 8 0x8000)) (id), msg 4 (hbMsg 0x22 0 9 7 (leBytes 8 0 ++ leBytes 8 0x8000)), [], (by intro k h e; have h0 : State.hbForce (hbRx 0 (hbMsg 0x22 0 9 7 (leBytes 8 0 ++ leBytes 8 0x8000)) (id)) = none := (by decide +kernel); rw [h0] at e; cases e), by unfold State.msgTurn; decide +kernel⟩,
   ⟨hbRx 0 (hbMsg 0x24 0 0 0 ones) (id), msg 4 (hbMsg 0x24 0 0 0 ones), [], ones, 0x800_0001_0000, by unfold Core.copiesFit State.msgTurn; decide +kernel⟩,
   ⟨rx [] (msg 4 (hbMsg 0x25 0 0 0 [])) id, msg 4 (hbMsg 0x25 0 0 0 []), [], by unfold State.msgTurn; decide +kernel⟩,
   ⟨restoreS (List.replicate 256 0), msg 4 (hbMsg 0x25 0 0 0 (List.replicate 256 0)), [], 0, bytesAt (hbHeader 1 5 7 9 0 (List.replicate 256 0)) 0 292, by unfold State.msgTurn; decide +kernel⟩,
   ⟨restoreS [1], msg 4 (hbMsg 0x25 0 0 0 (List.replicate 256 0)), [], 0, bytesAt (hbHeader 1 5 7 9 0 [1]) 0 292, by unfold State.msgTurn; decide +kernel⟩⟩

theorem witness_LevelsFollowTargetAndHeat :
    (∃ (s : State) (v : Word), s.ticking = true) ∧
    (∃ (s : State) (l : Nat), s.core.bit Reg.startStatus 3 = true ∧ s.pwr.change = none ∧ s.core.fld Reg.sleepStatus 2 0 ≤ 2 ∧ l = s.appliedLevel ∧ s.core.fld Reg.plStatus 2 0 < l) ∧
    (∃ (s : State) (l : Nat), s.core.bit Reg.startStatus 3 = true ∧ s.pwr.change = none ∧ s.core.fld Reg.sleepStatus 2 0 ≤ 2 ∧ l = s.appliedLevel ∧ l < s.core.fld Reg.plStatus 2 0) ∧
    (∃ (s : State) (l : Nat), s.core.bit Reg.startStatus 3 = true ∧ s.pwr.change = none ∧ s.core.fld Reg.sleepStatus 2 0 ≤ 2 ∧ l = s.appliedLevel ∧ l = s.core.fld Reg.plStatus 2 0 ∧ s.pwr.relevel = true) ∧
    (∃ (s : State) (l rail cmd : Nat), s.core.bit Reg.startStatus 3 = true ∧ s.pwr.change = none ∧ s.core.fld Reg.sleepStatus 2 0 ≤ 2 ∧ l = s.appliedLevel ∧ s.core.fld Reg.plStatus 2 0 < l) ∧
    (∃ (s : State) (a : PmbusAnswer), s.appliedLevel = s.core.fld Reg.plStatus 2 0 ∧ s.pwr.relevel = false) ∧
    (∃ (s : State) (l : Nat), s.pwr.change = some (l, .ramping)) ∧
    (∃ (s : State) (l : Nat), s.pwr.change = some (l, .locking) ∧ l < 8 ∧ s.pwr.sleepPending = none ∧ (∀ i ∈ s.pwr.pllPending, i < 6)) ∧
    (∃ (s : State) (l rail cmd : Nat), s.pwr.change = some (l, .locking) ∧ l < s.core.fld Reg.plStatus 2 0 ∧ s.pwr.sleepPending = none) ∧
    (∃ (s : State) (ts : List (BitVec 16)) (d h y : Int) (hot cool : Prop), (hot ↔ ∃ i, i < 30 ∧ 16 * (if i < 18 then d else h) < (ts.getD i 0).toInt) ∧ (cool ↔ ∀ i, i < 30 → (ts.getD i 0).toInt < 16 * ((if i < 18 then d else h) - y)) ∧ d = (s.core.fld Reg.thermCtrl 7 0 : Nat) ∧ h = (s.core.fld Reg.thermCtrl 15 8 : Nat) ∧ y = (s.core.fld Reg.thermCtrl 19 16 : Nat) ∧ s.alive = true ∧ due s.pwr.govAt (2 ^ 20) s.core.now.toNat = true) ∧
    (∃ (s : State) (ts : List (BitVec 16)), (s.alive = false ∨ due s.pwr.govAt (2 ^ 20) s.core.now.toNat = false)) ∧
    (∃ (s : State) (ts : List (BitVec 16)), (s.alive = false ∨ due s.pwr.govAt (2 ^ 20) s.core.now.toNat = false)) ∧
    (∃ (s : State) (rs : List (Option RailReading)) (l n cmd : Nat) (p : ChangePhase), (∀ k, k < n → ∃ r, rs.getD k none = some r ∧ faultWord r.status = false) ∧ ((rs.getD n none = none ∧ cmd = 0x8B) ∨ ∃ r, rs.getD n none = some r ∧ faultWord r.status = true ∧ cmd = 0x79) ∧ s.pwr.powered = true ∧ due s.pwr.pollAt (2 ^ 20) s.core.now.toNat = true ∧ s.pwr.change = some (l, p) ∧ s.pwr.sleepPending = none ∧ n < 6) ∧
    (∃ (s : State) (rs : List (Option RailReading)) (l n cmd : Nat) (p : ChangePhase), (∀ k, k < n → ∃ r, rs.getD k none = some r ∧ faultWord r.status = false) ∧ ((rs.getD n none = none ∧ cmd = 0x8B) ∨ ∃ r, rs.getD n none = some r ∧ faultWord r.status = true ∧ cmd = 0x79) ∧ s.pwr.powered = true ∧ due s.pwr.pollAt (2 ^ 20) s.core.now.toNat = true ∧ s.pwr.change = some (l, p) ∧ s.pwr.sleepPending = none ∧ n < 6) ∧
    (∃ (s : State) (rs : List (Option RailReading)), (s.pwr.change = none ∨ ∀ n, n < 6 → ∃ r, rs.getD n none = some r ∧ faultWord r.status = false) ∧ s.pwr.powered = true ∧ due s.pwr.pollAt (2 ^ 20) s.core.now.toNat = true) ∧
    (∃ (s : State) (i : Nat) (t : BitVec 16), s.pwr.powered = true ∧ s.pwr.tripped = false ∧ i < 30 ∧ 16 * ((if i < 18 then s.part.fuses.tripDie else s.part.fuses.tripHbm : Nat) : Int) < t.toInt) ∧
    (∃ (s : State) (i : Nat) (t : BitVec 16), t.toInt ≤ 16 * ((if i < 18 then s.part.fuses.tripDie else s.part.fuses.tripHbm : Nat) : Int)) ∧
    (∃ (s : State) (r : Nat), r < 16 ∧ r ∉ s.pwr.stretched ∧ s.ticking = true) ∧
    (∃ (s : State) (r n : Nat), r ∈ s.pwr.stretched ∧ 64 ≤ n ∧ s.ticking = true) ∧
    (∃ (s : State) (r : Nat) (x : Int), s.core.bit Reg.droopCtrl 1 = true ∧ r < 16 ∧ s.regionIdle r = true ∧ s.ticking = true) :=
  ⟨⟨lvl [(Reg.plStatus, 0x20)] id, 0x1F, by decide +kernel⟩,
   ⟨lvl [(Reg.plStatus, 0x3A)] id, 7, by decide +kernel⟩,
   ⟨lvl [(Reg.plStatus, 0x3A)] fun p => { p with target := 0 }, 0, by decide +kernel⟩,
   ⟨lvl [(Reg.plStatus, 0x3A), (Reg.plCtrl, 3)] fun p => { p with target := 2, relevel := true, pair := (0, 0) }, 2, by decide +kernel⟩,
   ⟨lvl [(Reg.plStatus, 0x3A)] id, 7, 5, 0x21, by decide +kernel⟩,
   ⟨lvl [(Reg.plStatus, 0x3A)] fun p => { p with target := 2 }, .good, by decide +kernel⟩,
   ⟨lvl [(Reg.plStatus, 0x7A)] fun p => { p with change := some (7, .ramping) }, 7, by decide +kernel⟩,
   ⟨lvl [(Reg.plStatus, 0x7A), (Reg.clkStatus, 0x80)] fun p => { p with change := some (7, .locking) }, 7, by decide +kernel⟩,
   ⟨lvl [(Reg.plStatus, 0x7A), (Reg.clkStatus, 0x80)] fun p => { p with change := some (0, .locking) }, 0, 5, 0x21, by decide +kernel⟩,
   ⟨lvl [(Reg.thermCtrl, 0x15_5A5F), (Reg.plStatus, 0x3A)] (id), temps 1600, 95, 90, 5, ∃ i, i < 30 ∧ 16 * (if i < 18 then (95 : Int) else 90) < ((temps 1600).getD i 0).toInt, ∀ i, i < 30 → ((temps 1600).getD i 0).toInt < 16 * ((if i < 18 then (95 : Int) else 90) - 5), Iff.rfl, Iff.rfl, by decide +kernel⟩,
   ⟨lvl [] fun p => { p with powered := false }, temps 1600, by decide +kernel⟩,
   ⟨lvl [] fun p => { p with govAt := some 0 }, temps 1600, by decide +kernel⟩,
   ⟨lvl [(Reg.plStatus, 0x7A)] fun p => { p with change := some (7, .ramping) }, (List.replicate 2 (some ⟨0x345, 0x123, 0, 77⟩) ++ [none]), 7, 2, 0x8B, .ramping, fun k h => by match k, h with | 0, _ => exact ⟨_, rfl, by decide +kernel⟩ | 1, _ => exact ⟨_, rfl, by decide +kernel⟩, Or.inl ⟨rfl, rfl⟩, by decide +kernel⟩,
   ⟨lvl [(Reg.plStatus, 0x7A)] fun p => { p with change := some (7, .ramping) }, (List.replicate 2 (some ⟨0x345, 0x123, 0, 77⟩) ++ [some ⟨0x345, 0x123, 0x20, 77⟩]), 7, 2, 0x79, .ramping, fun k h => by match k, h with | 0, _ => exact ⟨_, rfl, by decide +kernel⟩ | 1, _ => exact ⟨_, rfl, by decide +kernel⟩, Or.inr ⟨_, rfl, by decide +kernel, rfl⟩, by decide +kernel⟩,
   ⟨lvl [] id, (List.replicate 5 (some ⟨0x345, 0x123, 0x8000, 77⟩) ++ [none]), Or.inl rfl, by decide +kernel⟩,
   ⟨lvl [] id, 17, 1, by decide +kernel⟩,
   ⟨lvl [] id, 0, 0x8000, by decide +kernel⟩,
   ⟨lvl [] id, 15, by decide +kernel⟩,
   ⟨lvl [] fun p => { p with stretched := [3] }, 3, 64, by decide +kernel⟩,
   ⟨lvl [(Reg.droopCtrl, 2)] fun p => { p with trims := [(3, 1), (4, 2)] }, 3, -5, by decide +kernel⟩⟩

theorem witness_SleepAndBlockResetsLoseTheirPart :
    (∃ (s : State) (c : Instr) (k : Nat), (c, k) ∈ [(Instr.sleepS1, 1), (.sleepS2, 2), (.sleepS3, 3), (.sleepS4, 4)] ∧ s.core.fld Reg.sleepStatus 2 0 = 0 ∧ s.pwr.sleepPending = none ∧ s.sleepBlock k = 0 ∧ s.ticking = true) ∧
    (∃ (s : State) (c : Instr) (k r : Nat), (c, k) ∈ [(Instr.sleepS1, 1), (.sleepS2, 2), (.sleepS3, 3), (.sleepS4, 4)] ∧ s.core.fld Reg.sleepStatus 2 0 = 0 ∧ s.pwr.sleepPending = none ∧ s.sleepBlock k = r ∧ r ≠ 0 ∧ s.ticking = true) ∧
    (∃ (s : State) (c : Instr), c ∈ [.sleepWake, .wakePin] ∧ 1 ≤ s.core.fld Reg.sleepStatus 2 0 ∧ s.core.fld Reg.sleepStatus 2 0 ≤ 2) ∧
    (∃ (s : State) (c : Instr), c ∈ [.sleepWake, .wakePin] ∧ s.core.fld Reg.sleepStatus 2 0 = 3) ∧
    (∃ (s : State), s.core.fld Reg.sleepStatus 2 0 = 4 ∧ s.pwr.powered = true ∧ s.pwr.tripped = false ∧ s.pwr.starting = false) ∧
    (∃ (s : State) (v : Word), s.ticking = true) ∧
    (∃ (s : State) (c : Instr) (i lo n : Nat), (c, lo, n) ∈ [(Instr.blockResetPalm i, 0, 0x2000), (.blockResetMitt i, 0x2000, 0x1000), (.blockResetCuff i, 0x3000, 0x1000), (.blockResetGlove i, 0x4000, 0x1000), (.blockResetSizer i, 0x5000, 0x1000), (.blockResetCounters i, 0x6000, 0x1000)] ∧ i < s.core.active ∧ (∀ j ∈ s.work.dumps, j.begun = false) ∧ s.ticking = true) ∧
    (∃ (s : State) (i : Nat), i < s.core.active ∧ s.ticking = true) ∧
    (∃ (s : State) (c : Instr) (i e : Nat), (c, e) ∈ [(Instr.blockResetMitt i, 0), (.blockResetCuff i, 1), (.blockResetGlove i, 2)] ∧ i < s.core.active ∧ s.ticking = true) ∧
    (∃ (s : State) (i : Nat), i < s.core.active ∧ s.ticking = true) ∧
    (∃ (s : State) (i : Nat), i < s.core.active ∧ s.ticking = true) ∧
    (∃ (s : State) (i : Nat), i < 2 ∧ s.ticking = true) ∧
    (∃ (s : State) (l : Nat), s.links.length = 12 ∧ l < 12 ∧ s.ticking = true) :=
  ⟨⟨put (put ({ lvl [(Reg.numSrJobSeed, 5), (Reg.palmInstr 3, 9)] id with palm := [ctx 4] }) 5 [7]) 0x400_0000_0005 [9], .sleepS1, 1, by simp, by decide +kernel⟩,
   ⟨put (put ({ lvl [(Reg.numSrJobSeed, 5)] id with work := { Work.initial with descs := [op 1 0 0 .ready] } }) 5 [7]) 0x400_0000_0005 [9], .sleepS1, 1, 1, by simp, by decide +kernel⟩,
   ⟨lvl [(Reg.sleepStatus, 1), (Reg.sleepCtrl, 1), (Reg.padHold, 3)] id, .sleepWake, by decide +kernel⟩,
   ⟨lvl [(Reg.sleepStatus, 3), (Reg.sleepCtrl, 3), (Reg.padHold, 3)] id, .sleepWake, by decide +kernel⟩,
   ⟨lvl [(Reg.sleepStatus, 4), (Reg.sleepCtrl, 4), (Reg.padHold, 0xF)] id, by decide +kernel⟩,
   ⟨lvl [(Reg.padHold, 0xF), (Reg.qlCtrl 2, 1)] id, 4, by decide +kernel⟩,
   ⟨{ lvl [(tileCtl 87 + 0x18, 5), (tileCtl 87 + 0x2008, 5), (tileCtl 87 + 0x3008, 5), (tileCtl 87 + 0x4010, 5), (tileCtl 87 + 0x5018, 5), (tileCtl 87 + 0x6008, 5), (tileCtl 0 + 0x6008, 5)] id with palm := [ctx 4] }, .blockResetPalm 87, 87, 0, 0x2000, by simp, by decide +kernel⟩,
   ⟨{ wk [op 1 0 0 .ready] id with palm := [ctx 4, { ctx 4 with t := 1 }] }, 0, by decide +kernel⟩,
   ⟨{ wk [op 1 0 0 .ready, { op 0x20 1 0 .ready with id := 1 }, { op 0x40 2 0 .ready with id := 2 }] id with palm := [ctx 4] }, .blockResetMitt 0, 0, 0, by simp, by decide +kernel⟩,
   ⟨wk [op 1 0 0 .ready] fun w => { w with resv := [⟨0, 0, [0, 1]⟩, ⟨0, 1, [2]⟩] }, 0, by decide +kernel⟩,
   ⟨wk [op 1 0 0 .ready] id, 0, by decide +kernel⟩,
   ⟨port [(Reg.epRxBytes 0, 5), (Reg.epRxBytes 1, 5)], 0, by decide +kernel⟩,
   ⟨lk 2 (fun x => { x with retry := [tx 0] }) [(Reg.qlTxBytes 2, 6), (Reg.qlTxBytes 3, 6)], 2, by decide +kernel⟩⟩

theorem witness_MarginsMakeDueAndTilesMove :
    (∃ (s : State) (ch margin : Nat) (last : Bool), s.calDue ch = true ∧ ch < 384 ∧ s.core.fld (Reg.hbmChStatus ch) 7 0 = 0 ∧ ch ∉ s.integ.onSpare ∧ s.ticking = true) ∧
    (∃ (s : State) (ch margin : Nat) (last : Bool), s.calDue ch = true ∧ ch < 384 ∧ s.core.fld (Reg.hbmChStatus ch) 7 0 = 0 ∧ ch ∉ s.integ.onSpare ∧ s.ticking = true) ∧
    (∃ (s : State) (ch margin : Nat) (last : Bool), s.calDue ch = true ∧ ch < 384 ∧ s.core.fld (Reg.hbmChStatus ch) 7 0 = 0 ∧ ch ∉ s.integ.onSpare ∧ s.ticking = true) ∧
    (∃ (s : State) (ch margin : Nat) (last ok : Bool), s.calDue ch = true ∧ ch < 384 ∧ (s.core.fld (Reg.hbmChStatus ch) 7 0 ≠ 0 ∨ ch ∈ s.integ.onSpare) ∧ s.ticking = true) ∧
    (∃ (s : State) (ch margin : Nat) (last : Bool), s.calDue ch = true ∧ ch < 384 ∧ s.core.fld (Reg.hbmChStatus ch) 7 0 = 0 ∧ ch ∉ s.integ.onSpare ∧ s.ticking = true) ∧
    (∃ (s : State) (l p margin : Nat), s.links.length = 12 ∧ s.calDue (400 + l) = true ∧ s.core.linkUp l = true ∧ (s.link l).tx = none ∧ s.quirasLost l = false ∧ p = s.integ.turnOf (400 + l) % 4 ∧ s.ticking = true) ∧
    (∃ (s : State) (l margin : Nat), s.calDue (400 + l) = true ∧ s.core.linkUp l = true ∧ (s.link l).tx = none ∧ s.quirasLost l = false ∧ s.ticking = true) ∧
    (∃ (s : State) (l margin : Nat) (b : Bool), s.calDue (400 + l) = true ∧ s.core.linkUp l = true ∧ (s.link l).tx = none ∧ s.quirasLost l = true ∧ s.ticking = true) ∧
    (∃ (s : State) (ch l margin : Nat) (last b : Bool) (c : Instr), ((c = .calRoundHbm ch margin ⟨last, b⟩ ∧ s.calDue ch = false) ∨ (c = .calRoundQuiras l margin b ∧ (s.calDue (400 + l) = false ∨ s.core.linkUp l = false ∨ (s.link l).tx ≠ none))) ∧ s.ticking = true) ∧
    (∃ (s : State) (ch l margin : Nat) (last b : Bool) (c : Instr), ((c = .calRoundHbm ch margin ⟨last, b⟩ ∧ s.calDue ch = false) ∨ (c = .calRoundQuiras l margin b ∧ (s.calDue (400 + l) = false ∨ s.core.linkUp l = false ∨ (s.link l).tx ≠ none))) ∧ s.ticking = true) ∧
    (∃ (s : State) (o k margin lane f b : Nat), ((384 ≤ o ∧ o < 400) ∨ (412 ≤ o ∧ o < 414) ∨ (448 ≤ o ∧ o < 550)) ∧ objectKind o = some k ∧ f = s.core.fld Reg.darnCtrl 15 8 ∧ b = (if min margin 255 < f then min (s.core.fld (Reg.margin o) 23 16 + 1) 255 else 0) ∧ s.ticking = true) ∧
    (∃ (s : State) (o k : Nat), o < 550 ∧ objectKind o = some k ∧ (k = 0 → s.pat.map.getD (o - 448) 0xFF ≠ 0xFF ∧ s.pat.map.getD (o - 448) 0xFF ≠ 0xFD) ∧ s.ticking = true) ∧
    (∃ (s : State) (o : Nat), o < 1024 ∧ objectKind o = none ∧ s.core.events = [] ∧ s.ticking = true) ∧
    (∃ (s : State) (o sp code : Nat), s.waitTile = some o ∧ s.core.due = [(0, o)] ∧ s.pat.ready = none ∧ code = s.pat.map.getD (o - 448) 0xFF ∧ code < 0x80 ∧ s.quiescent code = true ∧ pickSpare s.pat.map (o - 448) 0xFFFF = some sp ∧ s.ticking = true) ∧
    (∃ (s : State) (o : Nat), s.waitTile = some o ∧ s.quiescent (s.pat.map.getD (o - 448) 0xFF) = false ∧ s.ticking = true) ∧
    (∃ (s : State) (o : Nat), s.waitTile = some o ∧ s.quiescent (s.pat.map.getD (o - 448) 0xFF) = false ∧ s.integ.waitedOut s.core.now.toNat = true ∧ s.core.due = [(0, o)] ∧ s.pat.ready = none ∧ s.ticking = true) ∧
    (∃ (s : State) (o : Nat), s.waitTile = some o ∧ (s.quiescent (s.pat.map.getD (o - 448) 0xFF) = true ∨ s.integ.waitedOut s.core.now.toNat = false) ∧ s.ticking = true) ∧
    (∃ (s : State) (o : Nat), s.waitTile = some o ∧ (s.quiescent (s.pat.map.getD (o - 448) 0xFF) = true ∨ s.integ.waitedOut s.core.now.toNat = false) ∧ s.ticking = true) ∧
    (∃ (s : State) (c : Instr), c ∈ [.tileReplace, .tileReplaceDefer] ∧ s.waitTile = none ∧ s.ticking = true) :=
  ⟨⟨darn [] false, 383, 5, true, by decide +kernel⟩,
   ⟨darn [] false, 383, 300, false, by decide +kernel⟩,
   ⟨{ darn [] false with integ := { Integ.initial with lanes := [(3, 0, 9), (3, 1, 7)], turn := [(3, 1)] } }, 3, 8, false, by decide +kernel⟩,
   ⟨{ darn [] false with integ := { Integ.initial with onSpare := [3] } }, 3, 7, true, false, by decide +kernel⟩,
   ⟨darn [] false, 3, 300, false, by decide +kernel⟩,
   ⟨{ lk 2 id [(Reg.darnCtrl, 3)] with part := State.reset.part }, 2, 0, 5, by decide +kernel⟩,
   ⟨lk 2 id [(Reg.darnCtrl, 3)], 2, 7, by decide +kernel⟩,
   ⟨{ lk 2 id [(Reg.darnCtrl, 3)] with integ := { Integ.initial with quirasSpareLost := [2] } }, 2, 7, true, by decide +kernel⟩,
   ⟨{ darn [] false with integ := { Integ.initial with calAt := [(3, 0)] } }, 3, 2, 7, true, true, .calRoundHbm 3 7 ⟨true, true⟩, .inl ⟨rfl, by decide +kernel⟩, by decide +kernel⟩,
   ⟨darn [] false, 3, 2, 7, true, true, .calRoundQuiras 2 7 true, .inr ⟨rfl, .inr (.inl (by decide +kernel))⟩, by decide +kernel⟩,
   ⟨darn [] false, 384, 3, 15, 3, 32, 1, by decide +kernel⟩,
   ⟨darn [] false, 448, 0, by decide +kernel⟩,
   ⟨darn [] false, 550, by decide +kernel⟩,
   ⟨darn [(0, 448)] true, 448, 88, 0, by decide +kernel⟩,
   ⟨{ darn [(0, 448)] true with work := { Work.initial with descs := [op 1 0 0 .ready] } }, 448, by decide +kernel⟩,
   ⟨{ darn [(0, 448)] true with core := { (darn [(0, 448)] true).core with now := 9 }, integ := { Integ.initial with boundaryWait := true, waitAt := some (0, 8) }, work := { Work.initial with descs := [op 1 0 0 .ready] } }, 448, by decide +kernel⟩,
   ⟨{ darn [(0, 448)] true with core := { (darn [(0, 448)] true).core with now := 9 }, integ := { Integ.initial with boundaryWait := true, waitAt := some (0, 8) } }, 448, by decide +kernel⟩,
   ⟨{ darn [(0, 448)] true with core := { (darn [(0, 448)] true).core with now := 9 }, integ := { Integ.initial with boundaryWait := true, waitAt := some (0, 9) }, work := { Work.initial with descs := [op 1 0 0 .ready] } }, 448, by decide +kernel⟩,
   ⟨darn [] true, .tileReplace, by decide +kernel⟩⟩

theorem witness_DoffFreezesAndDumps :
    (∃ (s : State) (c : Instr) (src n t : Nat), (c, src) ∈ [(Instr.doffFire, 0), (.doffPinTrigger n, 1)] ∧ (src = 1 → 4 ≤ n ∧ s.core.bit Reg.doffCtrl 1 = true) ∧ t = (if src = 0 then s.core.now.toNat else s.core.now.toNat - (n - 4)) ∧ s.core.fld Reg.doffStatus 1 0 = 0 ∧ s.ticking = true) ∧
    (∃ (s : State) (c : Instr) (src n t : Nat), (c, src) ∈ [(Instr.doffFire, 0), (.doffPinTrigger n, 1)] ∧ (src = 1 → 4 ≤ n ∧ s.core.bit Reg.doffCtrl 1 = true) ∧ t = (if src = 0 then s.core.now.toNat else s.core.now.toNat - (n - 4)) ∧ s.core.fld Reg.doffStatus 1 0 = 0 ∧ s.ticking = true) ∧
    (∃ (s : State) (c : Instr) (src n t : Nat), (c, src) ∈ [(Instr.doffFire, 0), (.doffPinTrigger n, 1)] ∧ (src = 1 → 4 ≤ n ∧ s.core.bit Reg.doffCtrl 1 = true) ∧ t = (if src = 0 then s.core.now.toNat else s.core.now.toNat - (n - 4)) ∧ (s.core.fld Reg.doffStatus 1 0 = 2 ∨ (s.core.fld Reg.doffStatus 1 0 = 1 ∧ (s.pwr.doffTook ≠ some t ∨ s.core.fld Reg.doffStatus 4 2 ≤ src))) ∧ s.ticking = true) ∧
    (∃ (s : State) (c : Instr) (src n t : Nat), (c, src) ∈ [(Instr.doffFire, 0), (.doffPinTrigger n, 1)] ∧ (src = 1 → 4 ≤ n ∧ s.core.bit Reg.doffCtrl 1 = true) ∧ t = (if src = 0 then s.core.now.toNat else s.core.now.toNat - (n - 4)) ∧ (s.core.fld Reg.doffStatus 1 0 = 2 ∨ (s.core.fld Reg.doffStatus 1 0 = 1 ∧ (s.pwr.doffTook ≠ some t ∨ s.core.fld Reg.doffStatus 4 2 ≤ src))) ∧ s.ticking = true) ∧
    (∃ (s : State) (c : Instr) (src n t : Nat), (c, src) ∈ [(Instr.doffFire, 0), (.doffPinTrigger n, 1)] ∧ (src = 1 → 4 ≤ n ∧ s.core.bit Reg.doffCtrl 1 = true) ∧ t = (if src = 0 then s.core.now.toNat else s.core.now.toNat - (n - 4)) ∧ (s.core.fld Reg.doffStatus 1 0 = 2 ∨ (s.core.fld Reg.doffStatus 1 0 = 1 ∧ (s.pwr.doffTook ≠ some t ∨ s.core.fld Reg.doffStatus 4 2 ≤ src))) ∧ s.ticking = true) ∧
    (∃ (s : State) (c : Instr) (src n t : Nat), (c, src) ∈ [(Instr.doffFire, 0), (.doffPinTrigger n, 1)] ∧ (src = 1 → 4 ≤ n ∧ s.core.bit Reg.doffCtrl 1 = true) ∧ t = (if src = 0 then s.core.now.toNat else s.core.now.toNat - (n - 4)) ∧ (s.core.fld Reg.doffStatus 1 0 = 2 ∨ (s.core.fld Reg.doffStatus 1 0 = 1 ∧ (s.pwr.doffTook ≠ some t ∨ s.core.fld Reg.doffStatus 4 2 ≤ src))) ∧ s.ticking = true) ∧
    (∃ (s : State), s.core.fld Reg.doffStatus 1 0 = 1 ∧ s.pwr.doffTook = some s.core.now.toNat ∧ 0 < s.core.fld Reg.doffStatus 4 2 ∧ s.core.fld Reg.doffStatus 4 2 < 3 ∧ s.ticking = true) ∧
    (∃ (s : State) (n : Nat), (n < 4 ∨ s.core.bit Reg.doffCtrl 1 = false) ∧ s.alive = true) ∧
    (∃ (s : State) (f : Nat) (late : List Nat), s.pwr.doffFire = some f ∧ f ≤ s.core.now.toNat ∧ s.alive = true) ∧
    (∃ (s : State) (b : Nat) (late : List Nat) (snap : List (Nat × Word)), s.pwr.doffFire = none ∧ s.core.fld Reg.doffStatus 1 0 = 2 ∧ s.core.frozen = some snap ∧ b ∈ s.pwr.lateBlocks ∧ b ∉ late ∧ (s.core.ctl.map fun p => p.1).Nodup ∧ s.alive = true) ∧
    (∃ (s : State) (f : Nat) (late : List Nat), s.pwr.doffFire = some f ∧ s.core.now.toNat < f ∧ s.alive = true) ∧
    (∃ (s : State) (f : Nat), s.pwr.doffOutUntil = some f ∧ s.alive = true) ∧
    (∃ (s : State) (f : Nat), s.pwr.doffOutUntil = some f ∧ s.alive = true) ∧
    (∃ s : State, s.core.fld Reg.doffStatus 1 0 = 2 ∧ s.ticking = true) ∧
    (∃ (s : State) (m : Msg) (ms : List Msg) (t : Nat), s.msgTurn 0x18 m ms ∧ m.link < 12 ∧ s.core.bit Reg.doffCtrl 2 = true ∧ s.pwr.doffIdent = none ∧ s.core.fld Reg.doffStatus 1 0 = 0 ∧ s.core.localTick m.link (leField m.bytes 8 8) = (t : Int) ∧ t < 2 ^ 64 ∧ s.ticking = true) ∧
    (∃ (s : State) (m : Msg) (ms : List Msg), s.msgTurn 0x18 m ms ∧ (s.core.bit Reg.doffCtrl 2 = false ∨ s.core.fld Reg.doffStatus 1 0 = 2 ∨ s.pwr.doffIdent = some (leField m.bytes 4 2 % 4096, leField m.bytes 2 2)) ∧ s.ticking = true) ∧
    (∃ (s r : State) (d : Desc) (j : DumpJob) (lo off : Nat) (bytes all : List Byte), r = s.readBy (.desc d.id) ∧ lo = (r.measured d j.record).span.1.toNat ∧ bytes = r.core.gBytes lo ((r.measured d j.record).span.2 - (r.measured d j.record).span.1).toNat ∧ all = d.dumpHeader j s.core.now lo bytes ++ bytes ∧ off = roundUp (s.core.fld Reg.dumpNext 39 0) 64 ∧ s.dumpNow = some (d, j) ∧ d.phase = .finished ∧ j.begun = false ∧ ((d.undefined || d.mixed) && !d.left) = false ∧ (∀ e ∈ s.work.descs, e.phase ≠ .dumping) ∧ s.noneWaiting ∧ j.dest = 0 ∧ j.req < 8 ∧ s.lacksNothing (.desc d.id) (fun s => s.beginDump d j) ∧ off + all.length ≤ (s.pat.region 96).2 ∧ off + all.length < 2 ^ 40 ∧ (∀ l ∈ linesOf ((s.pat.region 96).1 + off) all.length, s.core.isUe l = false) ∧ s.core.copiesFit (all.length / 0x4000 + 2) ∧ s.ticking = true) ∧
    (∃ (s : State) (v : Word), s.core.bit Reg.dumpStatus 0 = false ∧ s.ticking = true) ∧
    (∃ (s : State) (v : Word), s.core.bit Reg.dumpStatus 0 = true ∧ s.ticking = true) :=
  ⟨⟨lvl ([(Reg.doffCtrl, 0xF_0007), (Reg.doffFwd, 0x804), (Reg.doffLead, 0x1000)]) (id), .doffFire, 0, 4, 0, by simp, by decide +kernel⟩,
   ⟨{ lvl ([(Reg.doffCtrl, 0xF_0007), (Reg.doffFwd, 0x804), (Reg.doffLead, 0x1000)]) (id) with core := { (lvl ([(Reg.doffCtrl, 0xF_0007), (Reg.doffFwd, 0x804), (Reg.doffLead, 0x1000)]) (id)).core with now := 9 } }, .doffPinTrigger 6, 1, 6, 7, by simp, by decide +kernel⟩,
   ⟨lvl ([(Reg.doffCtrl, 0xF_0007), (Reg.doffFwd, 0x804), (Reg.doffLead, 0x1000), (Reg.doffStatus, 1)]) (id), .doffFire, 0, 4, 0, by simp, by decide +kernel⟩,
   ⟨lvl ([(Reg.doffCtrl, 0xF_0007), (Reg.doffFwd, 0x804), (Reg.doffLead, 0x1000), (Reg.doffStatus, 1)]) (id), .doffPinTrigger 4, 1, 4, 0, by simp, by decide +kernel⟩,
   ⟨lvl ([(Reg.doffCtrl, 0xF_0007), (Reg.doffFwd, 0x804), (Reg.doffLead, 0x1000), (Reg.doffStatus, 2)]) (id), .doffFire, 0, 4, 0, by simp, by decide +kernel⟩,
   ⟨lvl ([(Reg.doffCtrl, 0xF_0007), (Reg.doffFwd, 0x804), (Reg.doffLead, 0x1000), (Reg.doffStatus, 5)]) (fun p => { p with doffTook := some 0 }), .doffPinTrigger 4, 1, 4, 0, by simp, by decide +kernel⟩,
   ⟨lvl ([(Reg.doffCtrl, 0xF_0007), (Reg.doffFwd, 0x804), (Reg.doffLead, 0x1000), (Reg.doffStatus, 5)]) (fun p => { p with doffTook := some 0 }), by decide +kernel⟩,
   ⟨lvl ([(Reg.doffCtrl, 0xF_0007), (Reg.doffFwd, 0x804), (Reg.doffLead, 0x1000)]) (id), 3, by decide +kernel⟩,
   ⟨lvl ([(Reg.doffStatus, 1)]) (fun p => { p with doffFire := some 0 }), 0, [], by decide +kernel⟩,
   ⟨{ lvl ([(Reg.doffStatus, 2), (tileCtl 0 + 0x6008, 5)]) (fun p => { p with lateBlocks := [0x8006, 0x8016] }) with core := { (lvl ([(Reg.doffStatus, 2), (tileCtl 0 + 0x6008, 5)]) id).core with frozen := some [(tileCtl 1 + 0x6008, 3)] } }, 0x8006, [0x8016], [(tileCtl 1 + 0x6008, 3)], by decide +kernel⟩,
   ⟨lvl ([]) (fun p => { p with doffFire := some 1 }), 1, [], by decide +kernel⟩,
   ⟨lvl ([]) (fun p => { p with doffOutUntil := some 0 }), 0, by decide +kernel⟩,
   ⟨lvl ([]) (fun p => { p with doffOutUntil := some 1 }), 1, by decide +kernel⟩,
   ⟨{ lvl [(Reg.doffStatus, 0x62)] id with core := { (lvl [(Reg.doffStatus, 0x62)] id).core with frozen := some [] } }, by decide +kernel⟩,
   ⟨{ lvl ([(Reg.doffCtrl, 0xF_0007), (Reg.doffFwd, 0x804), (Reg.doffLead, 0x1000)]) (id) with net := { Net.initial with rxMsgs := [{ msg 3 (msgDoff 2 77 9 50) with link := 3 }] }, core := { (lvl ([(Reg.doffCtrl, 0xF_0007), (Reg.doffFwd, 0x804), (Reg.doffLead, 0x1000)]) (id)).core with now := 50 } }, { msg 3 (msgDoff 2 77 9 50) with link := 3 }, [], 50, by unfold State.msgTurn; decide +kernel⟩,
   ⟨{ lvl ([(Reg.doffCtrl, 0)]) (id) with net := { Net.initial with rxMsgs := [{ msg 3 (msgDoff 2 77 9 50) with link := 3 }] }, core := { (lvl ([(Reg.doffCtrl, 0)]) (id)).core with now := 50 } }, { msg 3 (msgDoff 2 77 9 50) with link := 3 }, [], by unfold State.msgTurn; decide +kernel⟩,
   ⟨dumpS, dumpR, zeroF, dumpJ, (dumpR.measured zeroF 0).span.1.toNat, roundUp (dumpS.core.fld Reg.dumpNext 39 0) 64, dumpR.core.gBytes (dumpR.measured zeroF 0).span.1.toNat ((dumpR.measured zeroF 0).span.2 - (dumpR.measured zeroF 0).span.1).toNat, zeroF.dumpHeader dumpJ dumpS.core.now ((dumpR.measured zeroF 0).span.1.toNat) (dumpR.core.gBytes (dumpR.measured zeroF 0).span.1.toNat ((dumpR.measured zeroF 0).span.2 - (dumpR.measured zeroF 0).span.1).toNat) ++ dumpR.core.gBytes (dumpR.measured zeroF 0).span.1.toNat ((dumpR.measured zeroF 0).span.2 - (dumpR.measured zeroF 0).span.1).toNat, rfl, rfl, rfl, rfl, rfl, by unfold State.lacksNothing Core.copiesFit State.noneWaiting; decide +kernel⟩,
   ⟨lvl [] id, 0x1FF_FFFF_FFFF, by decide +kernel⟩,
   ⟨lvl [(Reg.dumpStatus, 1)] id, 0x1FF_FFFF_FFFF, by decide +kernel⟩⟩

theorem witness_KeyCommandsBlowFuses :
    (∃ (s : State) (slot : Nat), slot < 4 ∧ s.core.bit Reg.secStatus 8 = false ∧ s.pat.checking = none ∧ allZero (s.part.fuses.keyHash.getD slot []) = true ∧ (∃ k, k < 8 ∧ s.core.rd (Reg.keyStage k) ≠ 0) ∧ s.ticking = true) ∧
    (∃ (s : State) (slot k : Nat), (∀ i, s.pat.run = some i → i.key ≠ slot) ∧ slot < 4 ∧ s.core.bit Reg.secStatus 8 = false ∧ s.pat.checking = none ∧ keyPresent s.part.fuses slot = true ∧ k < 4 ∧ k ≠ slot ∧ keyPresent s.part.fuses k = true ∧ s.ticking = true) ∧
    (∃ (s : State) (c : Instr) (slot confirm : Nat), c ∈ [.keyProgram slot confirm, .keyRevoke slot confirm] ∧ s.core.bit Reg.secStatus 8 = false ∧ confirm < 2 ^ 16 ∧ confirm ≠ 0xC1E5 ∧ s.ticking = true) ∧
    (∃ (s : State) (c : Instr) (slot confirm : Nat), c ∈ [.keyProgram slot confirm, .keyRevoke slot confirm] ∧ s.core.bit Reg.secStatus 8 = true ∧ s.ticking = true) ∧
    (∃ (s : State) (slot : Nat) (b : List Byte), s.pwr.keyOp = some (1, slot) ∧ slot < s.part.fuses.keyHash.length ∧ s.ticking = true) ∧
    (∃ (s : State) (slot : Nat) (b : List Byte), s.pwr.keyOp = some (2, slot) ∧ slot < s.part.fuses.revoked.length ∧ slot < 4 ∧ s.ticking = true) ∧
    (∃ (s : State) (i more : Nat), s.pwr.powered = true) ∧
    (∃ (s : State) (a i more : Nat), (s.pwr.powered = false ∨ a ≠ s.part.fuses.i2cAddr)) ∧
    (∃ (s : State) (a i more : Nat), (s.pwr.powered = false ∨ a ≠ s.part.fuses.i2cAddr)) :=
  ⟨⟨keyS none [(Reg.keyStage 7, 1)], 2, by decide +kernel⟩,
   ⟨keyS none [], 1, 0, (by intro i h; cases h), by decide +kernel⟩,
   ⟨keyS none [], .keyProgram 1 0xC1E4, 1, 0xC1E4, by decide +kernel⟩,
   ⟨keyS none [(Reg.secStatus, 0x100)], .keyProgram 1 0xC1E5, 1, 0xC1E5, by decide +kernel⟩,
   ⟨keyS (some (1, 2)) [(Reg.secStatus, 0x100)], 2, List.replicate 64 0x81, by decide +kernel⟩,
   ⟨keyS (some (2, 1)) [(Reg.secStatus, 0x100)], 1, [], by decide +kernel⟩,
   ⟨lvl [(Reg.plStatus, 5)] id, 3, 0, by decide +kernel⟩,
   ⟨lvl [] fun p => { p with powered := false }, 0x5A, 3, 0, by decide +kernel⟩,
   ⟨lvl [] id, 0x5B, 3, 0, by decide +kernel⟩⟩

theorem witness_StoresAndCounterClears :
    (∃ (s : State) (i l m o : Nat) (mask v : Word), (o, mask) ∈ plainRegs i l m ∧ i < 4 ∧ l < 12 ∧ m < 4096 ∧ s.tidy ∧ s.noneWaiting ∧ s.ticking = true) ∧
    (∃ (s : State) (i l m o : Nat) (mask v : Word), (o, mask) ∈ plainRegs i l m ∧ i < 4 ∧ l < 12 ∧ m < 4096 ∧ s.tidy ∧ s.noneWaiting ∧ s.ticking = true) ∧
    (∃ (s : State) (i l m o : Nat) (mask v : Word), (o, mask) ∈ plainRegs i l m ∧ i < 4 ∧ l < 12 ∧ m < 4096 ∧ s.tidy ∧ s.noneWaiting ∧ s.ticking = true) ∧
    (∃ (s : State) (o n : Nat) (v : Word), s.tidy ∧ s.noneWaiting ∧ ((n ≠ 4 ∧ n ≠ 8) ∨ o % n ≠ 0 ∨ 0x1000_0000 ≤ o ∨ (0x60_0000 ≤ o ∧ o < 0x100_0000) ∨ (0x110_0000 ≤ o ∧ o < 0x800_0000)) ∧ s.ticking = true) ∧
    (∃ (s : State) (t p l o n : Nat) (c : Instr), clearsRun t p l c o n ∧ t < s.core.active ∧ p < 2 ∧ l < 12 ∧ s.core.frozen = none ∧ s.ticking = true) ∧
    (∃ (s : State), s.core.frozen = none ∧ s.ticking = true) ∧
    (∃ (s : State) (c : Instr) (n base : Nat) (reg : Nat → Nat), (c, n, base) ∈ [(Instr.hbmCntClear, 384, Reg.hbmCe), (.ddrCntClear, 16, Reg.ddrCe)] ∧ reg = (if n = 384 then Reg.hbmChStatus else Reg.ddrChStatus) ∧ s.core.frozen = none ∧ s.ticking = true) ∧
    (∃ (s : State) (t p l : Nat) (c : Instr), ((∃ o n, clearsRun t p l c o n) ∨ c ∈ [.obsCntClear, .hbmCntClear, .ddrCntClear]) ∧ s.core.frozen ≠ none ∧ s.ticking = true) :=
  ⟨⟨st [(Reg.numSrJobSeed, 0x123F_5A78_9ABC_DEF6 &&& BitVec.allOnes 64)], 3, 11, 4095, Reg.numSrJobSeed, BitVec.allOnes 64, 0xFEDC_BA98_7654_3210, by unfold State.noneWaiting State.tidy; decide +kernel⟩,
   ⟨st [(Reg.numSrJobSeed, 0x123F_5A78_9ABC_DEF6 &&& BitVec.allOnes 64)], 3, 11, 4095, Reg.numSrJobSeed, BitVec.allOnes 64, 0xFEDC_BA98_7654_3210, by unfold State.noneWaiting State.tidy; decide +kernel⟩,
   ⟨st [(Reg.numSrJobSeed, 0x123F_5A78_9ABC_DEF6 &&& BitVec.allOnes 64)], 3, 11, 4095, Reg.numSrJobSeed, BitVec.allOnes 64, 0xFEDC_BA98_7654_3210, by unfold State.noneWaiting State.tidy; decide +kernel⟩,
   ⟨st [], 2, 2, 5, by unfold State.noneWaiting State.tidy; decide +kernel⟩,
   ⟨st [(tileCtl 87 + 0x2010, 5), (tileCtl 87 + 0x2010 + 8 * (13 - 1), 6), (tileCtl 87 + 0x2010 + 8 * 13, 7)], 87, 1, 11, tileCtl 87 + 0x2010, 13, .mittCntClear 87, by simp [clearsRun], by decide +kernel⟩,
   ⟨st [(Reg.doffIgnored, 5), (Reg.obsHbmRd, 6), (Reg.doffLead, 7), (Reg.dumpDone, 4)], by decide +kernel⟩,
   ⟨st [(Reg.hbmCe, 5), (Reg.hbmChStatus 383, 0x0001_0001_0001)], .hbmCntClear, 384, Reg.hbmCe, Reg.hbmChStatus, by simp, rfl, by decide +kernel⟩,
   ⟨{ st [] with core := { (st []).core with frozen := some [] } }, 0, 0, 0, .numCntClear, Or.inl ⟨0x338, 11, by simp [clearsRun]⟩, by decide +kernel⟩⟩

theorem witness_StepsKeepStatesTidy :
    (∃ s t : State, step s = .next t ∧ s.tidy) :=
  ⟨{ st [] with pending := [.plTargetWrite 2] }, _, rfl, by unfold State.tidy; decide +kernel⟩

theorem witness_StepsKeepMemoryCanonical :
    (∃ s t : State, s.memCanonical ∧ step s = .next t) :=
  ⟨{ put (st []) 0x1000 [7, 8] with pending := [.plTargetWrite 2] }, _, ⟨by decide +kernel, by decide +kernel⟩, rfl⟩

theorem witness_StepsOnlySetFuses :
    (∃ s t : State, step s = .next t) ∧
    (∃ (f : Fuses) (fl : List Host.Cell) (slot : Nat) (i : Image), (checkSlot f fl slot).2.2 = some i) :=
  ⟨⟨{ keyS (some (1, 2)) [(Reg.secStatus, 0x100)] with pending := [.keyCmdDone (List.replicate 64 0x81)] }, _, rfl⟩,
   ⟨testPart.fuses, testPart.flash, 0, testRun, test_image_valid⟩⟩

end Sys2Proof.Tests
end

section
/-! Control-space stores and counter clears (R12, R16, R79, R139). A command that leaves no event and nothing waiting leaves what its block
does alone; a store to a plain register is one write of its word; a clear is a run of zero writes. -/

namespace Sys2Proof.Machine

/-! ## The end of a command -/

/-- A change of registers alone leaves the memory. -/
theorem sameMemory_onCore (s : State) (f : Core → Core) (h : ∀ c a, (f c).rdByte a = c.rdByte a) : (s.onCore f).sameMemory s :=
  fun a => (h s.core a).symm

theorem sameUnits_onCore (s : State) (f : Core → Core) : s.sameUnits (s.onCore f) := ⟨rfl, rfl, rfl, rfl, rfl, rfl, rfl, rfl⟩

/-- A command of the clocked blocks that answers `u` runs to `u` while the clocks have edges. -/
theorem runs_clocked {c : Instr} {s u : State} {P : State → Prop} (he : exec c s = s.clocked (.next u)) (ht : s.ticking = true) (hu : P u) :
    runs c s P :=
  ⟨u, by rw [he, State.clocked, if_pos ht], hu⟩

/-- Without events there is nothing to settle. -/
theorem settle_eq_self (s : State) (h : s.core.events = []) : s.settle = s := by
  simp only [State.settle, h, List.foldl_nil]
  rw [← h]

theorem takeQueues_eq_self (s : State) (h : ∀ q ∈ s.core.engineQueues, s.core.qUsed q = 0) : s.takeQueues = s := by
  unfold State.takeQueues
  generalize s.core.engineQueues = l at h
  induction l with
  | nil => rfl
  | cons q r ih =>
    rw [List.foldl_cons, h q (by simp)]
    exact ih fun p hp => h p (by simp [hp])

/-- Where nothing waits at the module's doors, nothing is taken in. -/
theorem takeWork_eq_self (s : State) (h : s.noneWaiting) : s.takeWork = s := by
  obtain ⟨hs, hd, hq⟩ := h
  simp only [State.takeWork, hs, hd, List.length_nil, List.range_zero, List.foldl_nil, takeQueues_eq_self s hq]

/-- A put at a key that a filtering map drops leaves what the map gives. -/
theorem filterMap_sPut {α β : Type} [DecidableEq α] (f : Nat × α → Option β) (l : List (Nat × α)) (k : Nat) (v d : α)
    (hf : ∀ w, f (k, w) = none) : (sPut l k v d).filterMap f = l.filterMap f := by
  have drop : (sDrop l k).filterMap f = l.filterMap f := by
    induction l with
    | nil => rfl
    | cons p r ih =>
      obtain ⟨j, w⟩ := p
      by_cases h : j = k
      · subst h; simpa [sDrop, hf] using ih
      · have hcons : sDrop ((j, w) :: r) k = (j, w) :: sDrop r k := by simp [sDrop, h]
        rw [hcons, List.filterMap_cons, List.filterMap_cons, ih]
  have ins : ∀ m : List (Nat × α), (sInsert m k v).filterMap f = m.filterMap f := fun m => by
    induction m with
    | nil => simp [sInsert, hf]
    | cons p r ih =>
      simp only [sInsert]
      split
      · simp [hf]
      · simp only [List.filterMap_cons, ih]
  unfold sPut
  split
  · exact drop
  · rw [ins, drop]

/-- A register below the queues' windows says nothing about which queues feed an engine. -/
theorem engineQueues_wr (c : Core) (o : Nat) (v : Word) (h : o < Reg.qCfg 0) : (c.wr o v).engineQueues = c.engineQueues := by
  refine filterMap_sPut _ _ o v _ fun w => if_neg ?_
  rintro ⟨ho, -⟩
  exact absurd h (by simpa using ho)

theorem qUsed_wr (c : Core) (o q : Nat) (v : Word) (h : o < Reg.qCfg 0) : (c.wr o v).qUsed q = c.qUsed q := by
  simp only [Reg.qCfg] at h
  simp only [Core.qUsed]
  rw [Core.fld_wr_ne _ _ _ _ (by simp only [Reg.qTail]; omega), Core.fld_wr_ne _ _ _ _ (by simp only [Reg.qHead]; omega)]

theorem noneWaiting_wr (s : State) (o : Nat) (v : Word) (h : o < Reg.qCfg 0) (hn : s.noneWaiting) :
    (s.onCore fun c => c.wr o v).noneWaiting := by
  obtain ⟨hs, hd, hq⟩ := hn
  refine ⟨hs, hd, fun q hm => ?_⟩
  rw [onCore_core, engineQueues_wr _ _ _ h] at hm
  rw [onCore_core, qUsed_wr _ _ _ _ h]
  exact hq q hm

/-! ## Where an offset lies (R16, R78) -/

theorem locate_hole (active a : Nat) (h : (0x60_0000 ≤ a ∧ a < 0x100_0000) ∨ (0x110_0000 ≤ a ∧ a < 0x800_0000)) :
    locate active a = (.none, a) := by
  unfold locate
  rcases h with h | h <;> simp (disch := omega) only [if_neg, if_pos]

theorem locate_obs (active k : Nat) (h : k < 0x1_0000) : locate active (0x5_0000 + k) = (.obs, k) := by
  generalize ha : 0x5_0000 + k = a
  unfold locate
  simp (disch := omega) only [if_neg, if_pos, Prod.mk.injEq, true_and]
  omega

theorem locate_integ (active k : Nat) (h : k < 0x6_0000) : locate active (0x1A_0000 + k) = (.integ, k) := by
  generalize ha : 0x1A_0000 + k = a
  unfold locate
  simp (disch := omega) only [if_neg, if_pos, Prod.mk.injEq, true_and]
  omega

theorem locate_qr (active k : Nat) (h : k < 0xF_F000) : locate active (0x30_1000 + k) = (.qr, k) := by
  generalize ha : 0x30_1000 + k = a
  unfold locate
  simp (disch := omega) only [if_neg, if_pos, Prod.mk.injEq, true_and]
  omega

theorem locate_ql (active l k : Nat) (hl : l < 12) (hk : k < 0x100) : locate active (0x30_0000 + l * 0x100 + k) = (.ql l, k) := by
  generalize ha : 0x30_0000 + l * 0x100 + k = a
  unfold locate
  simp (disch := omega) only [if_neg, if_pos, Prod.mk.injEq, Blk.ql.injEq]
  omega

/-! ## Stores that a block ignores (R16, R79) -/

/-- A store that is not of 4 or 8 bytes, not aligned, or outside every block leaves the state. -/
theorem writeReg_ignored (s : State) (o n : Nat) (v : Word)
    (h : (n ≠ 4 ∧ n ≠ 8) ∨ o % n ≠ 0 ∨ 0x1000_0000 ≤ o ∨ (0x60_0000 ≤ o ∧ o < 0x100_0000) ∨ (0x110_0000 ≤ o ∧ o < 0x800_0000)) :
    s.writeReg o n v = s := by
  unfold State.writeReg
  dsimp only
  by_cases hi : (n ≠ 4 ∧ n ≠ 8) ∨ o % n ≠ 0 ∨ 0x1000_0000 ≤ o
  · exact if_pos hi
  · rw [if_neg hi, locate_hole _ _ (by omega)]

/-! ## Stores to plain registers (R12) -/

/-- The bits that a store of `size` bytes at `off` reaches of its 64-bit word. -/
def storeHit (off size : Nat) : Word := if size = 8 then BitVec.allOnes 64 else if off % 8 = 0 then 0xFFFF_FFFF else 0xFFFF_FFFF_0000_0000

theorem storeHit_eight (off : Nat) : storeHit off 8 = BitVec.allOnes 64 := if_pos rfl

/-- The written bytes, at their place in the word. -/
def storePut (off : Nat) (v : Word) : Word := if off % 8 = 0 then v else v <<< 32

/-- Places in the blocks where a store does nothing but put its bits in. -/
def plainPlace : Blk → Nat → Prop
  | .glob, k => k = 0x328
  | .clk, k => k = 0x18
  | .obs, k => k = 0x10 ∨ ∃ i < 4, k = 0x108 + i * 0x10
  | .band, k => k = 0x18
  | .integ, k => ∃ i < 4, k = 0x120 + i * 8
  | .ql _, k => k = 0x28
  | .qr, k => k ≠ 0
  | _, _ => False

/-- A plain register is aligned and below the queues, and its block gives it the bits of its mask. -/
theorem plainRegs_place {i l m o : Nat} {mask : Word} (h : (o, mask) ∈ plainRegs i l m) (hi : i < 4) (hl : l < 12) (hm : m < 4096) (active : Nat) :
    ∃ b k, locate active o = (b, k) ∧ o % 8 = 0 ∧ o < Reg.qCfg 0 ∧ masks b k = (mask.toNat, 0) ∧ plainPlace b k := by
  simp only [plainRegs, List.mem_cons, Prod.mk.injEq, List.not_mem_nil, or_false] at h
  rcases h with ⟨rfl, rfl⟩ | ⟨rfl, rfl⟩ | ⟨rfl, rfl⟩ | ⟨rfl, rfl⟩ | ⟨rfl, rfl⟩ | ⟨rfl, rfl⟩ | ⟨rfl, rfl⟩ | ⟨rfl, rfl⟩ | ⟨rfl, rfl⟩
  · exact ⟨.glob, 0x328, rfl, rfl, by decide, by decide, rfl⟩
  · refine ⟨.integ, 0x120 + i * 8, locate_integ _ _ (by omega), ?_, ?_, if_pos (by omega), i, hi, rfl⟩ <;>
      simp only [Reg.jnlBatch, Reg.qCfg] <;> omega
  · exact ⟨.band, 0x18, rfl, rfl, by decide, by decide, rfl⟩
  · exact ⟨.clk, 0x18, rfl, rfl, by decide, by decide, rfl⟩
  · exact ⟨.obs, 0x10, rfl, rfl, by decide, by decide, Or.inl rfl⟩
  · refine ⟨.obs, 0x108 + i * 0x10, locate_obs _ _ (by omega), ?_, ?_, (if_pos (by omega)).trans (if_neg (by omega)), Or.inr ⟨i, hi, rfl⟩⟩ <;>
      simp only [Reg.dumpStep, Reg.qCfg] <;> omega
  · refine ⟨.ql l, 0x28, locate_ql _ _ _ hl (by omega), ?_, ?_, rfl, rfl⟩ <;> simp only [Reg.qlSched, Reg.qCfg] <;> omega
  · refine ⟨.qr, 0x7000 + m * 8, locate_qr _ _ (by omega), ?_, ?_, (if_neg (by omega)).trans (if_pos (by omega)), ?_⟩ <;>
      simp only [Reg.modRoute, Reg.qCfg, plainPlace] <;> omega
  · exact ⟨.qr, 8, rfl, rfl, by decide, by decide, by simp [plainPlace]⟩

theorem plainRegs_aligned {i l m o : Nat} {mask : Word} (h : (o, mask) ∈ plainRegs i l m) (hi : i < 4) (hl : l < 12) (hm : m < 4096) :
    o % 8 = 0 := by
  obtain ⟨_, _, _, h8, _⟩ := plainRegs_place h hi hl hm 0
  exact h8

theorem lt_four_cases {i : Nat} (h : i < 4) : i = 0 ∨ i = 1 ∨ i = 2 ∨ i = 3 := by omega

/-- At a plain place a legal store is a plain one of the block. -/
theorem writeReg_plainPlace (s : State) {off size a k : Nat} {b : Blk} (v : Word) (hs : size = 4 ∨ size = 8) (ho : off % size = 0)
    (hlt : off < 0x1000_0000) (ha : off / 8 * 8 = a) (hl : locate s.core.active a = (b, k)) (h : plainPlace b k) :
    s.writeReg off size v = s.plain a
      ((s.core.rd a &&& BitVec.ofNat 64 (masks b k).1 &&& ~~~storeHit off size) ||| (storePut off v &&& storeHit off size)) := by
  unfold State.writeReg
  dsimp only
  rw [if_neg (by omega), ha, hl]
  cases b with
  | glob => subst h; rfl
  | clk => subst h; rfl
  | band => subst h; rfl
  | ql _ => subst h; rfl
  | obs =>
    obtain rfl | ⟨i, hi, rfl⟩ := h
    · rfl
    · obtain rfl | rfl | rfl | rfl := lt_four_cases hi <;> rfl
  | integ =>
    obtain ⟨i, hi, rfl⟩ := h
    obtain rfl | rfl | rfl | rfl := lt_four_cases hi <;> rfl
  | qr => exact if_neg h
  | _ => exact h.elim

/-- The stored bits of the reached bytes replace the register's, bit by bit. -/
theorem merge_store (r m hit p : Word) :
    (((r &&& ~~~m) ||| (((r &&& m &&& ~~~hit) ||| (p &&& hit)) &&& m))) = (r &&& ~~~(m &&& hit)) ||| (p &&& m &&& hit) := by
  ext k hk
  simp only [BitVec.getElem_or, BitVec.getElem_and, BitVec.getElem_not]
  cases r[k] <;> cases m[k] <;> cases hit[k] <;> cases p[k] <;> rfl

/-- A plain store of a block where `mask` is what software stores and no bit is cleared by writing 1: one write of the merged word. -/
theorem plain_eq_wr (s : State) {a k : Nat} {b : Blk} {mask : Word} (hl : locate s.core.active a = (b, k)) (hm : masks b k = (mask.toNat, 0))
    (w : Word) : s.plain a w = s.onCore fun c => c.wr a ((s.core.rd a &&& ~~~mask) ||| (w &&& mask)) := by
  simp only [State.plain, State.onCore, Core.storeCodes, hl, hm, BitVec.ofNat_toNat, BitVec.setWidth_eq, BitVec.and_zero, BitVec.not_zero,
    BitVec.and_allOnes]

/-- A store after which nothing waits and no event stands ends where its block leaves it. -/
theorem runs_store {s u : State} {off size : Nat} {v : Word} {P : State → Prop} (hw : s.writeReg off size v = u) (hn : u.noneWaiting)
    (he : u.core.events = []) (hc : s.ticking = true) (hu : P u) : runs (.registerWrite off size v) s P :=
  runs_clocked rfl hc (by rwa [hw, takeWork_eq_self u hn, settle_eq_self u he])

/-- A legal store that reaches plain register `o` puts its bits there and changes nothing else. -/
theorem runs_plain_store {s : State} {i l m o : Nat} {mask : Word} (hp : (o, mask) ∈ plainRegs i l m) (hi : i < 4) (hl : l < 12) (hm : m < 4096)
    (ht : s.tidy) (hn : s.noneWaiting) (hc : s.ticking = true) (off size : Nat) (v : Word) (hs : size = 4 ∨ size = 8) (hal : off % size = 0)
    (ho : off / 8 * 8 = o) :
    runs (.registerWrite off size v) s fun u =>
      u.core.rd o = ((s.core.rd o &&& ~~~(mask &&& storeHit off size)) ||| (storePut off v &&& mask &&& storeHit off size)) ∧
      u.sameRegsBut s [o] ∧ u.sameMemory s ∧ s.sameUnits u ∧ u.palm = s.palm := by
  obtain ⟨b, k, hloc, -, hlt, hmask, hplace⟩ := plainRegs_place hp hi hl hm s.core.active
  simp only [Reg.qCfg] at hlt
  have hw := writeReg_plainPlace s v hs hal (by omega) ho hloc hplace
  rw [plain_eq_wr s hloc hmask, hmask, BitVec.ofNat_toNat, BitVec.setWidth_eq, merge_store] at hw
  exact runs_store hw (noneWaiting_wr s o _ hlt hn) ht.1 hc
    ⟨Core.rd_wr_self _ _ _, fun r hr => (Core.rd_wr_ne _ _ (by simpa using hr)).symm, fun _ => rfl, sameUnits_onCore _ _, rfl⟩

/-! ## Counter clears (R139) -/

namespace Core

theorem rd_clearRange_out (c : Core) (off n r : Nat) (h : ∀ k, k < n → r ≠ off + 8 * k) : (c.clearRange off n).rd r = c.rd r := by
  induction n generalizing c off with
  | zero => rfl
  | succ n ih =>
    rw [clearRange, ih _ _ fun k hk => by have := h (k + 1) (by omega); omega]
    exact rd_wr_ne _ _ (h 0 (by omega))

theorem rd_clearRange_in (c : Core) (off n k : Nat) (h : k < n) : (c.clearRange off n).rd (off + 8 * k) = 0 := by
  induction n generalizing c off k with
  | zero => omega
  | succ n ih =>
    rw [clearRange]
    cases k with
    | zero =>
      rw [rd_clearRange_out _ _ _ _ fun k _ => by omega]
      exact rd_wr_self _ _ _
    | succ k =>
      rw [show off + 8 * (k + 1) = off + 8 + 8 * k by omega]
      exact ih _ _ _ (by omega)

@[simp] theorem clearRange_frozen (c : Core) (off n : Nat) : (c.clearRange off n).frozen = c.frozen := by
  induction n generalizing c off with
  | zero => rfl
  | succ n ih => exact ih _ _

@[simp] theorem rdByte_clearRange (c : Core) (off n a : Nat) : (c.clearRange off n).rdByte a = c.rdByte a := by
  induction n generalizing c off with
  | zero => rfl
  | succ n ih => exact ih _ _

theorem cntClear_of_thawed {c : Core} (h : c.frozen = none) (off n : Nat) : c.cntClear off n = c.clearRange off n := by simp [cntClear, h]

theorem cntClear_of_frozen {c : Core} (h : c.frozen ≠ none) (off n : Nat) : c.cntClear off n = c :=
  if_pos (Option.isSome_iff_ne_none.mpr h)

@[simp] theorem cntClear_frozen (c : Core) (off n : Nat) : (c.cntClear off n).frozen = c.frozen := by
  unfold cntClear
  split
  · rfl
  · exact clearRange_frozen _ _ _

@[simp] theorem rdByte_cntClear (c : Core) (off n a : Nat) : (c.cntClear off n).rdByte a = c.rdByte a := by
  unfold cntClear
  split
  · rfl
  · exact rdByte_clearRange _ _ _ _

theorem clearChannels_of_thawed {c : Core} (h : c.frozen = none) (reg : Nat → Nat) (n : Nat) :
    c.clearChannels reg n = (List.range n).foldl (fun c i => c.setFld (reg i) 47 16 0) c := by simp [clearChannels, h]

theorem clearChannels_of_frozen {c : Core} (h : c.frozen ≠ none) (reg : Nat → Nat) (n : Nat) : c.clearChannels reg n = c :=
  if_pos (Option.isSome_iff_ne_none.mpr h)

@[simp] theorem rdByte_clearChannels (c : Core) (reg : Nat → Nat) (n a : Nat) : (c.clearChannels reg n).rdByte a = c.rdByte a := by
  unfold clearChannels
  split
  · rfl
  · exact foldl_keeps (fun c : Core => c.rdByte a) (fun c i => c.setFld (reg i) 47 16 0) (fun _ _ => rfl) _ _

theorem rd_clearChannels (c : Core) (reg : Nat → Nat) (n r : Nat) (h : ∀ i, i < n → r ≠ reg i) : (c.clearChannels reg n).rd r = c.rd r := by
  unfold clearChannels
  split
  · rfl
  · exact foldl_keeps_mem (fun c : Core => c.rd r) _ _ (fun c i hi => by simp [h i (List.mem_range.mp hi)]) _

/-- The CE and UE fields of a channel read 0, its status bits as before. -/
theorem fld_clearChannels {c : Core} (hf : c.frozen = none) (reg : Nat → Nat) {n i : Nat} (hi : i < n) :
    (c.clearChannels reg n).fld (reg i) 47 16 = 0 ∧ (c.clearChannels reg n).fld (reg i) 15 0 = c.fld (reg i) 15 0 := by
  rw [clearChannels_of_thawed hf]
  induction n with
  | zero => omega
  | succ n ih =>
    rw [List.range_succ, List.foldl_append, List.foldl_cons, List.foldl_nil]
    by_cases he : reg i = reg n
    · rw [he, fld_setFld_self _ _ _ _ _ (by omega), fld_setFld_other _ _ _ _ _ _ _ (by omega)]
      refine ⟨rfl, foldl_keeps (fun c : Core => c.fld (reg n) 15 0) _ (fun c j => ?_) _ _⟩
      by_cases hj : reg n = reg j
      · rw [hj, fld_setFld_other _ _ _ _ _ _ _ (by omega)]
      · exact fld_setFld_ne _ _ _ _ _ _ hj
    · have hn : i ≠ n := fun h => he (h ▸ rfl)
      rw [fld_setFld_ne _ _ _ _ _ _ he, fld_setFld_ne _ _ _ _ _ _ he]
      exact ih (by omega)

end Core

/-- A clear of a tile's block clears the counters of an active tile, and does nothing for another number. -/
theorem clearTile_cases (s : State) (t off n : Nat) :
    s.clearTile t off n = s.onCore (fun x => x.cntClear (tileCtl t + off) n) ∨ s.clearTile t off n = s ∧ s.core.active ≤ t := by
  unfold State.clearTile
  split
  · exact Or.inl rfl
  · exact Or.inr ⟨rfl, by omega⟩

theorem exec_epCntClear (p : Nat) (s : State) : exec (.epCntClear p) s =
    s.clocked (.next (if p < 2 then s.onCore fun c => c.cntClear (0x20_0050 + 0x1000 * p) 9 else s)) := by
  rw [show 0x20_0050 + 0x1000 * p = Reg.epRxBytes p by simp only [Reg.epRxBytes]; omega]
  rfl

theorem exec_qlCntClear (l : Nat) (s : State) : exec (.qlCntClear l) s =
    s.clocked (.next (if l < 12 then s.onCore fun c => c.cntClear (0x30_0050 + 0x100 * l) 9 else s)) := by
  rw [show 0x30_0050 + 0x100 * l = Reg.qlTxBytes l by simp only [Reg.qlTxBytes]; omega]
  rfl

/-- Each command of `clearsRun` clears its run of counters, but for a tile, port or link that the module does not have. -/
theorem exec_clearsRun {t p l o n : Nat} {c : Instr} (h : clearsRun t p l c o n) (s : State) :
    ∃ u, exec c s = s.clocked (.next u) ∧
      (u = s.onCore (fun x => x.cntClear o n) ∨ u = s ∧ (s.core.active ≤ t ∨ 2 ≤ p ∨ 12 ≤ l)) := by
  have tile : ∀ off k, s.clearTile t off k = s.onCore (fun x => x.cntClear (tileCtl t + off) k) ∨
      s.clearTile t off k = s ∧ (s.core.active ≤ t ∨ 2 ≤ p ∨ 12 ≤ l) :=
    fun off k => (clearTile_cases s t off k).imp_right (And.imp_right Or.inl)
  simp only [clearsRun, List.mem_cons, Prod.mk.injEq, List.not_mem_nil, or_false] at h
  rcases h with ⟨rfl, rfl, rfl⟩ | ⟨rfl, rfl, rfl⟩ | ⟨rfl, rfl, rfl⟩ | ⟨rfl, rfl, rfl⟩ | ⟨rfl, rfl, rfl⟩ | ⟨rfl, rfl, rfl⟩ | ⟨rfl, rfl, rfl⟩ |
    ⟨rfl, rfl, rfl⟩ | ⟨rfl, rfl, rfl⟩ | ⟨rfl, rfl, rfl⟩ | ⟨rfl, rfl, rfl⟩ | ⟨rfl, rfl, rfl⟩ | ⟨rfl, rfl, rfl⟩ | ⟨rfl, rfl, rfl⟩ |
    ⟨rfl, rfl, rfl⟩ | ⟨rfl, rfl, rfl⟩ | ⟨rfl, rfl, rfl⟩ | ⟨rfl, rfl, rfl⟩ | ⟨rfl, rfl, rfl⟩
  iterate 7 exact ⟨_, rfl, tile _ _⟩
  iterate 4 exact ⟨_, rfl, Or.inl rfl⟩
  · refine ⟨_, exec_epCntClear p s, ?_⟩
    split
    · exact Or.inl rfl
    · exact Or.inr ⟨rfl, by omega⟩
  · refine ⟨_, exec_qlCntClear l s, ?_⟩
    split
    · exact Or.inl rfl
    · exact Or.inr ⟨rfl, by omega⟩
  iterate 6 exact ⟨_, rfl, Or.inl rfl⟩

theorem exec_obsCntClear (s : State) : exec .obsCntClear s =
    s.clocked (.next (s.onCore fun c => ((c.cntClear Reg.doffIgnored 2).cntClear Reg.obsHbmRd 8).cntClear Reg.dumpDone 3)) := rfl

theorem exec_hbmCntClear (s : State) : exec .hbmCntClear s =
    s.clocked (.next (s.onCore fun c => (c.cntClear Reg.hbmCe 4).clearChannels Reg.hbmChStatus 384)) := rfl

theorem exec_ddrCntClear (s : State) : exec .ddrCntClear s =
    s.clocked (.next (s.onCore fun c => (c.cntClear Reg.ddrCe 4).clearChannels Reg.ddrChStatus 16)) := rfl

/-- A clear of a run of counters zeroes them and changes nothing else. -/
theorem runs_clearsRun {s : State} {t p l o n : Nat} {c : Instr} (h : clearsRun t p l c o n) (ht : t < s.core.active) (hp : p < 2) (hl : l < 12)
    (hf : s.core.frozen = none) (hc : s.ticking = true) :
    runs c s fun u => (∀ k, k < n → u.core.rd (o + 8 * k) = 0) ∧ (∀ r, (∀ k, k < n → r ≠ o + 8 * k) → u.core.rd r = s.core.rd r) ∧
      u.sameMemory s ∧ s.sameUnits u ∧ u.palm = s.palm := by
  obtain ⟨u, he, rfl | ⟨-, hout⟩⟩ := exec_clearsRun h s
  · refine runs_clocked he hc ⟨fun k hk => ?_, fun r hr => ?_, sameMemory_onCore _ _ fun _ _ => Core.rdByte_cntClear _ _ _ _,
      sameUnits_onCore _ _, rfl⟩
    · rw [onCore_core, Core.cntClear_of_thawed hf, Core.rd_clearRange_in _ _ _ _ hk]
    · rw [onCore_core, Core.cntClear_of_thawed hf, Core.rd_clearRange_out _ _ _ _ hr]
  · omega

/-- OBS_CTRL.CNT_CLEAR zeroes its three runs of counters and changes nothing else. -/
theorem runs_obsCntClear {s : State} (hf : s.core.frozen = none) (hc : s.ticking = true) :
    runs .obsCntClear s fun u =>
      (∀ r, r ∈ [Reg.doffIgnored, Reg.obsDoffSkewed, Reg.dumpDone] → u.core.rd r = 0) ∧ (∀ k, k < 8 → u.core.rd (Reg.obsHbmRd + 8 * k) = 0) ∧
      (∀ r, r < 0x5_0040 ∨ (0x5_0050 ≤ r ∧ r < 0x5_0060) ∨ (0x5_00A0 ≤ r ∧ r < 0x5_0198) ∨ 0x5_01B0 ≤ r → u.core.rd r = s.core.rd r) ∧
      u.sameMemory s ∧ s.sameUnits u := by
  have hclear : ((s.core.cntClear Reg.doffIgnored 2).cntClear Reg.obsHbmRd 8).cntClear Reg.dumpDone 3 =
      ((s.core.clearRange Reg.doffIgnored 2).clearRange Reg.obsHbmRd 8).clearRange Reg.dumpDone 3 := by
    rw [Core.cntClear_of_thawed hf, Core.cntClear_of_thawed (by simpa using hf), Core.cntClear_of_thawed (by simpa using hf)]
  have hbytes : ∀ k, k < 8 → (((s.core.clearRange Reg.doffIgnored 2).clearRange Reg.obsHbmRd 8).clearRange Reg.dumpDone 3).rd
      (Reg.obsHbmRd + 8 * k) = 0 := fun k hk => by
    rw [Core.rd_clearRange_out _ _ _ _ fun j _ => by simp only [Reg.obsHbmRd, Reg.dumpDone]; omega, Core.rd_clearRange_in _ _ _ _ hk]
  refine runs_clocked (exec_obsCntClear s) hc ⟨fun r hr => ?_, fun k hk => ?_, fun r hr => ?_, sameMemory_onCore _ _ fun _ _ => by simp,
    sameUnits_onCore _ _⟩
  · rw [onCore_core, hclear]
    simp only [List.mem_cons, List.not_mem_nil, or_false] at hr
    rcases hr with rfl | rfl | rfl
    · rw [Core.rd_clearRange_out _ _ _ _ fun j _ => by simp only [Reg.doffIgnored, Reg.dumpDone]; omega,
        Core.rd_clearRange_out _ _ _ _ fun j _ => by simp only [Reg.doffIgnored, Reg.obsHbmRd]; omega]
      exact Core.rd_clearRange_in _ _ _ 0 (by omega)
    · exact hbytes 7 (by omega)
    · exact Core.rd_clearRange_in _ _ _ 0 (by omega)
  · rw [onCore_core, hclear, hbytes k hk]
  · rw [onCore_core, hclear, Core.rd_clearRange_out _ _ _ _ fun j _ => by simp only [Reg.dumpDone]; omega,
      Core.rd_clearRange_out _ _ _ _ fun j _ => by simp only [Reg.obsHbmRd]; omega,
      Core.rd_clearRange_out _ _ _ _ fun j _ => by simp only [Reg.doffIgnored]; omega]

/-- A clear of a memory zeroes its counters and its channels' CE and UE, where the channels' registers lie apart from the counters. -/
theorem runs_channelClear {s : State} {c : Instr} {base n : Nat} {reg : Nat → Nat}
    (he : exec c s = s.clocked (.next (s.onCore fun x => (x.cntClear base 4).clearChannels reg n)))
    (hapart : ∀ i k, k < 4 → reg i ≠ base + 8 * k) (hf : s.core.frozen = none) (hc : s.ticking = true) :
    runs c s fun u => (∀ k, k < 4 → u.core.rd (base + 8 * k) = 0) ∧
      (∀ i, i < n → u.core.fld (reg i) 47 16 = 0 ∧ u.core.fld (reg i) 15 0 = s.core.fld (reg i) 15 0) ∧ u.sameMemory s ∧ s.sameUnits u := by
  refine runs_clocked he hc ⟨fun k hk => ?_, fun i hi => ?_, sameMemory_onCore _ _ fun _ _ => by simp, sameUnits_onCore _ _⟩
  · rw [onCore_core, Core.rd_clearChannels _ _ _ _ fun i _ => (hapart i k hk).symm, Core.cntClear_of_thawed hf, Core.rd_clearRange_in _ _ _ _ hk]
  · have hkeep : (s.core.clearRange base 4).fld (reg i) 15 0 = s.core.fld (reg i) 15 0 := by
      simp only [Core.fld, Core.rd_clearRange_out _ _ _ _ (hapart i)]
    rw [onCore_core, Core.cntClear_of_thawed hf, ← hkeep]
    exact Core.fld_clearChannels (by simpa using hf) reg hi

/-- While Doff holds the counters every clear leaves the state. -/
theorem runs_clear_frozen {s : State} {t p l : Nat} {c : Instr}
    (h : (∃ o n, clearsRun t p l c o n) ∨ c ∈ [.obsCntClear, .hbmCntClear, .ddrCntClear]) (hf : s.core.frozen ≠ none) (hc : s.ticking = true) :
    runs c s fun u => u = s := by
  rcases h with ⟨o, n, h⟩ | h
  · obtain ⟨u, he, rfl | ⟨rfl, -⟩⟩ := exec_clearsRun h s
    · exact runs_clocked he hc (by rw [State.onCore, Core.cntClear_of_frozen hf])
    · exact runs_clocked he hc rfl
  · simp only [List.mem_cons, List.not_mem_nil, or_false] at h
    rcases h with rfl | rfl | rfl
    · exact runs_clocked (exec_obsCntClear s) hc (by simp only [State.onCore, Core.cntClear_of_frozen hf])
    · exact runs_clocked (exec_hbmCntClear s) hc (by simp only [State.onCore, Core.cntClear_of_frozen hf, Core.clearChannels_of_frozen hf])
    · exact runs_clocked (exec_ddrCntClear s) hc (by simp only [State.onCore, Core.cntClear_of_frozen hf, Core.clearChannels_of_frozen hf])

/-! ## The obligation -/

/-- Settles O56: a store to a plain register is one write of the merged word, an ignored store is the identity, and a clear is a run of zero
writes that Doff's freeze turns off. -/
theorem storesAndCounterClears : Obligations.StoresAndCounterClears := by
  refine ⟨fun s i l m o mask v hp hi hl hm ht hn hc => ?_, fun s i l m o mask v hp hi hl hm ht hn hc => ?_,
    fun s i l m o mask v hp hi hl hm ht hn hc => ?_, fun s o n v ht hn h hc => runs_store (writeReg_ignored s o n v h) hn ht.1 hc rfl,
    fun s t p l o n c h ht hp hl hf hc => runs_clearsRun h ht hp hl hf hc, fun s hf hc => runs_obsCntClear hf hc,
    fun s c n base reg h hreg hf hc => ?_, fun s t p l c h hf hc => runs_clear_frozen h hf hc⟩
  · have h8 := plainRegs_aligned hp hi hl hm
    simpa only [storeHit_eight, storePut, if_pos h8, BitVec.and_allOnes] using runs_plain_store hp hi hl hm ht hn hc o 8 v (by omega) h8 (by omega)
  · have h8 := plainRegs_aligned hp hi hl hm
    simpa [storeHit, storePut, h8] using runs_plain_store hp hi hl hm ht hn hc o 4 v (by omega) (by omega) (by omega)
  · have h8 := plainRegs_aligned hp hi hl hm
    have h4 : (o + 4) % 8 ≠ 0 := by omega
    simpa [storeHit, storePut, h4] using runs_plain_store hp hi hl hm ht hn hc (o + 4) 4 v (by omega) (by omega) (by omega)
  · simp only [List.mem_cons, Prod.mk.injEq, List.not_mem_nil, or_false] at h
    obtain ⟨rfl, rfl, rfl⟩ | ⟨rfl, rfl, rfl⟩ := h
    · rw [if_pos rfl] at hreg
      subst hreg
      exact runs_channelClear (exec_hbmCntClear s) (fun i k hk => by simp only [Reg.hbmChStatus, Reg.hbmCe]; omega) hf hc
    · rw [if_neg (by omega)] at hreg
      subst hreg
      exact runs_channelClear (exec_ddrCntClear s) (fun i k hk => by simp only [Reg.ddrChStatus, Reg.ddrCe]; omega) hf hc

end Sys2Proof.Machine
end

section
/-! Structure epochs and the wear journal (R64, R65, R68, R70). A request, a check's end and a CANCEL each end in the epoch registers and
the Pattern's fields; what the wear journal's commands program and erase lies in its two halves. -/

namespace Sys2Proof.Machine

/-! ## The end of an epoch request (R68, R70) -/

namespace Core

@[simp] theorem result_epochEnd (c : Core) (result detail : Nat) : (c.epochEnd result detail).fld Reg.epochStatus 7 0 = result % 256 := by
  rw [epochEnd, setBit, setBit, fld_setFld_ne _ _ _ _ _ _ (by decide), fld_setFld_other _ _ _ _ _ _ _ (by omega),
    fld_setFld_other _ _ _ _ _ _ _ (by omega)]
  exact fld_setFld_self _ _ _ _ _ (by omega)

@[simp] theorem detail_epochEnd (c : Core) (result detail : Nat) : (c.epochEnd result detail).fld Reg.epochStatus 15 8 = detail % 256 := by
  rw [epochEnd, setBit, setBit, fld_setFld_ne _ _ _ _ _ _ (by decide), fld_setFld_other _ _ _ _ _ _ _ (by omega)]
  exact fld_setFld_self _ _ _ _ _ (by omega)

@[simp] theorem done_epochEnd (c : Core) (result detail : Nat) : (c.epochEnd result detail).bit Reg.epochStatus 16 = true := by
  rw [epochEnd, bit, rd_setBit, if_neg (by decide)]
  exact bit_setBit_self _ _ _ _ (by omega)

@[simp] theorem req_epochEnd (c : Core) (result detail : Nat) : (c.epochEnd result detail).bit Reg.epochCtrl 0 = false :=
  bit_setBit_self _ _ _ _ (by omega)

/-- EPOCH_CTRL and EPOCH_STATUS as a check's beginning leaves them: REQ set, RESULT 1, DETAIL 0. -/
def epochBegun (c : Core) : Core := ((c.setBit Reg.epochCtrl 0 true).setFld Reg.epochStatus 7 0 1).setFld Reg.epochStatus 15 8 0

@[simp] theorem req_epochBegun (c : Core) : c.epochBegun.bit Reg.epochCtrl 0 = true := by
  rw [epochBegun, bit, rd_setFld, if_neg (by decide), rd_setFld, if_neg (by decide)]
  exact bit_setBit_self _ _ _ _ (by omega)

@[simp] theorem result_epochBegun (c : Core) : c.epochBegun.fld Reg.epochStatus 7 0 = 1 := by
  rw [epochBegun, fld_setFld_other _ _ _ _ _ _ _ (by omega)]
  exact fld_setFld_self _ _ _ _ _ (by omega)

end Core

/-- A request for the slot that runs ends at once. -/
theorem epochBegin_running {s : State} {slot : Nat} {r : Image} (hr : s.pat.run = some r) (h : r.slot = slot) :
    s.epochBegin slot = { s with core := s.core.epochBegun.epochEnd 0x20 0 } := by
  simp only [State.epochBegin, hr, h, beq_self_eq_true, if_true, Core.epochBegun]

/-- A request for another slot begins its check where no key command runs. -/
theorem epochBegin_other {s : State} {slot : Nat} {r : Image} (hr : s.pat.run = some r) (h : r.slot ≠ slot) (hk : s.pwr.keyOp = none) :
    s.epochBegin slot = { s with core := s.core.epochBegun, pat := { s.pat with checking := some slot } } := by
  simp [State.epochBegin, hr, h, hk, Core.epochBegun]

theorem epochReq_eq {s : State} (h : s.core.bit Reg.epochCtrl 0 = false) (slot : Nat) :
    s.epochReq slot = (s.onCore fun c => c.setFld Reg.epochCtrl 1 1 slot).epochBegin (slot % 2) := by
  simp [State.epochReq, h, State.onCore]

/-- Without a queued key command nothing starts after a check. -/
theorem keyAfterCheck_eq_self {s : State} (h : s.pwr.keyQueued = none) : s.keyAfterCheck = s := by simp only [State.keyAfterCheck, h]

theorem epochCancel_pending {s : State} (h : s.core.bit Reg.epochCtrl 0 = true) (hk : s.pwr.keyQueued = none) :
    s.epochCancel = { s with core := s.core.epochEnd 0x24 0, pat := { s.pat with checking := none, ready := none },
                             pwr := { s.pwr with epochQueued := false } } := by
  rw [State.epochCancel, if_pos h]
  exact keyAfterCheck_eq_self hk

/-- A check that finds a later image with equal fixed sections leaves it ready for the next boundary. -/
theorem exec_epochCheckDone_ready {s : State} {slot : Nat} {r i : Image} (hs : s.pat.checking = some slot) (hq : s.pwr.epochQueued = false)
    (hk : s.pwr.keyQueued = none) (hi : (checkSlot s.part.fuses s.part.flash slot).2.2 = some i) (hr : s.pat.run = some r)
    (hseq : r.seq < i.seq) (hfix : fixedDiffers r i = none) :
    exec .epochCheckDone s = s.clocked (.next
      { s with core := (s.core.noteSlot slot (checkSlot s.part.fuses s.part.flash slot)).setFld Reg.epochStatus 7 0 2,
               pat := { s.pat with checking := none, ready := some i } }) := by
  show execEpochCheckDone s = _
  simp only [execEpochCheckDone, hs, hq, hi, hr, hfix, if_neg (Nat.not_le.mpr hseq), Bool.false_eq_true, if_false]
  exact congrArg (fun u => s.clocked (.next u)) (keyAfterCheck_eq_self hk)

/-- A check of a slot that is not valid ends with the slot's code. -/
theorem exec_epochCheckDone_invalid {s : State} {slot : Nat} (hs : s.pat.checking = some slot) (hq : s.pwr.epochQueued = false)
    (hk : s.pwr.keyQueued = none) (hi : (checkSlot s.part.fuses s.part.flash slot).2.2 = none) :
    exec .epochCheckDone s = s.clocked (.next
      { s with core := (s.core.noteSlot slot (checkSlot s.part.fuses s.part.flash slot)).epochEnd 0x21
                 (checkSlot s.part.fuses s.part.flash slot).1,
               pat := { s.pat with checking := none } }) := by
  show execEpochCheckDone s = _
  simp only [execEpochCheckDone, hs, hq, hi, Bool.false_eq_true, if_false]
  exact congrArg (fun u => s.clocked (.next u)) (keyAfterCheck_eq_self hk)

/-! ## What the wear journal leaves (R63 to R66) -/

/-- A flash byte after a range was erased. -/
theorem sGet_flashErase (fl : List Host.Cell) (a n k : Nat) :
    sGet (flashErase fl a n) k 0xFF = if a ≤ k ∧ k < a + n then 0xFF else sGet fl k 0xFF := by
  rw [flashErase, sGet_filter fun k => decide (k < a) || decide (a + n ≤ k)]
  simp only [Bool.or_eq_true, decide_eq_true_eq]
  split <;> split
  · omega
  · rfl
  · rfl
  · omega

theorem halfBase_ge (h : Nat) : 0x110_0000 ≤ halfBase h := by
  unfold halfBase
  split <;> omega

/-- The same fuses, and the same flash below the wear journal. -/
def Part.sameBelowJournal (p q : Part) : Prop :=
  (∀ a, a < 0x110_0000 → sGet q.flash a 0xFF = sGet p.flash a 0xFF) ∧ q.fuses = p.fuses

theorem Part.sameBelowJournal.refl (p : Part) : p.sameBelowJournal p := ⟨fun _ _ => rfl, rfl⟩

theorem Part.sameBelowJournal.trans {p q r : Part} (h : p.sameBelowJournal q) (h' : q.sameBelowJournal r) : p.sameBelowJournal r :=
  ⟨fun a ha => (h'.1 a ha).trans (h.1 a ha), h'.2.trans h.2⟩

theorem foldl_sameBelowJournal {α : Type} (p : Part) (f : Part × Core → α → Part × Core)
    (hf : ∀ (pc : Part × Core) (x : α), pc.1.sameBelowJournal (f pc x).1) (l : List α) (c : Core) : p.sameBelowJournal (l.foldl f (p, c)).1 :=
  foldl_holds (fun pc : Part × Core => p.sameBelowJournal pc.1) f (fun pc x h => h.trans (hf pc x)) l (p, c) (.refl p)

/-- Programming at or above the journal's first byte. -/
theorem Part.sameBelowJournal_flashPut (p : Part) {a : Nat} (bs : List Byte) (h : 0x110_0000 ≤ a) :
    p.sameBelowJournal { p with flash := flashPut p.flash a bs } :=
  ⟨fun k hk => by rw [sGet_flashPut, if_neg (by omega)], rfl⟩

/-- Erasing at or above the journal's first byte. -/
theorem Part.sameBelowJournal_flashErase (p : Part) {a : Nat} (n : Nat) (h : 0x110_0000 ≤ a) :
    p.sameBelowJournal { p with flash := flashErase p.flash a n } :=
  ⟨fun k hk => by rw [sGet_flashErase, if_neg (by omega)], rfl⟩

/-- A record is lost, or programmed in the active half. -/
theorem appendWear_sameBelowJournal (p : Part) (c : Core) (ty object : Nat) (data : List Byte) :
    p.sameBelowJournal (appendWear p c ty object data).1 := by
  have hb := halfBase_ge (activeHalf p.flash)
  unfold appendWear
  dsimp only
  split
  · exact Part.sameBelowJournal.refl p
  · exact p.sameBelowJournal_flashPut _ (by omega)

theorem compactWear_sameBelowJournal (p : Part) (c : Core) : p.sameBelowJournal (compactWear p c).1 :=
  (p.sameBelowJournal_flashErase _ (halfBase_ge _)).trans
    ((Part.sameBelowJournal_flashPut _ _ (halfBase_ge _)).trans (Part.sameBelowJournal_flashErase _ _ (halfBase_ge _)))

/-- Compaction ends with the old half erased. -/
theorem sGet_compactWear_old (p : Part) (c : Core) {a : Nat} (h : halfBase (activeHalf p.flash) ≤ a)
    (h' : a < halfBase (activeHalf p.flash) + 0x80_0000) : sGet (compactWear p c).1.flash a 0xFF = 0xFF := by
  rw [compactWear, sGet_flashErase, if_pos ⟨h, h'⟩]

/-- Compaction shows the other half as the active one. -/
theorem half_compactWear (p : Part) (c : Core) : (compactWear p c).2.fld Reg.journalStatus 0 0 = 1 - activeHalf p.flash := by
  rw [compactWear, Core.fld_setFld_other _ _ _ _ _ _ _ (by omega), Core.fld_setFld_self _ _ _ _ _ (by omega)]
  omega

/-- A due margin summary: the flash below the journal stays, and the counts of the margin period start again. -/
theorem exec_marginSummary_due {s : State} (h : due s.integ.marginAt (2 ^ 42) s.core.now.toNat = true) :
    ∃ (p : Part) (c : Core), s.part.sameBelowJournal p ∧ exec .marginSummary s = s.clocked (.next
      ({ s with part := p, core := { c with ceRows := [] },
                integ := { s.integ with adderFails := [], marginAt := some s.core.now.toNat } } : State).settle) := by
  rw [show exec .marginSummary s = execMarginSummary s from rfl, execMarginSummary, if_pos h]
  -- a list that cannot be unfolded keeps the unifier from running the fold
  generalize List.range 414 = objects
  refine ⟨_, _, ?_, rfl⟩
  refine foldl_sameBelowJournal _ _ (fun pc o => ?_) _ _
  exact appendWear_sameBelowJournal _ _ _ _ _

theorem exec_journalCompaction_full {s : State} (h : halfRecords - 1024 ≤ s.core.fld Reg.journalStatus 18 1) :
    exec .journalCompaction s = s.clocked (.next
      { s with part := (compactWear s.part s.core).1, core := (compactWear s.part s.core).2 }) := by
  show execJournalCompaction s = _
  rw [execJournalCompaction, if_pos h]

/-! ## The obligation -/

/-- Settles O5: each command's outcome under its clause's premises is one update of the epoch registers and the Pattern, or of the
journal's halves, whose fields are then read off. -/
theorem epochsAndTheWearJournal : Obligations.EpochsAndTheWearJournal := by
  refine ⟨fun s slot r hreq hr hslot hk hc => ?_, fun s slot r hreq hr hslot hc => ?_,
    fun s slot r i hs hq hk hi hr hseq hfix hc => ?_, fun s slot hs hq hk hi hc => ?_, fun s hreq hk hc => ?_, fun s hdue hc => ?_,
    fun s hfull hc => ?_⟩
  · refine runs_clocked rfl hc ?_
    rw [epochReq_eq hreq, epochBegin_other (s := s.onCore _) hr hslot hk]
    exact ⟨rfl, Core.req_epochBegun _, Core.result_epochBegun _, hr⟩
  · refine runs_clocked rfl hc ?_
    rw [epochReq_eq hreq, epochBegin_running (s := s.onCore _) hr hslot]
    exact ⟨Core.result_epochEnd _ _ _, Core.done_epochEnd _ _ _, Core.req_epochEnd _ _ _, rfl⟩
  · exact runs_clocked (exec_epochCheckDone_ready hs hq hk hi hr hseq hfix) hc
      ⟨rfl, rfl, hr, Core.fld_setFld_self _ _ _ _ _ (by omega)⟩
  · exact runs_clocked (exec_epochCheckDone_invalid hs hq hk hi) hc
      ⟨rfl, rfl, Core.result_epochEnd _ _ _, Core.detail_epochEnd _ _ _, Core.req_epochEnd _ _ _⟩
  · refine runs_clocked rfl hc ?_
    rw [epochCancel_pending hreq hk]
    exact ⟨rfl, rfl, rfl, Core.result_epochEnd _ _ _, Core.done_epochEnd _ _ _, Core.req_epochEnd _ _ _⟩
  · obtain ⟨p, c, ⟨hflash, hfuses⟩, he⟩ := exec_marginSummary_due hdue
    refine runs_clocked he hc ?_
    rw [settle_ceRows, settle_integ, settle_part]
    exact ⟨rfl, rfl, rfl, hflash, hfuses⟩
  · obtain ⟨hflash, hfuses⟩ := compactWear_sameBelowJournal s.part s.core
    exact runs_clocked (exec_journalCompaction_full hfull) hc
      ⟨half_compactWear _ _, fun a h h' => sGet_compactWear_old _ _ h h', hflash, hfuses⟩

end Sys2Proof.Machine
end

section
/-! The Cuff's jobs (R144, R157 to R169). A step of a job reads, writes and counts, and an acknowledgement or a condition changes its
descriptor; none of that changes which jobs wait, which descriptors hold slots, or CUFF_OPS. The end of a step then does the rest. -/

namespace Sys2Proof.Machine

/-! ## Registers that accesses to memory leave -/

/-- A register of a tile's Palm, Mitt, Cuff or Glove: outside the module's own blocks, the tile's Sizer and the tile's traffic counters. -/
def tileEngineReg (o : Nat) : Prop := tileCtl 0 ≤ o ∧ o % 0x1_0000 < 0x5000

theorem tileEngineReg_cuffOps (t : Nat) : tileEngineReg (Reg.cuffOps t) := by
  simp only [tileEngineReg, Reg.cuffOps, tileCtl]
  omega

namespace tileEngineReg
variable {o : Nat} (h : tileEngineReg o)
include h

/-- It is no register of the module's own blocks. -/
theorem ne_module {k : Nat} (hk : k < tileCtl 0) : o ≠ k := by
  obtain ⟨ho, -⟩ := h
  omega

/-- It is no register of a tile's Sizer or traffic counters. -/
theorem ne_tile {k : Nat} (t : Nat) (hk : 0x5000 ≤ k) (hk' : k < 0x1_0000) : o ≠ tileCtl t + k := by
  obtain ⟨-, ho⟩ := h
  simp only [tileCtl]
  omega

/-- It is in no list of registers of the module's own blocks. -/
theorem not_mem {l : List Nat} (hl : ∀ k ∈ l, k < tileCtl 0) : o ∉ l := fun hm => h.ne_module (hl o hm) rfl

theorem not_errRegs : o ∉ errRegs := h.not_mem (by decide)

theorem not_storeRegs : o ∉ storeRegs :=
  Machine.not_storeRegs o (h.not_mem (by decide)) (Or.inr (Nat.le_trans (by decide) h.1))

end tileEngineReg

namespace Core

theorem rd_bump_ne (c : Core) {o p : Nat} (n : Nat) (h : o ≠ p) : (c.bump p n).rd o = c.rd o := by rw [rd_bump, if_neg h]

theorem rd_setFld_ne (c : Core) {o p : Nat} (hi lo v : Nat) (h : o ≠ p) : (c.setFld p hi lo v).rd o = c.rd o := by rw [rd_setFld, if_neg h]

theorem rd_bumpFld16_ne (c : Core) {o p : Nat} (lo : Nat) (h : o ≠ p) : (c.bumpFld16 p lo).rd o = c.rd o := rd_setFld_ne _ _ _ _ h

theorem rd_bumpUnits_ne (c : Core) {o p : Nat} (n unit : Nat) (h : o ≠ p) : (c.bumpUnits p n unit).rd o = c.rd o :=
  rd_bump_ne c _ h

theorem ddrChannel_lt (c : Core) (a : Nat) : c.ddrChannel a < 16 := Nat.mod_lt _ (by omega)

@[simp] theorem rd_wantRead (c : Core) (key cls ga n o : Nat) : (c.wantRead key cls ga n).rd o = c.rd o := rfl

@[simp] theorem rd_fresh (c : Core) (o : Nat) : c.fresh.2.rd o = c.rd o := rfl

theorem rd_setFetched (c : Core) (fs : List Fetch) (o : Nat) : ({ c with fetched := fs } : Core).rd o = c.rd o := rfl

@[simp] theorem rd_request (c : Core) (dest cls : Nat) (w : Waiter) (mk : Nat → List Byte) (o : Nat) :
    (c.request dest cls w mk).rd o = c.rd o := by
  unfold request
  split <;> rfl

@[simp] theorem rd_remoteWrite (c : Core) (ga : Nat) (bs : List Byte) (w : Waiter) (o : Nat) :
    (c.remoteWrite ga bs w).rd o = c.rd o := by
  unfold remoteWrite
  exact foldl_keeps (fun c : Core => c.rd o) _ (fun c p => rd_request ..) _ _

section
variable {o : Nat} (h : tileEngineReg o)
include h

/-- A counter of the module's own blocks is raised. -/
theorem rd_bump_module (c : Core) {k : Nat} (n : Nat) (hk : k < tileCtl 0) : (c.bump k n).rd o = c.rd o :=
  c.rd_bump_ne n (h.ne_module hk)

/-- A counter of a tile's Sizer or traffic is raised. -/
theorem rd_bump_tile (c : Core) {k : Nat} (t n : Nat) (hk : 0x5000 ≤ k) (hk' : k < 0x1_0000) :
    (c.bump (tileCtl t + k) n).rd o = c.rd o :=
  c.rd_bump_ne n (h.ne_tile t hk hk')

theorem rd_countServed (c : Core) (k : AccessKind) (a n : Nat) : (c.countServed k a n).rd o = c.rd o := by
  unfold countServed
  split <;> simp (disch := decide) only [rd_bump_module h]

/-- An access counts at the memory that serves it and in its tile's traffic counters, of which there is one for each of the four planes. -/
theorem rd_countAccess (c : Core) (t : Nat) {p : Nat} (hp : p < 4) (k : AccessKind) (ga n : Nat) :
    (c.countAccess t p k ga n).rd o = c.rd o := by
  have plane : ∀ c : Core, (c.bump (Reg.tcntPlane t p) n).rd o = c.rd o := fun c => rd_bump_tile h c t n (by omega) (by omega)
  have tile : ∀ (c : Core) (k : Nat), 0x5000 ≤ k → k < 0x1_0000 → (c.bump (tileCtl t + k) n).rd o = c.rd o := fun c k => rd_bump_tile h c t n
  unfold countAccess
  simp only [Reg.tcntSramRd, Reg.tcntSramWr, Reg.tcntHbmRd, Reg.tcntHbmWr, Reg.tcntHbmAcc, Reg.tcntDdrRd, Reg.tcntDdrWr,
    Reg.tcntRemoteRd, Reg.tcntRemoteWr]
  repeat' split
  all_goals simp (disch := decide) only [plane, tile, rd_countServed h]

theorem rd_rowDue (c : Core) {d : Nat} (hd : d < 16) (key : Nat) : (c.rowDue d key).rd o = c.rd o := by
  have hm : Reg.margin (384 + d) < tileCtl 0 := by simp only [Reg.margin, tileCtl]; omega
  unfold rowDue addDue
  repeat' split
  · rfl
  · rfl
  · exact rd_setFld_ne _ _ _ _ (h.ne_module hm)

theorem rd_countMemErr (c : Core) (a : Nat) (ue : Bool) : (c.countMemErr a ue).rd o = c.rd o := by
  have counted : ∀ {k p : Nat} (lo : Nat), k < tileCtl 0 → p < tileCtl 0 → ((c.bump k 1).bumpFld16 p lo).rd o = c.rd o := fun lo hk hp =>
    (rd_bumpFld16_ne _ lo (h.ne_module hp)).trans (rd_bump_module h c 1 hk)
  have hch := c.ddrChannel_lt a
  have hhbm : Reg.hbmChStatus (c.hbmChannel a) < tileCtl 0 := by
    have := c.hbmChannel_lt a
    simp only [Reg.hbmChStatus, tileCtl]
    omega
  have hddr : Reg.ddrChStatus (c.ddrChannel a) < tileCtl 0 := by
    simp only [Reg.ddrChStatus, tileCtl]
    omega
  unfold countMemErr
  dsimp only
  split
  · exact counted _ (by split <;> decide) hhbm
  · split
    · exact (rd_rowDue h _ hch _).trans (counted _ (by decide) hddr)
    · split
      · exact (rd_rowDue h _ hch _).trans (counted _ (by decide) hddr)
      · exact counted _ (by decide) hddr
  · rfl

theorem rd_writeG (c : Core) (t : Nat) {p : Nat} (hp : p < 4) (ga : Nat) (bs : List Byte) (w : Waiter) :
    (c.writeG t p ga bs w).core.rd o = c.rd o := by
  have hc := rd_countAccess h c t hp .wr ga bs.length
  unfold writeG
  dsimp only
  split
  · exact (rd_store _ _ _ _ _ h.not_storeRegs).trans hc
  · split
    · exact (rd_remoteWrite ..).trans hc
    · exact hc

/-! ## The narrowing points -/

theorem rd_numEvent (c : Core) (e : ErrInfo) (event : Nat) (x : Lane) (thresh kind x0 unit addr : Nat) :
    (c.numEvent e event x thresh kind x0 unit addr).rd o = c.rd o :=
  rd_errPush _ _ _ h.not_storeRegs h.not_errRegs

theorem rd_countLadder (c : Core) (r : Narrowed) : (c.countLadder r).rd o = c.rd o := by
  unfold countLadder
  dsimp only
  repeat' split
  all_goals simp (disch := decide) only [rd_bump_module h]

theorem rd_finishBlock (c : Core) (t : Nat) {p : Nat} (hp : p < 4) (ctrl kind code addr : Nat) (e : ErrInfo) (r : Narrowed) (xs : List Lane)
    (w : Waiter) : (c.finishBlock t p ctrl kind code addr e r xs w).core.rd o = c.rd o := by
  have hnext : o ≠ Reg.numFbNext := h.ne_module (by decide)
  have plane : ∀ (c : Core) (n : Nat), (c.bump (Reg.tcntPlane t p) n).rd o = c.rd o := fun c n => rd_bump_tile h c t n (by omega) (by omega)
  have hbm : ∀ (c : Core) (n : Nat), (c.bump (Reg.tcntHbmWr t) n).rd o = c.rd o := fun c n => rd_bump_tile h c t n (by decide) (by decide)
  unfold finishBlock
  dsimp only
  repeat' split
  all_goals simp (disch := decide) only [rd_numEvent h, plane, hbm, rd_countServed h, rd_store _ _ _ _ _ h.not_storeRegs,
    rd_setFld_ne _ _ _ _ hnext, rd_bump_module h, rd_countLadder h]

theorem rd_checkUnit (c : Core) (ctrl thresh kind tid step u addr : Nat) (e : ErrInfo) (xs : List (Lane × Lane)) :
    (c.checkUnit ctrl thresh kind tid step u addr e xs).rd o = c.rd o := by
  have worst : ∀ (c : Core) (v : Word), (c.wr Reg.numCheckWorst v).rd o = c.rd o := fun c v => rd_wr_ne c v (h.ne_module (by decide))
  have events : ∀ (c : Core) (l : List Nat), ({ c with events := l } : Core).rd o = c.rd o := fun _ _ => rfl
  unfold checkUnit
  dsimp only
  repeat' split
  all_goals simp (disch := decide) only [events, rd_numEvent h, worst, rd_bump_module h]

end
end Core

/-! ## What reads, writes and counts leave of the jobs -/

/-- What a job's reads and writes leave: the jobs, the descriptors' numbers, and a register `o`. -/
def State.jobView (s : State) (o : Nat) : List CuffJob × List Nat × Word := (s.work.jobs, s.work.descs.map (·.id), s.core.rd o)

namespace State

theorem jobView_eq {s u : State} {o : Nat} (h : u.jobView o = s.jobView o) :
    u.work.jobs = s.work.jobs ∧ u.work.descs.map (·.id) = s.work.descs.map (·.id) ∧ u.core.rd o = s.core.rd o := by
  simpa only [jobView, Prod.mk.injEq] using h

theorem jobView_onCore (s : State) {f : Core → Core} {o : Nat} (hf : (f s.core).rd o = s.core.rd o) : (s.onCore f).jobView o = s.jobView o := by
  simp only [jobView, onCore_core, onCore_work, hf]

theorem jobView_setCore (s : State) {c : Core} {o : Nat} (hc : c.rd o = s.core.rd o) : ({ s with core := c } : State).jobView o = s.jobView o :=
  s.jobView_onCore (f := fun _ => c) hc

/-- A change of descriptors that leaves their numbers. -/
theorem jobView_updDesc (s : State) (id : Nat) {f : Desc → Desc} (o : Nat) (hf : ∀ d, (f d).id = d.id) :
    (s.updDesc id f).jobView o = s.jobView o := by
  have hids : ∀ d : Desc, (if d.id = id then f d else d).id = d.id := fun d => by split <;> simp only [hf]
  simp only [jobView, updDesc, List.map_map, Function.comp_def, hids]

@[simp] theorem jobView_setPhase (s : State) (id : Nat) (p : Phase) (o : Nat) : (s.setPhase id p).jobView o = s.jobView o :=
  s.jobView_updDesc id o fun _ => rfl

@[simp] theorem jobView_strike (s : State) (id code addr r o : Nat) : (s.strike id code addr r).jobView o = s.jobView o :=
  s.jobView_updDesc id o fun _ => by split <;> rfl

@[simp] theorem jobView_sawUe (s : State) (id : Nat) (lines : List Nat) (o : Nat) : (s.sawUe id lines).jobView o = s.jobView o :=
  s.jobView_updDesc id o fun _ => rfl

@[simp] theorem jobView_meetFetched (s : State) (id r : Nat) (x : Nat × Nat) (o : Nat) : (s.meetFetched id r x).jobView o = s.jobView o := by
  unfold meetFetched
  exact foldl_keeps (jobView · o) _ (fun s f => by dsimp only; split <;> simp) _ _

@[simp] theorem jobView_needFor (s : State) (cls r : Nat) (rs : List (Nat × Nat)) (o : Nat) : (s.needFor cls r rs).jobView o = s.jobView o :=
  s.jobView_onCore (foldl_keeps (fun c : Core => c.rd o) _ (fun c x => by split <;> simp) _ _)

@[simp] theorem jobView_putBufs (s : State) (b : CuffBufs) (o : Nat) : (s.putBufs b).jobView o = s.jobView o := rfl

/-- A change of the multicast fills that a plan awaits. -/
theorem jobView_setFills (s : State) (fs : List Fill) (o : Nat) :
    ({ s with work := { s.work with fills := fs } } : State).jobView o = s.jobView o := rfl

/-- A change of the values kept for the sampled checks. -/
theorem jobView_setNarrows (s : State) (ns : List Narrow) (o : Nat) :
    ({ s with work := { s.work with narrows := ns } } : State).jobView o = s.jobView o := rfl

@[simp] theorem jobView_throughBufs (s : State) (t per : Nat) (els : List (Option Held)) (o : Nat) :
    (s.throughBufs t per els).jobView o = s.jobView o :=
  foldl_keeps (jobView · o) (fun s k => s.putBufs (((s.bufsOf t).fill ((els.drop (per * k)).take per)).empty).2) (fun _ _ => rfl) _ _

section
variable {o : Nat} (h : tileEngineReg o)
include h

theorem jobView_meetUe (s : State) (id r : Nat) (bad : List Nat) : (s.meetUe id r bad).jobView o = s.jobView o := by
  cases bad with
  | nil => rfl
  | cons l ls =>
    simp only [meetUe, jobView_sawUe, jobView_strike]
    exact s.jobView_onCore (foldl_keeps (fun c : Core => c.rd o) _ (fun c l => Core.rd_countMemErr h c _ _) _ _)

theorem jobView_readOne (s : State) (id t : Nat) {p : Nat} (hp : p < 4) (r : Nat) (x : Nat × Nat) :
    (s.readOne id t p r x).jobView o = s.jobView o := by
  have hc := Core.rd_countAccess h s.core t hp .rd x.1 x.2
  have hs := s.jobView_setCore hc
  unfold readOne
  dsimp only
  split
  · split
    · exact (jobView_meetUe h _ _ _ _).trans hs
    · exact (jobView_strike ..).trans hs
  · split
    · exact (jobView_strike ..).trans hs
    · split
      · exact (jobView_meetFetched ..).trans hs
      · split
        · exact s.jobView_setCore hc
        · exact (jobView_strike ..).trans hs

theorem jobView_readFor (s : State) (id t : Nat) {p : Nat} (hp : p < 4) (r : Nat) (rs : List (Nat × Nat)) :
    (s.readFor id t p r rs).jobView o = s.jobView o :=
  foldl_keeps (jobView · o) _ (fun s x => jobView_readOne h s id t hp r x) _ _

theorem jobView_putOne (s : State) (id t : Nat) {p : Nat} (hp : p < 4) (r : Nat) (w : Nat × List Byte) :
    (s.putOne id t p r w).jobView o = s.jobView o := by
  have hs := s.jobView_setCore (Core.rd_writeG h s.core t hp w.1 w.2 (.desc id r))
  unfold putOne
  dsimp only
  repeat' split
  all_goals
    simp only [jobView_strike, jobView_meetUe h]
    exact (jobView_updDesc _ _ _ fun _ => by rfl).trans hs

theorem jobView_writeFor (s : State) (id t : Nat) {p : Nat} (hp : p < 4) (r : Nat) (ws : List (Nat × List Byte)) :
    (s.writeFor id t p r ws).jobView o = s.jobView o := by
  refine foldl_keeps (jobView · o) _ (fun s w => ?_) _ _
  unfold writeOne
  split
  · rfl
  · exact jobView_putOne h s id t hp r w

theorem jobView_writeEls (s : State) (id t : Nat) {p : Nat} (hp : p < 4) (r : Nat) (els : List OutEl) :
    (s.writeEls id t p r els).jobView o = s.jobView o := jobView_writeFor h s id t hp r _

theorem jobView_sendFill (s : State) (d : Desc) (f : Fill) : (s.sendFill d f).jobView o = s.jobView o := by
  unfold sendFill
  dsimp only
  rw [jobView_setFills]
  refine (jobView_onCore _ ?_).trans (jobView_readFor h s _ _ (by omega) _ _)
  rw [Core.rd_setFetched]
  exact Core.rd_bump_tile h _ d.tile 1 (by decide) (by decide)

theorem jobView_readOperand (s : State) (d : Desc) (tile i : Nat) (is : List (List Nat)) : (s.readOperand d tile i is).jobView o = s.jobView o :=
  (jobView_readFor h _ _ _ (by omega) _ _).trans (foldl_keeps (jobView · o) _ (fun s f => jobView_sendFill h s d f) _ _)

theorem jobView_narrowRun (s : State) (d : Desc) (t : Tensor) (tile kind r : Nat) (cells : List (List Nat × Lane)) :
    (s.narrowRun d t tile kind r cells).1.jobView o = s.jobView o := by
  unfold narrowRun
  refine foldl_keeps (fun a : State × List OutEl × List (List Nat × Lane × Lane) => a.1.jobView o) _ (fun a x => ?_) _ _
  exact (jobView_updDesc _ _ _ fun _ => by rfl).trans (jobView_setCore _ (Core.rd_finishBlock h _ _ (by omega) _ _ _ _ _ _ _ _))

theorem jobView_copyEls (s : State) (d : Desc) (is : List (List Nat)) (tile : Nat) : (s.copyEls d is tile).1.jobView o = s.jobView o := by
  unfold copyEls
  dsimp only
  split
  · rfl
  · rfl
  · split
    · exact jobView_narrowRun h s d _ _ _ _ _
    · rfl

theorem jobView_copyChecks (s : State) (d : Desc) : (s.copyChecks d).jobView o = s.jobView o := by
  unfold copyChecks
  split
  · dsimp only
    rw [jobView_setNarrows]
    refine foldl_keeps (jobView · o) _ (fun s u => ?_) _ _
    exact s.jobView_onCore (Core.rd_checkUnit h _ _ _ _ _ _ _ _ _ _)
  · rfl

end

/-! ## Steps of a job leave CUFF_OPS (R172) -/

theorem jobView_countCopy (s : State) (t a b n bits : Nat) (turned : Bool) (half : Nat) :
    (s.countCopy t a b n bits turned half).jobView (Reg.cuffOps t) = s.jobView (Reg.cuffOps t) :=
  s.jobView_onCore (by simp [Reg.cuffOps, Reg.cuffBytesIn, Reg.cuffBytesOut, Reg.cuffFills, Reg.cuffTransposed, Reg.cuffHalfRate])

theorem jobView_copyPart (s : State) (d : Desc) (j : CuffJob) (is : List (List Nat)) :
    (s.copyPart d j is).jobView (Reg.cuffOps j.tile) = s.jobView (Reg.cuffOps j.tile) := by
  have h := tileEngineReg_cuffOps j.tile
  unfold copyPart
  extract_lets t0 t1 src rs wide s1 s1' raw s2 r s3 turned s4
  have e1 : s1.jobView (Reg.cuffOps j.tile) = s.jobView (Reg.cuffOps j.tile) :=
    (jobView_onCore _ (Core.rd_bump_module h _ _ (by decide))).trans (jobView_readOperand h _ _ _ _ _)
  have e1' : s1'.jobView (Reg.cuffOps j.tile) = s1.jobView (Reg.cuffOps j.tile) := by
    unfold s1'
    split
    · exact jobView_readFor h _ _ _ (by omega) _ _
    · rfl
  have e2 : s2.jobView (Reg.cuffOps j.tile) = s1'.jobView (Reg.cuffOps j.tile) := jobView_throughBufs ..
  have er : r.1.jobView (Reg.cuffOps j.tile) = s2.jobView (Reg.cuffOps j.tile) := by
    unfold r
    split
    · rfl
    · split
      · exact jobView_copyEls h _ _ _ _
      · split <;> rfl
  have e3 : s3.jobView (Reg.cuffOps j.tile) = r.1.jobView (Reg.cuffOps j.tile) := jobView_writeEls h _ _ _ (by omega) _ _
  have e4 : s4.jobView (Reg.cuffOps j.tile) = s3.jobView (Reg.cuffOps j.tile) := jobView_countCopy ..
  have es := e4.trans (e3.trans (er.trans (e2.trans (e1'.trans e1))))
  split
  · refine (jobView_onCore _ (Core.rd_bumpUnits_ne _ _ _ ?_)).trans es
    simp [Reg.cuffOps, Reg.cuffWidened]
  · exact es

theorem jobView_copyJob (s : State) (d : Desc) (j : CuffJob) :
    (s.copyJob d j).jobView (Reg.cuffOps j.tile) = s.jobView (Reg.cuffOps j.tile) := by
  unfold copyJob
  dsimp only
  split
  · split
    · rfl
    · refine (jobView_onCore _ (Core.rd_bump_ne _ _ ?_)).trans (jobView_copyPart s d j _)
      simp [Reg.cuffOps, Reg.cuffInplaceUnits]
  · exact jobView_copyPart s d j _

theorem jobView_packJob (s : State) (d : Desc) (t : Nat) : (s.packJob d t).jobView (Reg.cuffOps t) = s.jobView (Reg.cuffOps t) := by
  have h := tileEngineReg_cuffOps t
  unfold packJob
  extract_lets r0 w n s1 bs st s2
  have e1 : s1.jobView (Reg.cuffOps t) = s.jobView (Reg.cuffOps t) := jobView_readFor h _ _ _ (by omega) _ _
  have e2 : s2.jobView (Reg.cuffOps t) = s1.jobView (Reg.cuffOps t) := jobView_writeFor h _ _ _ (by omega) _ _
  refine (jobView_onCore _ ?_).trans (e2.trans e1)
  simp [Reg.cuffOps, Reg.cuffPackWords, Reg.cuffPackStream, Reg.cuffBytesIn, Reg.cuffBytesOut, Reg.cuffHalfRate]

theorem jobView_unpackJob (s : State) (d : Desc) (t : Nat) : (s.unpackJob d t).jobView (Reg.cuffOps t) = s.jobView (Reg.cuffOps t) := by
  have h := tileEngineReg_cuffOps t
  unfold unpackJob
  extract_lets r0 w s0 len bs s1
  have e0 : s0.jobView (Reg.cuffOps t) = s.jobView (Reg.cuffOps t) := jobView_needFor ..
  have e1 : s1.jobView (Reg.cuffOps t) = s.jobView (Reg.cuffOps t) := by
    refine (jobView_onCore _ ?_).trans (jobView_readFor h _ _ _ (by omega) _ _)
    simp [Reg.cuffOps, Reg.cuffPackStream, Reg.cuffBytesIn, Reg.cuffHalfRate]
  split
  · exact e0
  · split
    · refine (jobView_onCore _ ?_).trans ((jobView_strike ..).trans e1)
      simp [Reg.cuffOps, Reg.cuffPackBad]
    · refine (jobView_onCore _ ?_).trans ((jobView_writeFor h _ _ _ (by omega) _ _).trans e1)
      simp [Reg.cuffOps, Reg.cuffPackWords, Reg.cuffBytesOut, Reg.cuffHalfRate]

/-! ## A step of a job -/

/-- A job that has taken its last step: it is a job no more, and it counts (R172). -/
def endJob (s : State) (j : CuffJob) : State :=
  ({ s with work := { s.work with jobs := s.work.jobs.erase j } } : State).onCore fun c => c.bump (Reg.cuffOps j.tile) 1

/-- A step of a Cuff descriptor's job reads, writes and counts; then it advances the job, or ends it. -/
theorem runJob_eq (s : State) (d : Desc) (j : CuffJob) : ∃ s1 : State, s1.jobView (Reg.cuffOps j.tile) = s.jobView (Reg.cuffOps j.tile) ∧
    s.runJob d j = if j.done + 1 < s.jobSteps d j then
      { s1 with work := { s1.work with jobs := s1.work.jobs.map fun o => if o = j then { j with started := true, done := j.done + 1 } else o } }
    else if (s1.endJob j).work.jobs.any fun o => o.desc == d.id then s1.endJob j
    else ((s1.endJob j).copyChecks d).setPhase d.id .finished := by
  refine ⟨_, ?_, rfl⟩
  split
  · exact (jobView_packJob ..).trans (jobView_setPhase ..)
  · exact (jobView_unpackJob ..).trans (jobView_setPhase ..)
  · exact (jobView_copyJob ..).trans (jobView_setPhase ..)

/-- A step before a job's last counts in the job alone. -/
theorem runJob_step (s : State) (d : Desc) (j : CuffJob) (h : j.done + 1 < s.jobSteps d j) :
    (s.runJob d j).work.jobs = s.work.jobs.map (fun o => if o = j then { j with started := true, done := j.done + 1 } else o) ∧
    (s.runJob d j).core.rd (Reg.cuffOps j.tile) = s.core.rd (Reg.cuffOps j.tile) := by
  obtain ⟨s1, hv, he⟩ := s.runJob_eq d j
  obtain ⟨hjobs, -, hrd⟩ := jobView_eq hv
  rw [he, if_pos h]
  exact ⟨by rw [hjobs], hrd⟩

/-- A descriptor's number is that of the descriptor found by it. -/
theorem desc?_id {s : State} {id : Nat} {d : Desc} (h : s.desc? id = some d) : d.id = id := by
  simpa using List.find?_some h

theorem desc?_isSome (s : State) (id : Nat) : (s.desc? id).isSome ↔ id ∈ s.work.descs.map (·.id) := by
  simp [desc?]

/-- The phase that is set of a descriptor is the one it has. -/
theorem desc?_setPhase (s : State) (id : Nat) (p : Phase) : (s.setPhase id p).desc? id = (s.desc? id).map fun d => { d with phase := p } := by
  have hid : ∀ d : Desc, ((if d.id = id then { d with phase := p } else d : Desc).id == id) = (d.id == id) := fun d => by split <;> rfl
  simp only [desc?, setPhase, updDesc, List.find?_map, Function.comp_def, hid]
  refine Option.map_congr fun d hd => if_pos ?_
  simpa using List.find?_some hd

/-- The last step of a job takes it from the jobs and counts it; it finishes the descriptor when no other job of it is left. -/
theorem runJob_last (s : State) (d : Desc) (j : CuffJob) (h : s.jobSteps d j ≤ j.done + 1) :
    (s.runJob d j).work.jobs = s.work.jobs.erase j ∧
    (s.runJob d j).core.rd (Reg.cuffOps j.tile) = s.core.rd (Reg.cuffOps j.tile) + 1 ∧
    ((∀ o ∈ s.work.jobs.erase j, (o.desc == d.id) = false) → (s.desc? d.id).isSome →
      ∃ e, (s.runJob d j).desc? d.id = some e ∧ e.phase = .finished) := by
  obtain ⟨s1, hv, he⟩ := s.runJob_eq d j
  obtain ⟨hjobs, hids, hrd⟩ := jobView_eq hv
  rw [if_neg (by omega)] at he
  have hjobs2 : (s1.endJob j).work.jobs = s.work.jobs.erase j := by rw [← hjobs]; rfl
  have hrd2 : (s1.endJob j).core.rd (Reg.cuffOps j.tile) = s.core.rd (Reg.cuffOps j.tile) + 1 := by
    rw [← hrd]
    exact (Core.rd_bump ..).trans (if_pos rfl)
  obtain ⟨hjobs3, hids3, hrd3⟩ := jobView_eq (jobView_copyChecks (tileEngineReg_cuffOps j.tile) (s1.endJob j) d)
  rw [hjobs2] at he
  rw [he]
  split
  case isTrue hany =>
    refine ⟨hjobs2, hrd2, fun hnone _ => ?_⟩
    obtain ⟨o, ho, hod⟩ := List.any_eq_true.1 hany
    rw [hnone o ho] at hod
    cases hod
  case isFalse =>
    refine ⟨hjobs3.trans hjobs2, hrd3.trans hrd2, fun _ hsome => ?_⟩
    rw [desc?_isSome, ← hids] at hsome
    have hsome3 := ((s1.endJob j).copyChecks d).desc?_isSome d.id |>.2 (hids3 ▸ hsome)
    obtain ⟨e, hfound⟩ := Option.isSome_iff_exists.1 hsome3
    exact ⟨{ e with phase := .finished }, by rw [desc?_setPhase, hfound]; rfl, rfl⟩

/-! ## The stage that holds the step (R76, R95) -/

/-- A stage that took effect: what was fetched for it is used up (R388). -/
def stageDone (s : State) (o : Owner) : State :=
  { s with core := { s.core with reader := none, fetched := s.core.fetched.filter fun f => f.owner != o } }

@[simp] theorem stageDone_work (s : State) (o : Owner) : (s.stageDone o).work = s.work := rfl
@[simp] theorem rd_stageDone (s : State) (o : Owner) (k : Nat) : (s.stageDone o).core.rd k = s.core.rd k := rfl
@[simp] theorem desc?_stageDone (s : State) (o : Owner) (id : Nat) : (s.stageDone o).desc? id = s.desc? id := rfl
@[simp] theorem readBy_work (s : State) (o : Owner) : (s.readBy o).work = s.work := rfl
@[simp] theorem rd_readBy (s : State) (o : Owner) (k : Nat) : (s.readBy o).core.rd k = s.core.rd k := rfl
@[simp] theorem desc?_readBy (s : State) (o : Owner) (id : Nat) : (s.readBy o).desc? id = s.desc? id := rfl
@[simp] theorem jobSteps_readBy (s : State) (o : Owner) (d : Desc) (j : CuffJob) : (s.readBy o).jobSteps d j = s.jobSteps d j := rfl

/-- A stage that lacks nothing takes effect at once. -/
theorem stage_of_mayRun {s : State} {d : Desc} {f : State → State} (h : s.mayRun d f) :
    s.stage d f = (f (s.readBy (.desc d.id))).stageDone (.desc d.id) := by
  obtain ⟨hworks, hfetching, hwant⟩ := h
  simp only [stage, hworks, if_true, withFetch, hfetching, Bool.false_eq_true, if_false]
  exact if_pos hwant

/-- A tile's first job is a job of the tile, and its descriptor is ready or running. -/
theorem firstJob_some {s : State} {t : Nat} {d : Desc} {j : CuffJob} (h : s.firstJob t = some (d, j)) :
    j ∈ s.work.jobs ∧ j.tile = t ∧ s.desc? j.desc = some d ∧ (d.phase = .ready ∨ d.phase = .running) := by
  obtain ⟨k, hk, hd⟩ := List.exists_of_findSome?_eq_some h
  obtain ⟨hmem, htile⟩ := List.mem_filter.1 hk
  obtain ⟨e, he, hif⟩ := Option.bind_eq_some_iff.1 hd
  split at hif
  case isTrue hphase =>
    cases hif
    exact ⟨hmem, by simpa using htile, he, hphase⟩
  case isFalse => cases hif

/-- The first job of a Cuff descriptor takes its next step. -/
theorem cuffJob_of_cuff {s : State} {t : Nat} {d : Desc} {j : CuffJob} (h : s.firstJob t = some (d, j)) (hop : 0x20 ≤ d.opcode)
    (hrun : s.mayRun d fun s => s.runJob d j) :
    s.cuffJob t = ((s.readBy (.desc d.id)).runJob d j).stageDone (.desc d.id) := by
  rw [← stage_of_mayRun hrun]
  simp only [cuffJob, h, hop, if_true]

/-- A gradient job that has not been taken is taken. -/
theorem cuffJob_of_gradient {s : State} {t : Nat} {d : Desc} {j : CuffJob} (h : s.firstJob t = some (d, j)) (hop : d.opcode < 0x20)
    (hworks : s.works d = true) (hj : j.started = false) : s.cuffJob t = s.startJob j := by
  have hcuff : ¬ 0x20 ≤ d.opcode := by omega
  have hfree : ¬ (j.started = true ∨ s.works d = false) := by rw [hj, hworks]; decide
  simp only [cuffJob, h]
  rw [if_neg hcuff, if_neg hfree]

/-- What `runJob_last` says of a tile's first job, its descriptor being a Cuff one and its fetches done. -/
theorem cuffJob_last {s : State} {t : Nat} {d : Desc} {j : CuffJob} (h : s.firstJob t = some (d, j)) (hop : 0x20 ≤ d.opcode)
    (hlast : s.jobSteps d j ≤ j.done + 1) (hrun : s.mayRun d fun s => s.runJob d j) :
    (s.cuffJob t).work.jobs = s.work.jobs.erase j ∧
    (s.cuffJob t).core.rd (Reg.cuffOps t) = s.core.rd (Reg.cuffOps t) + 1 ∧
    ((∀ o ∈ s.work.jobs.erase j, (o.desc == d.id) = false) → ∃ e, (s.cuffJob t).desc? d.id = some e ∧ e.phase = .finished) := by
  obtain ⟨-, rfl, hd, -⟩ := firstJob_some h
  have hend := (s.readBy (.desc d.id)).runJob_last d j (by rwa [jobSteps_readBy])
  rw [readBy_work, rd_readBy, desc?_readBy] at hend
  obtain ⟨hjobs, hrd, hphase⟩ := hend
  rw [cuffJob_of_cuff h hop hrun, stageDone_work, rd_stageDone, desc?_stageDone]
  exact ⟨hjobs, hrd, fun hnone => hphase hnone (by rw [desc?_id hd, hd]; rfl)⟩

/-- What `runJob_step` says of a tile's first job, its descriptor being a Cuff one and its fetches done. -/
theorem cuffJob_step {s : State} {t : Nat} {d : Desc} {j : CuffJob} (h : s.firstJob t = some (d, j)) (hop : 0x20 ≤ d.opcode)
    (hstep : j.done + 1 < s.jobSteps d j) (hrun : s.mayRun d fun s => s.runJob d j) :
    ({ j with started := true, done := j.done + 1 } : CuffJob) ∈ (s.cuffJob t).work.jobs ∧
    (s.cuffJob t).core.rd (Reg.cuffOps t) = s.core.rd (Reg.cuffOps t) := by
  obtain ⟨hmem, rfl, -, -⟩ := firstJob_some h
  have hnext := (s.readBy (.desc d.id)).runJob_step d j (by rwa [jobSteps_readBy])
  rw [readBy_work, rd_readBy] at hnext
  obtain ⟨hjobs, hrd⟩ := hnext
  rw [cuffJob_of_cuff h hop hrun, stageDone_work, rd_stageDone, hjobs]
  exact ⟨List.mem_map.2 ⟨j, hmem, if_pos rfl⟩, hrd⟩

/-! ## A gradient job taken (R144) -/

theorem mem_startFirst {j : CuffJob} (hj : j.started = false) {l : List CuffJob} (h : j ∈ l) :
    ({ j with started := true } : CuffJob) ∈ startFirst j l := by
  have hself : ({ j with started := false } : CuffJob) = j := by rw [← hj]
  induction l with
  | nil => cases h
  | cons x xs ih =>
    rw [startFirst, hself]
    split
    case isTrue hx => rw [hx]; exact List.mem_cons_self
    case isFalse hx => exact List.mem_cons_of_mem _ (ih ((List.mem_cons.1 h).resolve_left (Ne.symm hx)))

theorem bufsOf_tile (s : State) (t : Nat) : (s.bufsOf t).tile = t := by
  unfold bufsOf
  cases hb : s.work.bufs.find? fun b => b.tile == t with
  | none => rfl
  | some b => simpa using List.find?_some hb

theorem bufsOf_putBufs (s : State) (b : CuffBufs) : (s.putBufs b).bufsOf b.tile = b := by
  simp [bufsOf, putBufs]

/-- The buffers after a gradient job is taken: both empty, their slots as they were. -/
theorem bufsOf_startJob (s : State) (j : CuffJob) : (s.startJob j).bufsOf j.tile = { s.bufsOf j.tile with full0 := false, full1 := false } := by
  have h := bufsOf_putBufs ({ s with work := { s.work with jobs := startFirst j s.work.jobs } } : State)
    { s.bufsOf j.tile with full0 := false, full1 := false }
  rwa [show ({ s.bufsOf j.tile with full0 := false, full1 := false } : CuffBufs).tile = j.tile from s.bufsOf_tile j.tile] at h

/-! ## A Cuff descriptor run to its end -/

/-- Where no job of a descriptor is left, its turn never comes. -/
theorem cuffStep_of_no_job {s : State} {id : Nat} (h : ∀ j ∈ s.work.jobs, (j.desc == id) = false) (t : Nat) : s.cuffStep id t = s := by
  unfold cuffStep
  cases hf : s.firstJob t with
  | none => rfl
  | some p =>
    obtain ⟨d, j⟩ := p
    obtain ⟨hmem, -, hd, -⟩ := firstJob_some hf
    have hne : d.id ≠ id := fun he => absurd (h j hmem) (by simp [← he, desc?_id hd])
    exact if_neg hne

/-- A descriptor whose one job is its tile's first, in its last step, has that step run, and no more. -/
theorem runCuff_last {s : State} {id op : Nat} {d : Desc} {j : CuffJob} (hd : s.desc? id = some d) (hop : d.opcode = op)
    (hone : s.work.jobs.filter (fun j => j.desc == id) = [j]) (hfirst : s.firstJob j.tile = some (d, j))
    (hdone : ∀ o ∈ (s.cuffJob j.tile).work.jobs, (o.desc == id) = false) : s.runCuff id op = s.cuffJob j.tile := by
  obtain ⟨-, -, -, hphase⟩ := firstJob_some hfirst
  have hphase : d.phase ≠ .reserving := by rcases hphase with h | h <;> simp [h]
  have hstep : s.cuffStep id j.tile = s.cuffJob j.tile := by simp only [cuffStep, hfirst, desc?_id hd, if_true]
  simp only [runCuff, hd, hop, hphase, and_false, if_false, if_true, hone, List.map_cons, List.map_nil, List.sum_singleton,
    show [j.tile].eraseDups = [j.tile] from rfl, List.foldl_cons, List.foldl_nil, List.range_succ_eq_map, hstep]
  exact foldl_holds (fun u => u = s.cuffJob j.tile) _ (fun u _ hu => by rw [hu]; exact cuffStep_of_no_job hdone j.tile) _ _ rfl

end State

/-- A list that has one element which a test picks has none once that element is taken out. -/
theorem erase_of_filter_singleton {α : Type} [DecidableEq α] {l : List α} {p : α → Bool} {a : α} (h : l.filter p = [a]) :
    ∀ x ∈ l.erase a, p x = false := by
  intro x hx
  cases hp : p x with
  | false => rfl
  | true =>
    have hxa : x ∈ l.filter p := List.mem_filter.2 ⟨List.mem_of_mem_erase hx, hp⟩
    rw [h, List.mem_singleton] at hxa
    subst hxa
    have hcount : l.count x = 1 := by rw [← List.count_filter hp, h, List.count_singleton_self]
    have hpos := List.count_pos_iff.2 hx
    rw [List.count_erase_self, hcount] at hpos
    omega

/-! ## The obligation -/

theorem cuffOps_not_doffRegs (t : Nat) : Reg.cuffOps t ∉ doffRegs := (tileEngineReg_cuffOps t).not_mem (by decide)

theorem exec_cuffOpcode {c : Nat → Instr} {op : Nat} (h : (c, op) ∈ [(Instr.copy, 0x20), (Instr.permute, 0x21), (Instr.skewCopy, 0x22),
    (Instr.packInput, 0x23), (Instr.unpackInput, 0x24)]) (id : Nat) (s : State) :
    exec (c id) s = s.clocked (.next (s.runCuff id op).settle) ∧ 0x20 ≤ op := by
  simp only [List.mem_cons, Prod.mk.injEq, List.not_mem_nil, or_false] at h
  rcases h with ⟨rfl, rfl⟩ | ⟨rfl, rfl⟩ | ⟨rfl, rfl⟩ | ⟨rfl, rfl⟩ | ⟨rfl, rfl⟩ <;> exact ⟨rfl, by decide⟩

/-- Settles O13: a step's reads, writes and counts leave the jobs and CUFF_OPS, so that the end of the step is what each clause tells. -/
theorem cuffJobsRun : Obligations.CuffJobsRun := by
  refine ⟨fun s id d j c op hc hd hop hone hfirst hlast hrun ht => ?_, fun s t j d hfirst hop hlast hrun ht => ?_,
    fun s t j d hfirst hop hstep hrun ht => ?_, fun s t j d hfirst hop hworks hj ht => ?_⟩
  · obtain ⟨hexec, hge⟩ := exec_cuffOpcode hc id s
    obtain ⟨hjobs, hrd, hphase⟩ := State.cuffJob_last hfirst (hop ▸ hge) hlast hrun
    have hnone := erase_of_filter_singleton hone
    rw [State.runCuff_last hd hop hone hfirst (hjobs ▸ hnone)] at hexec
    rw [State.desc?_id hd] at hphase
    refine runs_clocked hexec ht ?_
    rw [State.desc?, settle_work, rd_settle _ _ (cuffOps_not_doffRegs _)]
    exact ⟨hphase hnone, hjobs, hrd⟩
  · obtain ⟨hjobs, hrd, -⟩ := State.cuffJob_last hfirst hop hlast hrun
    refine runs_clocked rfl ht ?_
    rw [settle_work, rd_settle _ _ (cuffOps_not_doffRegs _)]
    exact ⟨hjobs, hrd⟩
  · obtain ⟨hmem, hrd⟩ := State.cuffJob_step hfirst hop hstep hrun
    refine runs_clocked rfl ht ?_
    rw [settle_work, rd_settle _ _ (cuffOps_not_doffRegs _)]
    exact ⟨hmem, hrd⟩
  · obtain ⟨hmem, rfl, -, -⟩ := State.firstJob_some hfirst
    refine runs_clocked rfl ht ?_
    rw [State.cuffJob_of_gradient hfirst hop hworks hj, State.bufsOf, settle_work, ← State.bufsOf, State.bufsOf_startJob]
    exact ⟨State.mem_startFirst hj hmem, rfl, rfl, fun a => (rdByte_settle (s.startJob j) a).symm⟩

end Sys2Proof.Machine
end

section
/-! The Sizer's reservations and multicast fills (R247, R249, R252). What a reservation attempt decides is whether the needs of the plan's
tiles fit their areas; what a fill reads raises counters of the memories and of the tile's traffic, which SIZER_MCAST_FILLS is none of. -/

namespace Sys2Proof.Machine

/-! ## A Sizer's registers through reads (R252, R473) -/

/-- A register of a tile below its traffic counters. -/
def belowTraffic (o : Nat) : Prop := tileCtl 0 ≤ o ∧ o % 0x1_0000 < 0x6000

namespace belowTraffic
variable {o : Nat}

theorem sizerMcastFills (t : Nat) : belowTraffic (Reg.sizerMcastFills t) := by
  simp only [belowTraffic, Reg.sizerMcastFills, tileCtl]
  omega

theorem ne_module (h : belowTraffic o) {k : Nat} (hk : k < tileCtl 0) : o ≠ k := Nat.ne_of_gt (Nat.lt_of_lt_of_le hk h.1)

theorem ne_traffic (h : belowTraffic o) (t : Nat) {k : Nat} (hk : 0x6000 ≤ k) (hk' : k < 0x1_0000) : o ≠ tileCtl t + k := by
  obtain ⟨-, ho⟩ := h
  simp only [tileCtl]
  omega

theorem not_doffRegs (h : belowTraffic o) : o ∉ doffRegs := fun hm =>
  h.ne_module ((by decide : ∀ k ∈ doffRegs, k < tileCtl 0) o hm) rfl

end belowTraffic

namespace Core
variable {o : Nat} (h : belowTraffic o)
include h

/-- A read counts at the memory that serves it and, but for a read of the tile's own SRAM, in the tile's traffic counters. -/
theorem rd_countRead (c : Core) (t p ga n : Nat) : (c.countAccess t p .rd ga n).rd o = c.rd o := by
  have traffic : ∀ (c : Core) (k : Nat), 0x6000 ≤ k → k < 0x1_0000 → (c.bump (tileCtl t + k) n).rd o = c.rd o := fun c k hk hk' =>
    c.rd_bump_ne n (h.ne_traffic t hk hk')
  unfold countAccess countServed
  simp only [Reg.tcntSramRd, Reg.tcntHbmRd, Reg.tcntDdrRd, Reg.tcntRemoteRd]
  split
  · cases c.place (gaLocal ga) with
    | hbm => exact (traffic _ 0x6018 (by decide) (by decide)).trans (c.rd_bump_ne n (h.ne_module (by decide)))
    | ddr => exact (traffic _ 0x6030 (by decide) (by decide)).trans (c.rd_bump_ne n (h.ne_module (by decide)))
    | sram u =>
      dsimp only
      split
      · rfl
      · exact traffic _ 0x6008 (by decide) (by decide)
    | ctl => rfl
    | unmapped => rfl
  · exact traffic _ 0x6040 (by decide) (by decide)

/-- An uncorrectable error counts at its memory and its channel, and a DDR row that becomes due is marked in the margin table. -/
theorem rd_countUe (c : Core) (a : Nat) : (c.countMemErr a true).rd o = c.rd o := by
  have hbmChannel := c.hbmChannel_lt a
  have ddrChannel := c.ddrChannel_lt a
  have counted : ∀ {k p : Nat}, k < tileCtl 0 → p < tileCtl 0 → ((c.bump k 1).bumpFld16 p 32).rd o = c.rd o := fun hk hp =>
    (rd_bumpFld16_ne _ 32 (h.ne_module hp)).trans (c.rd_bump_ne 1 (h.ne_module hk))
  have due : ∀ (c' : Core) (key : Nat), (c'.rowDue (c.ddrChannel a) key).rd o = c'.rd o := fun c' key => by
    unfold rowDue addDue
    repeat' split
    · rfl
    · rfl
    · exact rd_setFld_ne _ _ _ _ (h.ne_module (by simp only [Reg.margin, tileCtl]; omega))
  simp only [countMemErr, if_true]
  cases c.place a with
  | hbm => exact counted (by decide) (by simp only [Reg.hbmChStatus, tileCtl]; omega)
  | ddr => exact (due _ _).trans (counted (by decide) (by simp only [Reg.ddrChStatus, tileCtl]; omega))
  | sram u => rfl
  | ctl => rfl
  | unmapped => rfl

end Core

/-! ## What a fill's fetch leaves (R247) -/

namespace State

/-- What the reads of a fill leave: the fills, and a register `o`. -/
def fillView (s : State) (o : Nat) : List Fill × Word := (s.work.fills, s.core.rd o)

theorem fillView_eq {s u : State} {o : Nat} (h : u.fillView o = s.fillView o) :
    u.work.fills = s.work.fills ∧ u.core.rd o = s.core.rd o := Prod.ext_iff.1 h

theorem fillView_onCore (s : State) {f : Core → Core} {o : Nat} (hf : (f s.core).rd o = s.core.rd o) :
    (s.onCore f).fillView o = s.fillView o := Prod.ext rfl hf

theorem fillView_setCore (s : State) {c : Core} {o : Nat} (hc : c.rd o = s.core.rd o) : ({ s with core := c } : State).fillView o = s.fillView o :=
  s.fillView_onCore (f := fun _ => c) hc

@[simp] theorem fillView_strike (s : State) (id code addr r o : Nat) : (s.strike id code addr r).fillView o = s.fillView o := rfl

@[simp] theorem fillView_sawUe (s : State) (id : Nat) (lines : List Nat) (o : Nat) : (s.sawUe id lines).fillView o = s.fillView o := rfl

@[simp] theorem fillView_meetFetched (s : State) (id r : Nat) (x : Nat × Nat) (o : Nat) : (s.meetFetched id r x).fillView o = s.fillView o :=
  foldl_keeps (fillView · o) _ (fun s f => by dsimp only; split <;> simp only [fillView_sawUe, fillView_strike]) _ _

section
variable {o : Nat} (h : belowTraffic o)
include h

theorem fillView_meetUe (s : State) (id r : Nat) (bad : List Nat) : (s.meetUe id r bad).fillView o = s.fillView o := by
  cases bad with
  | nil => rfl
  | cons l ls =>
    simp only [meetUe, fillView_sawUe, fillView_strike]
    exact s.fillView_onCore (foldl_keeps (fun c : Core => c.rd o) _ (fun c l => Core.rd_countUe h c _) _ _)

theorem fillView_readOne (s : State) (id t p r : Nat) (x : Nat × Nat) : (s.readOne id t p r x).fillView o = s.fillView o := by
  have counted := s.fillView_setCore (Core.rd_countRead h s.core t p x.1 x.2)
  have struck := fun code => (fillView_strike _ id code x.1 r o).trans counted
  unfold readOne
  dsimp only
  split
  · split
    · exact (fillView_meetUe h _ _ _ _).trans counted
    · exact struck 0x15
  · split
    · exact struck 0x15
    · split
      · exact (fillView_meetFetched ..).trans counted
      · split
        · exact s.fillView_setCore (Core.rd_countRead h s.core t p x.1 x.2)
        · exact struck 0x40

theorem fillView_readFor (s : State) (id t p r : Nat) (rs : List (Nat × Nat)) : (s.readFor id t p r rs).fillView o = s.fillView o :=
  foldl_keeps (fillView · o) _ (fun s x => fillView_readOne h s id t p r x) _ _

end

/-- A fill that is sent is marked, and counts at the tile that admitted its descriptor (log entry 44). -/
theorem sendFill_marks_and_counts (s : State) (d : Desc) (f : Fill) :
    (s.sendFill d f).work.fills = s.work.fills.map (fun x => if x = f then { f with sent := true } else x) ∧
    (s.sendFill d f).core.rd (Reg.sizerMcastFills d.tile) = s.core.rd (Reg.sizerMcastFills d.tile) + 1 := by
  obtain ⟨hfills, hrd⟩ := fillView_eq (fillView_readFor (belowTraffic.sizerMcastFills d.tile) s d.id d.tile 0 f.rec_
    ((s.tensor d f.rec_).reads ((s.tensor d f.rec_).blockAll f.idx)))
  refine ⟨congrArg (List.map _) hfills, ?_⟩
  unfold sendFill
  dsimp only [onCore]
  rw [Core.rd_setFetched, Core.rd_bump, if_pos rfl, hrd]
  rfl

/-- The next fill of a descriptor that is ready or running, all before it sent, is sent. -/
theorem mcastFill_next {s : State} {id blk : Nat} {d : Desc} {f : Fill} (hd : s.desc? id = some d) (hphase : d.phase = .ready ∨ d.phase = .running)
    (hf : (s.work.fills.filter fun f => f.desc == id)[blk]? = some f) (hsent : f.sent = false)
    (hprev : ∀ i g, i < blk → (s.work.fills.filter fun f => f.desc == id)[i]? = some g → g.sent = true) :
    s.mcastFill id blk = s.stage d fun s => s.sendFill d f := by
  have hall : ((s.work.fills.filter fun f => f.desc == id).take blk).all (·.sent) = true := List.all_eq_true.2 fun g hg => by
    obtain ⟨i, hi⟩ := List.getElem?_of_mem hg
    rw [List.getElem?_take] at hi
    split at hi
    case isTrue hlt => exact hprev i g hlt hi
    case isFalse => cases hi
  simp only [mcastFill, hd, hf]
  exact if_pos ⟨hphase, hsent, hall⟩

/-! ## Reservation (R249) -/

/-- A descriptor is found by its number as it was changed. -/
theorem desc?_updDesc (s : State) (id : Nat) {f : Desc → Desc} (hf : ∀ d, (f d).id = d.id) : (s.updDesc id f).desc? id = (s.desc? id).map f := by
  have hid : ∀ d : Desc, ((if d.id = id then f d else d : Desc).id == id) = (d.id == id) := fun d => by split <;> simp only [hf]
  simp only [desc?, updDesc, List.find?_map, Function.comp_def, hid]
  refine Option.map_congr fun d hd => if_pos ?_
  simpa using List.find?_some hd

/-- A struck descriptor has the condition's code among its own. -/
theorem desc?_strike {s : State} {id : Nat} {d : Desc} (hd : s.desc? id = some d) (code addr r : Nat) :
    ∃ e, (s.strike id code addr r).desc? id = some e ∧ ∃ x ∈ e.conds, x.code = code := by
  refine ⟨_, (desc?_updDesc s id fun _ => by split <;> rfl).trans (congrArg _ hd), ?_⟩
  dsimp only
  by_cases hany : d.conds.any (fun x => x.code == code) = true
  · rw [if_pos hany]
    simpa using hany
  · rw [if_neg hany]
    exact ⟨_, List.mem_append_right _ List.mem_cons_self, rfl⟩

/-- The units of area that a descriptor's plan needs on a tile. -/
def planNeed (s : State) (id : Nat) (d : Desc) (t : Nat) : Nat := areaNeed d.pieces (s.work.shares.filter fun h => h.desc == id) t

/-- The units of area that are reserved on a tile. -/
def areaHeld (s : State) (t : Nat) : Nat := ((s.work.resv.filter fun r => r.tile == t).map (·.units.length)).sum

/-- The units of a tile's area. -/
def areaSize (s : State) (t : Nat) : Nat := 4 * s.core.fld (Reg.sizerArea t) 15 8

/-- The tiles of a plan, each with its need. -/
def planNeeds (s : State) (id : Nat) (d : Desc) : List (Nat × Nat) := (s.planTiles id).map fun t => (t, s.planNeed id d t)

/-- The reservations that a plan is granted: on each tile with a need, its first free units. -/
def planResv (s : State) (id : Nat) (d : Desc) : List Resv :=
  ((s.planNeeds id d).filter fun p => p.2 != 0).map fun p =>
    { desc := id, tile := p.1, units := (s.freeUnits p.1).take p.2 }

theorem mem_planResv {s : State} {id t : Nat} (d : Desc) (ht : t ∈ s.planTiles id) (hneed : s.planNeed id d t ≠ 0) :
    ({ desc := id, tile := t, units := (s.freeUnits t).take (s.planNeed id d t) } : Resv) ∈ s.planResv id d :=
  List.mem_map.2 ⟨(t, s.planNeed id d t), List.mem_filter.2 ⟨List.mem_map.2 ⟨t, ht, rfl⟩, by simpa using hneed⟩, rfl⟩

section
variable {s : State} {id : Nat} {d : Desc} (hd : s.desc? id = some d) (hphase : d.phase = .reserving) (hqueue : s.sizerQueue d = false)
  (hworks : s.works d = true)
include hd hphase hqueue hworks

/-- An attempt whose needs fit makes the reservations and hands the shares on: the descriptor is ready. -/
theorem reserve_work_of_fits (hfit : ∀ t ∈ s.planTiles id, s.planNeed id d t ≤ s.areaSize t ∧ s.areaHeld t + s.planNeed id d t ≤ s.areaSize t) :
    (s.reserve id).work =
      ((({ s with work := { s.work with resv := s.work.resv ++ s.planResv id d } } : State).issue_ d).setPhase id .ready).work := by
  have hsize : ¬ ((s.planNeeds id d).any fun p => decide (s.areaSize p.1 < p.2)) = true := fun hany => by
    obtain ⟨_, hp, hover⟩ := List.any_eq_true.1 hany
    obtain ⟨t, ht, rfl⟩ := List.mem_map.1 hp
    exact Nat.not_lt.2 (hfit t ht).1 (of_decide_eq_true hover)
  have hfree : ((s.planNeeds id d).all fun p => decide (s.areaHeld p.1 + p.2 ≤ s.areaSize p.1)) = true := List.all_eq_true.2 fun _ hp => by
    obtain ⟨t, ht, rfl⟩ := List.mem_map.1 hp
    exact decide_eq_true (hfit t ht).2
  simp only [reserve, hd]
  exact (congrArg State.work ((if_neg (by simp [hphase, hqueue, hworks])).trans ((if_neg hsize).trans (if_pos hfree)))).trans rfl

/-- An attempt with a need that exceeds its tile's area ends the descriptor (R249). -/
theorem reserve_of_never_fits {t : Nat} (ht : t ∈ s.planTiles id) (hover : s.areaSize t < s.planNeed id d t) :
    s.reserve id = ((s.strike id 0x10 (if d.flag 3 then d.shapePtr else 0) 0xFF).updDesc id fun d =>
      { d with detail := 2, phase := .finished }).showWaiting d.tile := by
  simp only [reserve, hd]
  exact (if_neg (by simp [hphase, hqueue, hworks])).trans (if_pos (by simpa using ⟨t, ht, hover⟩))

end

end State

/-! ## The obligation -/

/-- Settles O12: an attempt's outcome follows from what its plan needs, and a fill's reads leave the fills and SIZER_MCAST_FILLS. -/
theorem sizerReservesAndFills : Obligations.SizerReservesAndFills := by
  refine ⟨fun s id d hd hphase hqueue hworks hfit ht => ?_, fun s id t d hd hphase hqueue hworks htile hover ht => ?_,
    fun s id blk d f hd hphase hf hsent hprev hrun ht => ?_⟩
  · refine runs_clocked rfl ht ?_
    rw [State.desc?, State.reserve_work_of_fits hd hphase hqueue hworks hfit, ← State.desc?]
    exact ⟨⟨_, (State.desc?_setPhase ..).trans (congrArg _ hd), rfl⟩, fun t ht hneed => List.mem_append_right _ (State.mem_planResv d ht hneed)⟩
  · refine runs_clocked rfl ht ?_
    rw [State.reserve_of_never_fits hd hphase hqueue hworks htile hover]
    obtain ⟨e, he, hcond⟩ := State.desc?_strike hd 0x10 (if d.flag 3 then d.shapePtr else 0) 0xFF
    have hfound := (State.desc?_updDesc _ id (f := fun d => { d with detail := 2, phase := .finished }) fun _ => rfl).trans (congrArg _ he)
    exact ⟨⟨_, hfound, rfl, rfl, hcond⟩, rfl⟩
  · obtain ⟨hfills, hrd⟩ := (s.readBy (.desc d.id)).sendFill_marks_and_counts d f
    have hmem : f ∈ s.work.fills := (List.mem_filter.1 (List.mem_of_getElem? hf)).1
    refine runs_clocked rfl ht ?_
    rw [State.mcastFill_next hd hphase hf hsent hprev, State.stage_of_mayRun hrun, settle_work,
      rd_settle _ _ (belowTraffic.sizerMcastFills d.tile).not_doffRegs, State.stageDone_work, State.rd_stageDone, hfills]
    exact ⟨List.mem_map.2 ⟨f, hmem, if_pos rfl⟩, hrd⟩

end Sys2Proof.Machine
end
